-- ==== Sys2Proof/Word.lean ====
section
/-!
DEFINITION. The word types of the model.
-/
namespace Sys2Proof

/-- One byte of a packet, a table or a memory. -/
abbrev Byte := BitVec 8

/-- A 32-bit word: registers, FP32 patterns, Q31 lanes, address registers. -/
abbrev Word := BitVec 32

end Sys2Proof
end

