-- ==== Sys2Proof/Syntax.lean ====
section
/-!
DEFINITION. The commands of the block: the operand types and the one inductive `Instr`. A packet-carried command brings its
packet; an engine instruction brings its slot fields; an event brings what the outside world contributes to it (a sampled
value, a level, a stamp, an outcome of a check of a real image), which the spec does not compute from state (log 3).
-/
namespace Sys2Proof

/-- Where a packet came from: a PCIe queue pair, the QSPI slave, or the leader of the junction over Jalut (R35, R440). -/
inductive Src where
  | pcie (q : Fin 16)
  | qspi
  | leader
  deriving DecidableEq, Repr

/-- A packet of Table 3.1 without `magic` and `length`: `length` is the payload's length, `crc` says whether a CRC follows it
(R80). With the `TIMED` flag the payload begins with the u64 time tag (R93). -/
structure Packet where
  src : Src
  version : BitVec 8
  flags : BitVec 8
  opcode : BitVec 16
  tag : BitVec 16
  axis : BitVec 16
  path : BitVec 32
  payload : List Byte
  crc : Bool
  deriving DecidableEq, Repr

/-- What the cryptographic checks of an image find (R61): its public key hashes to the fused key of its slot, its signature verifies,
its body has the hash of its header. -/
structure ImageFacts where
  key : Bool
  sig : Bool
  hash : Bool
  deriving DecidableEq, Repr

/-- What the SECDED ECC of the words a slot reads found (R153). -/
inductive Ecc where
  | ok | corrected | double
  deriving DecidableEq, Repr

/-- The issue of one slot of an instruction word: its engine, whether the slot is the last of its word to be named (all slots
of one word issue in one cycle; log 4), the ECC outcome of the 64-bit words that the slot reads, how many more of them were
corrected, and whether the word also holds a reserved format or code (R178). -/
structure Issue where
  e : Fin 24
  last : Bool
  ecc : Ecc
  more : BitVec 3 := 0
  bad : Bool := false
  deriving DecidableEq, Repr

/-- The address fields of the memory slot (Table 5.6). -/
structure MemOp where
  an : BitVec 4
  mode : BitVec 3
  off : BitVec 5
  deriving DecidableEq, Repr

/-- One 64-byte ring entry (Table 3.19). -/
structure RingEntry where
  ctl : Byte
  fragLen : BitVec 16
  data : List Byte
  deriving DecidableEq, Repr

/-- Where a register write goes that has no row of its own (R11): the endpoint's BAR0 (Table 3.13), its MSI-X table in BAR2/3 and
MSI-X Enable (R109, R110, R117), or one of the two words of region register `k` of a Crossroads master (Table 15.3). -/
inductive RegSpace where
  | bar0
  | bar2
  /-- Message Control of the MSI-X capability: value bit 15 is MSI-X Enable (PCI Express, PRESUMED, log 36) -/
  | msixControl
  | region (m : Fin 42) (k : Fin 16) (hi : Bool)
  deriving DecidableEq, Repr

/-- Internal causes of a warm reset (Table 2.4). -/
inductive WarmCause where
  | tpWdog | clkFault | fwActivate | debugger
  deriving DecidableEq, Repr


/-- Memories of a loop engine (Table 5.1). -/
inductive EngMem where
  | plm | clmX | clmY | dlm
  deriving DecidableEq, Repr

/-- Pins a boundary-scan cell names: PWM pads, the Tollgate outputs whose cells are observe-only (R514), and any other. -/
inductive JPin where
  | pwm (p : Fin 64) (k : Fin 8)
  | gen (p : Fin 64)
  | brk (p : Fin 64)
  | so (o : Fin 16)
  | tpo (n : Fin 8)
  | other (n : BitVec 12)
  deriving DecidableEq, Repr

/-- What a debugger does through the JTAG port (Table 17.8). -/
inductive JtagOp where
  | bypass
  | idcode
  | sample (q : JPin)
  | readEngine (e : Fin 24) (m : EngMem) (a : BitVec 18) (n : BitVec 12)
  | writeEngine (e : Fin 24) (m : EngMem) (a : BitVec 18) (bs : List Byte)
  | stepEngine (e : Fin 24)
  | readXr (off : BitVec 26) (n : BitVec 12)
  | writeXr (off : BitVec 26) (bs : List Byte)
  | readCore (rc : Fin 4)
  | haltCore (rc : Fin 4)
  | stepCore (rc : Fin 4)
  | resumeCore (rc : Fin 4)
  | extest (pins : List (JPin × Bool))
  deriving DecidableEq, Repr

/-- A filtered input (R259): `FBA`, `FBB`, `FBZ` of a feedback unit, or a probe. -/
inductive FbIn where
  | fb (p : Fin 64) (k : Fin 3)
  | probe (n : Fin 32)
  deriving DecidableEq, Repr

/-- A device that answers a discovery (R438): serial, ring position, Jalut versions as a mask, lowest and highest protocol version,
junction state, member index, Byway version, mask of its own members, and whether an axis of it is enabled. -/
structure Found where
  serial : BitVec 64
  pos : BitVec 8
  jalut : BitVec 8
  lo : BitVec 8
  hi : BitVec 8
  state : BitVec 8
  index : BitVec 8
  byway : BitVec 32
  mask : BitVec 16
  enabled : Bool
  deriving DecidableEq, Repr

/-- A `NET` setpoint as it stands in a cyclic frame (Table 13.9); positions and velocities raw, limits FP32. -/
structure NetSp where
  axis : BitVec 16
  enable : Bool
  quick : Bool
  ack : Bool
  t : BitVec 64
  p : BitVec 64
  v : BitVec 64
  a : BitVec 64
  limPos : BitVec 32
  limNeg : BitVec 32
  deriving DecidableEq, Repr

/-- A `NET` report (Table 13.9). -/
structure NetRep where
  axis : BitVec 16
  ready : Bool
  enabled : Bool
  fault : Bool
  regen : Bool
  code : BitVec 16
  t : BitVec 64
  p : BitVec 64
  v : BitVec 64
  deriving DecidableEq, Repr

/-- A master image (Table 13.9). -/
structure MImg where
  axis : BitVec 16
  path : BitVec 32
  t : BitVec 64
  p : BitVec 64
  v : BitVec 64
  a : BitVec 64
  deriving DecidableEq, Repr

/-- A CAN frame (Tables 14.10, 14.12): format 1 Classical, 2 FD, 3 XL; identifier, `IDE`, remote frame, `BRS`, `ESI`, the XL fields,
data. -/
structure CanFrame where
  fmt : Fin 4
  id : BitVec 29
  ide : Bool
  rtr : Bool
  brs : Bool
  esi : Bool
  sdt : BitVec 8
  vcid : BitVec 8
  af : BitVec 32
  sec : Bool
  data : List Byte
  deriving DecidableEq, Repr

/-- An error a CAN controller detects, as ISO 11898-1 counts it: as a receiver; as a receiver with a dominant bit after its error
flag; as transmitter, in the data field or elsewhere; as transmitter in one of the cases that leave the counter. -/
inductive CanErr where
  | receive
  | receiveLong
  | transmit (data : Bool)
  | transmitFree
  deriving DecidableEq, Repr

/-- A discovery frame with the ring position it gives this device, or a discovery reply (R438). -/
inductive Discovery where
  | ask (pos : BitVec 8)
  | reply (f : Found)
  deriving DecidableEq, Repr

/-- What the analysis of a junction commit learns of the other devices (log 3). -/
structure JunctionFacts where
  /-- members that refused, with the first reason of each (R141) -/
  refused : List (Fin 15 × BitVec 16)
  /-- axes whose remote axis is not local there, or whose remote master is unbound or outside the commit, with the offending path
  (R444) -/
  chains : List (Fin 512 × BitVec 32)
  /-- master images that a member's downstream and upstream sections carry (R436, R444) -/
  images : List (Fin 15 × BitVec 16 × BitVec 16)
  /-- T_ring in ns of the ring in which this device is a member -/
  upRing : BitVec 32
  /-- `DV.JALUTCYCLE` of the draft's top leader in ns, at a member (R556) -/
  upCycle : BitVec 32
  deriving DecidableEq, Repr

/-- Where the loader placed a task in its engine's local memories (R142): entry point, DLM, CLM X and CLM Y base. -/
structure TaskAddr where
  entry : BitVec 16
  dlm : BitVec 32
  cx : BitVec 16
  cy : BitVec 16
  deriving DecidableEq, Repr

/-- One command of the block: one constructor for each row of the table of operations and events. -/
inductive Instr where
  /-- `POR_N_RISE` (R37): POR_N rising starts Tollgate and the sequencer, which asserts PSEQ0 and begins a cold boot. -/
  | porNRise
  /-- `POR_N_FALL` (R42): POR_N going low causes a cold reset and a power-down of the main domain. -/
  | porNFall
  /-- `TG_RAIL_OUT_OF_WINDOW` (R53): VDDTG or VDDTGIO leaving its window causes a cold reset and a power-down. -/
  | tgRailOutOfWindow
  /-- `PGOOD_RISE` (R40): PGOODn rising makes the sequencer check the stage's rails and start its 1 ms wait. Operands: the stage, whether its rails are in their windows. -/
  | pgoodRise (n : Fin 4) (railsOk : Bool)
  /-- `STAGE_SETTLE_EXPIRY` (R40): The 1 ms wait after a good stage ends, so the sequencer starts the next stage or releases the main domain from reset. -/
  | stageSettleExpiry
  /-- `PGOOD_TIMEOUT` (R41): PGOODn not high within 10 ms fails the stage; the sequencer powers down and schedules a retry, or stops after three failures and records MAIN_UV. -/
  | pgoodTimeout
  /-- `SEQ_RETRY_EXPIRY` (R41): 100 ms after a failure or a main-power reset the sequencer re-runs power-up. -/
  | seqRetryExpiry
  /-- `MAIN_RAIL_FAIL` (R43): A main-domain rail or LDO leaves its window; this asserts torque-off on every port and starts power-down and a main-power reset. Operands: the stage of the rail; for an LDO the stage of the rail that feeds it, `VDDA18` (log 84). -/
  | mainRailFail (stage : Fin 4)
  /-- `POWER_DOWN_STEP` (R42): Each 1 ms step of power-down deasserts the next PSEQ output in the order 3, 2, 1, 0. -/
  | powerDownStep
  /-- `RST_N_ASSERT` (R53): RST_N held low for at least 1 µs starts a warm reset. -/
  | rstNAssert
  /-- `WARM_RESET` (R53): An internal cause (watchdog, clock fault, FW_ACTIVATE or debugger request) resets the main-domain logic, zeroes Crossroads and asserts torque-off. Operands: the cause. -/
  | warmReset (c : WarmCause)
  /-- `WARM_RESET_RELEASE` (R67): RST_N rises or the internal cause ends, and the boot restarts at step 4. -/
  | warmResetRelease
  /-- `CLOCK_STOP_DECLARED` (R50): A monitored clock shows no edge for 100 ns; the monitor declares a fault, drives the safe path and causes a warm reset or a TGOSC fault. Operands: the clock: 0 to 4 `REFCLK`, `LECLK`, `FABCLK`, `PWMCLK`, `PERCLK`, 5 `TGOSC` (Table 2.3). -/
  | clockStopDeclared (n : Fin 6)
  /-- `CLOCK_COUNT_WINDOW` (R49): At the end of each 10 µs count window the monitor judges each clock as in its window or faulted. Operands: the counts of the window: `REFCLK`, `LECLK`, `FABCLK`, `PWMCLK`, `PERCLK` against `TGOSC`, and `TGOSC` against `PERCLK` (Table 2.3). -/
  | clockCountWindow (counts : Vector (BitVec 16) 6)
  /-- `PLL_LOCK` (R48): The root PLL locks; the main domain leaves reset and Turnpike switches to PERCLK. -/
  | pllLock
  /-- `PLL_LOCK_LOST` (R50): Loss of PLL lock is declared as a clock fault. -/
  | pllLockLost
  /-- `TP_WDOG` (R56): The Turnpike watchdog expires after 100 ms without service and causes a warm reset. -/
  | tpWdog
  /-- `BOOT_IMAGE_LOADED` (R63): Turnpike finishes reading and verifying a slot image; it accepts the image, fails over to the other slot, or enters recovery. Operands: whether the image is Byway's, its bytes from the header on where the device has not written the slot itself, what the cryptographic checks find. -/
  | bootImageLoaded (byway : Bool) (img : List Byte) (f : ImageFacts)
  /-- `TG_SELFTEST_DONE` (R378): Tollgate finishes its start-up diagnostics with all outputs low and waits for a configuration, or enters SAFE_HALT. Operands: whether every diagnostic passed. -/
  | tgSelftestDone (ok : Bool)
  /-- `HELLO_READY` (R67): The device reaches HELLO-ready, sets DEVSTAT.READY and starts accepting HELLO. -/
  | helloReady
  /-- `ROUTE_CORE_WDOG_EXPIRY` (R73): A route-core watchdog is not serviced within 5 ms, which counts as a Byway crash. Operands: the route core. -/
  | routeCoreWdogExpiry (rc : Fin 4)
  /-- `ROUTE_CORE_TRAP` (R73): A route core traps, which counts as a Byway crash. Operands: the route core, whether a region violation. -/
  | routeCoreTrap (rc : Fin 4) (region : Bool)
  /-- `BYWAY_RESTART` (R75): The restart completes: Byway is checked, its data is reinitialised, and the cores restart and re-attach to the running configuration. -/
  | bywayRestart
  /-- `QCFG_EN_SET` (R112): Setting QCFG.EN samples the bases and sizes, zeroes the heads and tails, and starts the queue, or sets CFG_ERR. Operands: queue pair, the value written. -/
  | qcfgEnSet (q : Fin 16) (v : BitVec 32)
  /-- `QCFG_EN_CLEAR` (R113): Clearing QCFG.EN stops fetching, discards what the queue is owed and clears ACTIVE within 100 µs. Operands: queue pair, the value written. -/
  | qcfgEnClear (q : Fin 16) (v : BitVec 32)
  /-- `SQ_DOORBELL` (R114): A write of SQ_DB.TAIL lets the device fetch whole packets from the SQ, or sets FRAME_ERR. Operands: queue pair, `TAIL`, the entries the host has put into the ring up to it, whether their fetch fails. -/
  | sqDoorbell (q : Fin 16) (tail : BitVec 16) (entries : List RingEntry) (dma : Bool)
  /-- `CQ_DOORBELL` (R115): A write of CQ_DB.HEAD frees CQ entries, so held replies can be written and a stalled fetch resumes. Operands: queue pair, `HEAD`. -/
  | cqDoorbell (q : Fin 16) (head : BitVec 16)
  /-- `HELD_PACKET_WRITE` (R112): The device writes a reply or event into the CQ once there is room: the data first, then the PHASE byte. Operands: queue pair. -/
  | heldPacketWrite (q : Fin 16)
  /-- `COAL_TIME_EXPIRY` (R117): The coalescing time expires after the first unsignalled packet, which sets INTSTAT.CQn and sends the vector. Operands: queue pair. -/
  | coalTimeExpiry (q : Fin 16)
  /-- `TSCTL_TRIG` (R119): A write of TRIG latches the time counter, sets DONE, increments SEQ and sets INTSTAT.TSNAP. -/
  | tsctlTrig
  /-- `TL_NS_READ` (R119): A read of TL_NS latches the live counter so that the seconds and fraction registers show the same instant. -/
  | tlNsRead
  /-- `PCIE_LINK_RESET` (R118): A Function Level Reset, hot reset or link down ends the PCIe session, disables every queue and clears INTSTAT and INTMASK. Operands: whether the link is up afterwards. -/
  | pcieLinkReset (up : Bool)
  /-- `REGISTER_WRITE` (R11): A write to a register that has no row of its own acts according to its access code. Operands: register space, offset, value. -/
  | registerWrite (sp : RegSpace) (off : BitVec 16) (size : BitVec 4) (v : BitVec 32)
  /-- `QSPI_WRITE` (R122): A QSPI WRITE transaction delivers one packet to the checks, or is discarded with DROP set. Operands: the bytes of the packet. -/
  | qspiWrite (b : List Byte)
  /-- `QSPI_READ` (R123): A QSPI READ sends the next outgoing packet and removes it only if at least TXLEN bytes are clocked. Operands: bytes clocked. -/
  | qspiRead (n : BitVec 16)
  /-- `QSPI_READ_AGAIN` (R121): A QSPI READ_AGAIN resends the last packet that READ removed. Operands: bytes clocked. -/
  | qspiReadAgain (n : BitVec 16)
  /-- `QSPI_STATUS` (R121): A QSPI STATUS returns the status word and its CRC, and the read clears DROP. -/
  | qspiStatus
  /-- `QSPI_UNKNOWN_COMMAND` (R122): An unknown command byte is discarded and DROP is set. -/
  | qspiUnknownCommand (c : BitVec 8)
  /-- `PACKET_FORWARD` (R33): A packet with a non-zero path passes checks 1–8 and is forwarded over Jalut to the member named by the lowest nibble, or refused. Operands: the packet, past checks 1 to 7 of Table 3.3. -/
  | packetForward (p : Packet)
  /-- `REPLY_RELAY` (R35): A reply or event from a member is relayed towards the host, with the member index shifted back into its path. Operands: member index less 1, its reply or event. -/
  | replyRelay (m : Fin 15) (p : Packet)
  /-- `GROUP_END` (R90): The packet with GROUP_END makes the device check every held packet, then run the group or queue it. Operands: the packet that carries `GROUP_END`. -/
  | groupEnd (p : Packet)
  /-- `GROUP_TIMEOUT` (R91): No GROUP_END within 10 ms aborts the open group with detail 0x0002. Operands: transport or queue. -/
  | groupTimeout (src : Src)
  /-- `TIMED_TAG_DUE` (R96): A queued timed command or group falls due; it runs step 12 and acts at the instants of R92. -/
  | timedTagDue
  /-- `SESSION_TIMEOUT` (R105): A session timeout expires, which ends the session and may raise SESSION_LOST. Operands: transport or queue. -/
  | sessionTimeout (src : Src)
  /-- `HELLO` (R101): Negotiates the version, role and features and opens a session, ending any session on that transport. -/
  | hello (p : Packet)
  /-- `BYE` (R104): Always replies OK and ends the session. -/
  | bye (p : Packet)
  /-- `PING` (R105): Echoes its payload with the line time of decoding and keeps the session alive. -/
  | ping (p : Packet)
  /-- `DEVINFO` (R83): Returns the device identity and versions, with or without a session. -/
  | devinfo (p : Packet)
  /-- `PARAM_GET` (R126): Reads up to 64 parameters, all or none. -/
  | paramGet (p : Packet)
  /-- `PARAM_SET` (R127): Checks and writes up to 64 live parameters in list order, all or none. -/
  | paramSet (p : Packet)
  /-- `TABLE_LOAD` (R301): Loads one chunk of a friction, cogging, group or cam table; the completing chunk starts activation. -/
  | tableLoad (p : Packet)
  /-- `TABLE_ACTIVATE` (R301): A fully loaded table becomes active between two releases of the task that uses it, and DONE is sent. -/
  | tableActivate
  /-- `CFG_BEGIN` (R131): Opens a draft for this device and the devices below it. -/
  | cfgBegin (p : Packet)
  /-- `CFG_SET` (R132): Writes parameter records into the open draft. -/
  | cfgSet (p : Packet)
  /-- `CFG_GET` (R132): Reads parameters from the draft or from the committed configuration. -/
  | cfgGet (p : Packet)
  /-- `CFG_COMMIT` (R142): Starts admission analysis of the draft, which may be a check only, and takes the states that decide pinning. -/
  | cfgCommit (p : Packet)
  /-- `COMMIT_ANALYSIS_COMPLETE` (R139): Admission ends, with a refusal list, a check-only DONE, or the start of loading. Operands: what the other devices of the commit have reported. -/
  | commitAnalysisComplete (j : JunctionFacts)
  /-- `COMMIT_LOADING_COMPLETE` (R142): Loading of tasks that are not pinned finishes, which fixes the switch instant S. Operands: where the loader placed the tasks that are not pinned, in placement order. -/
  | commitLoadingComplete (places : List TaskAddr)
  /-- `MEMBER_UNREACHABLE` (R141): A member does not report within 1 s during a junction commit. Operands: member index − 1. -/
  | memberUnreachable (m : Fin 15)
  /-- `GO_SIGNAL` (R143): A member receives the leader's go signal for the commit. Operands: the switch instant S, or none when the leader ends the commit without it. -/
  | goSignal (go : Option (BitVec 64))
  /-- `SWITCH_OVER` (R143): At S every engine changes its dispatch table, CFGGEN increments, and changed axes enter DISABLED. Operands: axes that committed NET axes of other devices name; axes whose master image this device publishes, with its path. -/
  | switchOver (owned : List (Fin 512)) (publish : List (Fin 512 × BitVec 32))
  /-- `CFGGEN_COMPARE` (R143): 10 ms after S the leader compares the members' CFGGEN and completes the commit with DONE or ABORTED SPLIT. Operands: members whose DV.CFGGEN differs, bit m for member m + 1. -/
  | cfggenCompare (differ : BitVec 15)
  /-- `CFG_ABORT` (R134): Discards the draft and cancels a commit still in analysis. -/
  | cfgAbort (p : Packet)
  /-- `CFG_EXPLAIN` (R141): Returns refusal, placement or engine-summary entries. -/
  | cfgExplain (p : Packet)
  /-- `AXIS_ENABLE` (R32): Starts energising of a READY axis, waits for prerequisites, or is refused. -/
  | axisEnable (p : Packet)
  /-- `ENABLE_WAIT_TIMEOUT` (R32): The timeout_ms of a waiting AXIS_ENABLE expires, and it completes with TIMEOUT. Operands: axis. -/
  | enableWaitTimeout (j : Fin 512)
  /-- `AXIS_DISABLE` (R32): Disables an axis through a controlled stop, a quick stop or an immediate switch-off. -/
  | axisDisable (p : Packet)
  /-- `MOVE_ABS` (R316): Starts a positioning move to an absolute target. -/
  | moveAbs (p : Packet)
  /-- `MOVE_REL` (R321): Starts a positioning move by a distance. -/
  | moveRel (p : Packet)
  /-- `MOVE_VEL` (R319): Ramps to and holds a target velocity, or follows a step/direction source with FOLLOW. -/
  | moveVel (p : Packet)
  /-- `STOP` (R320): Starts a controlled or quick stop. -/
  | stop (p : Packet)
  /-- `HOME` (R341): Starts the homing sequencer with the chosen method. -/
  | home (p : Packet)
  /-- `PATH_APPEND` (R363): Begins a path or queues segments for a path group. -/
  | pathAppend (p : Packet)
  /-- `GEAR_ENGAGE` (R354): Engages electronic gearing in ramp, distance or offset mode. -/
  | gearEngage (p : Packet)
  /-- `GEAR_RELEASE` (R358): Releases gearing or a cam by a stop, by continuing, or by a ratio ramp to zero. -/
  | gearRelease (p : Packet)
  /-- `CAM_ENGAGE` (R361): Engages a cam, or shifts its phase or offset. -/
  | camEngage (p : Packet)
  /-- `PORT_FORCE` (R239): Forces the legs of a port, acting at the next commit point. -/
  | portForce (p : Packet)
  /-- `FORCE_TIMEOUT` (R239): A force's timeout_ms expires, and every leg returns to code 0. Operands: port. -/
  | forceTimeout (p : Fin 64)
  /-- `PORT_TRIP_CLEAR` (R243): Clears a LATCHED port when no cause remains, or replies CLEAR_REFUSED. -/
  | portTripClear (p : Packet)
  /-- `PORT_STATUS` (R243): Returns the trip, force, duty and bus status of a port. -/
  | portStatus (p : Packet)
  /-- `LATCH_ARM` (R370): Arms or disarms a latch on a probe or index source. -/
  | latchArm (p : Packet)
  /-- `LATCH_READ` (R372): Returns and removes the milestones of a latch. -/
  | latchRead (p : Packet)
  /-- `COMPARE_SET` (R373): Arms a compare channel. -/
  | compareSet (p : Packet)
  /-- `COMPARE_CLEAR` (R377): Disarms compare channels, and can drive the output inactive at once. -/
  | compareClear (p : Packet)
  /-- `TRACE_SETUP` (R498): Writes Waymark settings, channel descriptors or masks. -/
  | traceSetup (p : Packet)
  /-- `TRACE_START` (R493): Empties the buffer and starts recording at the effect instant. -/
  | traceStart (p : Packet)
  /-- `TRACE_STOP` (R493): Stops the run after a 1 ms wait, or triggers at once in mode 1. -/
  | traceStop (p : Packet)
  /-- `TRACE_STOP_WAIT_END` (R493): The 1 ms wait after a stop ends, and Waymark writes STOP. -/
  | traceStopWaitEnd
  /-- `TRACE_READ` (R499): Returns Waymark records, removing them in STREAM mode. -/
  | traceRead (p : Packet)
  /-- `TIME_GET` (R424): Returns the line time and the servo and grandmaster status. -/
  | timeGet (p : Packet)
  /-- `TIME_STEP` (R428): Steps line time relatively, absolutely, or by adopting the grandmaster. -/
  | timeStep (p : Packet)
  /-- `NET_STATUS` (R437): Returns the status and counters of an Ethernet port. -/
  | netStatus (p : Packet)
  /-- `CAN_TX_QUEUE` (R465): Queues a CAN frame in the event queue or writes a schedule slot. -/
  | canTxQueue (p : Packet)
  /-- `CAN_RX_ACK` (R464): Releases acknowledged receive entries and returns the oldest owned entries. -/
  | canRxAck (p : Packet)
  /-- `JUNCTION_FORM` (R438): Discovers, forms or dissolves a junction. -/
  | junctionForm (p : Packet)
  /-- `DISCOVER_REPLY_TIMER` (R438): 100 ms after a DISCOVER the leader replies with the devices it found. -/
  | discoverReplyTimer
  /-- `FORM_TIMEOUT` (R438): A named device has not reached MEMBER within 2 s, and FORM completes with TIMEOUT. -/
  | formTimeout
  /-- `SAFE_STATUS` (R410): Returns Tollgate's state, port states and I/O status. -/
  | safeStatus (p : Packet)
  /-- `SAFE_CFG_LOAD` (R408): Loads one chunk of a Tollgate configuration image. -/
  | safeCfgLoad (p : Packet)
  /-- `SAFE_CFG_CHECK_COMPLETE` (R408): Tollgate finishes checking a loaded image; it becomes pending, or the load completes DENIED. -/
  | safeCfgCheckComplete
  /-- `SAFE_CFG_CONFIRM` (R409): Enters CONFIRMING and waits for a reset press to seal the pending image. -/
  | safeCfgConfirm (p : Packet)
  /-- `CONFIRM_TIMEOUT` (R409): No valid press within timeout_s; the confirmation completes with TIMEOUT. -/
  | confirmTimeout
  /-- `SEALED_IMAGE_WRITE_COMPLETE` (R409): Turnpike finishes writing the sealed image to flash; Tollgate switches to it, or the confirmation is ABORTED. Operands: whether the flash write succeeded. -/
  | sealedImageWriteComplete (ok : Bool)
  /-- `BRAKE_TEST` (R404): Starts a brake test of the axis's port. -/
  | brakeTest (p : Packet)
  /-- `BRAKE_TEST_STEP` (R404): A timed step of the brake test elapses: the brake is confirmed, current is applied, or the direction ends. Operands: port, FP32 mean |i_q| that Byway reports. -/
  | brakeTestStep (p : Fin 64) (mean : BitVec 32)
  /-- `FAULT_READ` (R507): Returns records from the Crossroads log, the persistent log or the active table. -/
  | faultRead (p : Packet)
  /-- `FAULT_ACK` (R128): Clears the named faults whose cause has gone. -/
  | faultAck (p : Packet)
  /-- `RETIRE_STATUS` (R513): Returns the retirement and upset status. -/
  | retireStatus (p : Packet)
  /-- `FW_BEGIN` (R68): Opens a firmware update and starts erasing the free slot. -/
  | fwBegin (p : Packet)
  /-- `SLOT_ERASE_COMPLETE` (R68): The target slot is erased, and FW_BEGIN completes with DONE. -/
  | slotEraseComplete
  /-- `FW_DATA` (R68): Buffers image data in the staging buffer. -/
  | fwData (p : Packet)
  /-- `FW_END` (R69): Closes the update and starts programming and checking the slot. -/
  | fwEnd (p : Packet)
  /-- `SLOT_PROGRAM_COMPLETE` (R69): Programming and the R61 checks finish, and FW_END completes. Operands: what the cryptographic checks of the Turnpike and of the Byway image find. -/
  | slotProgramComplete (tp bw : ImageFacts)
  /-- `FW_ACTIVATE` (R70): Trials, confirms or reverts a slot. -/
  | fwActivate (p : Packet)
  /-- `ROLLBACK_FUSE_COMPLETE` (R72): CONFIRM finishes writing active and blowing the rollback bits, and completes with DONE. -/
  | rollbackFuseComplete
  /-- `LEP_LOAD` (R180): Loads one chunk of a loop-engine program image. -/
  | lepLoad (p : Packet)
  /-- `IMAGE_VERIFY_COMPLETE` (R180): Verification of a loaded program image finishes, with DONE or DENIED. Operands: words of the image that access a Crossroads window (log 15). -/
  | imageVerifyComplete (win : List Nat)
  /-- `LEP_INFO` (R135): Returns a program's footprint and worst-case figures. -/
  | lepInfo (p : Packet)
  /-- `DBG_UNLOCK` (R515): Runs the challenge, signature and relock steps of a debug unlock. -/
  | dbgUnlock (p : Packet)
  /-- `TMUX_SELECT` (R517): Routes an internal signal to a TMUX pin. -/
  | tmuxSelect (p : Packet)
  /-- `OFFSET_CAL_COMPLETE` (R190): The 1,024 calibration samples are averaged; the offsets are stored or CUR_OFFSET is raised. Operands: axis. -/
  | offsetCalComplete (j : Fin 512)
  /-- `BOOTSTRAP_PRECHARGE_END` (R233): The bootstrap precharge time ends, and INIT starts. Operands: axis. -/
  | bootstrapPrechargeEnd (j : Fin 512)
  /-- `ALIGN_STEP_END` (R197): An alignment step ends; step 2 follows, or θ_w is set and the checks run. Operands: axis. -/
  | alignStepEnd (j : Fin 512)
  /-- `STEP_INIT_END` (R326): A stepper's 100 ms INIT ends, and θ_w is set. Operands: axis. -/
  | stepInitEnd (j : Fin 512)
  /-- `CATCH_WINDOW_END` (R335): The catch window ends; the line fit is judged and the command proceeds or completes SPINNING. Operands: axis. -/
  | catchWindowEnd (j : Fin 512)
  /-- `STANDSTILL_REACHED` (R303): The standstill condition has held for AX.STANDTIME, which ends stops and homing. Operands: axis. -/
  | standstillReached (j : Fin 512)
  /-- `CURRENT_LOOP_RELEASE` (R203): A release of program 0x0001 runs the observer, the law, modulation and supervision, and writes the duties. Operands: axis. -/
  | currentLoopRelease (j : Fin 512)
  /-- `STEPPER_CURRENT_RELEASE` (R326): A release of program 0x0002 sets the winding references and chopper thresholds and runs the load and stall checks. Operands: axis. -/
  | stepperCurrentRelease (j : Fin 512)
  /-- `POSITION_LOOP_RELEASE` (R285): A release of program 0x0003 updates the observer, runs the law, publishes the current mailbox, and Byway supervises the axis. Operands: axis. -/
  | positionLoopRelease (j : Fin 512)
  /-- `GROUP_TASK_RELEASE` (R295): A group position task computes the matrix law for all its members. Operands: axis. -/
  | groupTaskRelease (j : Fin 512)
  /-- `SETPOINT_RELEASE` (R311): The setpoint task evaluates the profile, gearing, cam, path, homing or following source and publishes the setpoint. Operands: axis. -/
  | setpointRelease (j : Fin 512)
  /-- `COEFFICIENT_SWITCH` (R206): Byway installs a recomputed coefficient set between two releases. Operands: axis. -/
  | coefficientSwitch (j : Fin 512)
  /-- `LOSS_OF_SYNC` (R216): A loss-of-synchronism condition has held for AX.LOSTIME, and the fault is raised. Operands: axis. -/
  | lossOfSync (j : Fin 512)
  /-- `SD_FAULT` (R189): A sigma-delta channel has sat at 0 or N³ for AX.SDFLTCNT samples. Operands: axis. -/
  | sdFault (j : Fin 512)
  /-- `WINDING_OPEN` (R333): The open-winding condition has held for 10 releases. Operands: axis. -/
  | windingOpen (j : Fin 512)
  /-- `STALL_TIMER` (R338): A stall condition has held for AX.STALLTIME; STALL is raised, or a stall-homing phase ends. Operands: axis. -/
  | stallTimer (j : Fin 512)
  /-- `TASK_TRIGGER` (R165): A release trigger reaches an engine; the task is dispatched, preempts, waits, or counts an overrun. Operands: engine, rank of the task. -/
  | taskTrigger (e : Fin 24) (rank : Fin 32)
  /-- `DEADLINE_OVERRUN` (R169): A release reaches its deadline without END and is abandoned as a trap. Operands: engine, rank, whether a retry caused it. -/
  | deadlineOverrun (e : Fin 24) (rank : Fin 32) (consequential : Bool)
  /-- `MIGRATION_COMPLETE` (R146): The failed engine's tasks are copied to the hard shoulder and their triggers rebound; RETIRE_EVENT is sent. Operands: the failed engine. -/
  | migrationComplete (e : Fin 24)
  /-- `HAUL_TRANSFER_COMPLETE` (R173): A queued haul transfer finishes, which sets DONE and clears BUSY. Operands: engine, words that met an engine write, ECC errors of local words read (word, uncorrectable), cycles waited. -/
  | haulTransferComplete (e : Fin 24) (coll : List Nat) (ecc : List (Nat × Bool)) (c : BitVec 16)
  /-- `WINDOW_LOAD_RETURN` (R172): The data of a window load returns and the engine resumes. Operands: engine, LECLK cycles passed. -/
  | windowLoadReturn (e : Fin 24) (c : Fin 64)
  /-- `WINDOW_STORE_DRAIN` (R172): A buffered window store reaches Crossroads, which frees the buffer and can end a SYNC stall. Operands: engine, LECLK cycles passed. -/
  | windowStoreDrain (e : Fin 24) (c : Fin 64)
  /-- `ENGINE_DEBUG_HALT` (R245): A debugger halts an engine; its ports act under PT.HALTMODE. Operands: engine. -/
  | engineDebugHalt (e : Fin 24)
  /-- `ENGINE_DEBUG_RESUME` (R245): A halted engine resumes dispatch. Operands: engine. -/
  | engineDebugResume (e : Fin 24)
  /-- `NOP` (R170): Does nothing for one cycle. -/
  | nop (w : Issue)
  /-- `VADD` (R149): Saturating Q31 add per lane. -/
  | vadd (w : Issue) (fd fa fb : BitVec 5)
  /-- `VSUB` (R149): Saturating Q31 subtract per lane. -/
  | vsub (w : Issue) (fd fa fb : BitVec 5)
  /-- `VMUL` (R149): Rounded, saturating Q31 multiply per lane. -/
  | vmul (w : Issue) (fd fa fb : BitVec 5)
  /-- `VNEG` (R149): Saturating Q31 negate per lane. -/
  | vneg (w : Issue) (fd fa : BitVec 5)
  /-- `VABS` (R149): Saturating Q31 absolute value per lane. -/
  | vabs (w : Issue) (fd fa : BitVec 5)
  /-- `VMIN` (R149): Q31 minimum per lane. -/
  | vmin (w : Issue) (fd fa fb : BitVec 5)
  /-- `VMAX` (R149): Q31 maximum per lane. -/
  | vmax (w : Issue) (fd fa fb : BitVec 5)
  /-- `VSHL` (R149): Saturating left shift per lane. -/
  | vshl (w : Issue) (fd fa fx : BitVec 5)
  /-- `VSHR` (R149): Arithmetic right shift per lane. -/
  | vshr (w : Issue) (fd fa fx : BitVec 5)
  /-- `VAND` (R149): Bitwise AND. -/
  | vand (w : Issue) (fd fa fb : BitVec 5)
  /-- `VOR` (R149): Bitwise OR. -/
  | vor (w : Issue) (fd fa fb : BitVec 5)
  /-- `VXOR` (R149): Bitwise XOR. -/
  | vxor (w : Issue) (fd fa fb : BitVec 5)
  /-- `VCMP` (R149): Q31 compare per lane into the lane flags. -/
  | vcmp (w : Issue) (fa fb : BitVec 5) (cc : BitVec 2)
  /-- `VSEL` (R149): Selects each lane by its flag. -/
  | vsel (w : Issue) (fd fa fb : BitVec 5)
  /-- `VSINCOS` (R149): Computes the sine and cosine of a u32 angle. -/
  | vsincos (w : Issue) (fd fa : BitVec 5)
  /-- `MAC` (R149): Multiply-accumulates lane by lane into an accumulator. -/
  | mac (w : Issue) (n : BitVec 3) (fa fb : BitVec 5)
  /-- `MACB` (R149): Multiply-accumulates with a broadcast lane. -/
  | macb (w : Issue) (n : BitVec 3) (fa fb : BitVec 5) (ln : BitVec 2)
  /-- `MACX` (R158): Multiply-accumulates from the CX stream with a broadcast lane. -/
  | macx (w : Issue) (n : BitVec 3) (fb : BitVec 5) (ln : BitVec 2)
  /-- `MACY` (R158): Multiply-accumulates from the CY stream with a broadcast lane. -/
  | macy (w : Issue) (n : BitVec 3) (fb : BitVec 5) (ln : BitVec 2)
  /-- `MSUB` (R149): Multiply-subtracts from an accumulator. -/
  | msub (w : Issue) (n : BitVec 3) (fa fb : BitVec 5)
  /-- `ACLR` (R149): Clears an accumulator. -/
  | aclr (w : Issue) (n : BitVec 3)
  /-- `ACCRD` (R149): Rounds, shifts and saturates an accumulator into a register. -/
  | accrd (w : Issue) (fd : BitVec 5) (n : BitVec 3) (sh : BitVec 3)
  /-- `FADD` (R150): FP32 add. -/
  | fadd (w : Issue) (fd fa fb : BitVec 5)
  /-- `FSUB` (R150): FP32 subtract. -/
  | fsub (w : Issue) (fd fa fb : BitVec 5)
  /-- `FMUL` (R150): FP32 multiply. -/
  | fmul (w : Issue) (fd fa fb : BitVec 5)
  /-- `FMA` (R150): FP32 fused multiply-add into the destination. -/
  | fma (w : Issue) (fd fa fb : BitVec 5)
  /-- `FMACX` (R158): FP32 fused multiply-add from the CX stream. -/
  | fmacx (w : Issue) (fd fb : BitVec 5) (ln : BitVec 2)
  /-- `FMACY` (R158): FP32 fused multiply-add from the CY stream. -/
  | fmacy (w : Issue) (fd fb : BitVec 5) (ln : BitVec 2)
  /-- `FMIN` (R150): FP32 minimum. -/
  | fmin (w : Issue) (fd fa fb : BitVec 5)
  /-- `FMAX` (R150): FP32 maximum. -/
  | fmax (w : Issue) (fd fa fb : BitVec 5)
  /-- `FABS` (R150): FP32 absolute value. -/
  | fabs (w : Issue) (fd fa : BitVec 5)
  /-- `FNEG` (R150): FP32 negate. -/
  | fneg (w : Issue) (fd fa : BitVec 5)
  /-- `FCMP` (R150): FP32 compare into the lane flags. -/
  | fcmp (w : Issue) (fa fb : BitVec 5) (cc : BitVec 2)
  /-- `FCVT_QF` (R150): Converts Q31 to FP32 with scaling. -/
  | fcvtQf (w : Issue) (fd fa fx : BitVec 5)
  /-- `FCVT_FQ` (R150): Converts FP32 to saturated Q31. -/
  | fcvtFq (w : Issue) (fd fa fx : BitVec 5)
  /-- `FRCP` (R150): FP32 reciprocal. -/
  | frcp (w : Issue) (fd fa : BitVec 5)
  /-- `FRSQ` (R150): FP32 reciprocal square root. -/
  | frsq (w : Issue) (fd fa : BitVec 5)
  /-- `PAIR` (R158): Q31 MAC from CX together with FP32 FMA from CY in one cycle. -/
  | pair (w : Issue) (n : BitVec 3) (fd fa fb : BitVec 5) (ln : BitVec 2)
  /-- `VMOV` (R149): Copies a vector register. -/
  | vmov (w : Issue) (fd fa : BitVec 5)
  /-- `VBCAST` (R149): Broadcasts one lane to all lanes. -/
  | vbcast (w : Issue) (fd fa : BitVec 5) (ln : BitVec 2)
  /-- `VPERM` (R149): Permutes lanes by a lane code. -/
  | vperm (w : Issue) (fd fa fx : BitVec 5)
  /-- `AMOV` (R149): Moves a lane into an address register. -/
  | amov (w : Issue) (ad : BitVec 4) (fa : BitVec 5) (ln : BitVec 2)
  /-- `VLANE` (R149): Moves an address register into a lane. -/
  | vlane (w : Issue) (fd : BitVec 5) (ln : BitVec 2) (aa : BitVec 4)
  /-- `AADDI` (R149): Adds an immediate to an address register. -/
  | aaddi (w : Issue) (ad aa : BitVec 4) (imm : BitVec 10)
  /-- `LD_V` (R160): Loads 16 bytes into a vector register. -/
  | ldV (w : Issue) (r : BitVec 5) (m : MemOp)
  /-- `LD_A` (R160): Loads 4 bytes into an address register. -/
  | ldA (w : Issue) (r : BitVec 4) (m : MemOp)
  /-- `LD_L` (R160): Loads 4 bytes into one lane. -/
  | ldL (w : Issue) (r : BitVec 5) (k : BitVec 2) (m : MemOp)
  /-- `ST_V` (R156): Stores 16 bytes from a vector register. -/
  | stV (w : Issue) (r : BitVec 5) (m : MemOp)
  /-- `ST_A` (R156): Stores an address register. -/
  | stA (w : Issue) (r : BitVec 4) (m : MemOp)
  /-- `ST_L` (R156): Stores one lane. -/
  | stL (w : Issue) (r : BitVec 5) (k : BitVec 2) (m : MemOp)
  /-- `LD_D` (R160): Loads two vector registers from DLM through two pointers. -/
  | ldD (w : Issue) (r : BitVec 5) (m : MemOp)
  /-- `LS_D` (R160): Loads one vector register and stores another in DLM. -/
  | lsD (w : Issue) (r : BitVec 5) (m : MemOp)
  /-- `RPT` (R161): Repeats the next word a fixed number of times. -/
  | rpt (w : Issue) (arg : BitVec 8)
  /-- `RPT_REG` (R161): Repeats the next word a register count, clamped to its bound. -/
  | rptReg (w : Issue) (an : BitVec 4) (bound : BitVec 16)
  /-- `HSTART` (R173): Queues a haul transfer on a channel, or sets an error. -/
  | hstart (w : Issue) (c : BitVec 2)
  /-- `HWAIT` (R166): Stalls until a haul channel is not BUSY. -/
  | hwait (w : Issue) (c : BitVec 2)
  /-- `SYNC` (R172): Stalls until the window write buffer is empty. -/
  | sync (w : Issue)
  /-- `END` (R176): Ends the release and queues its checkpoint. -/
  | endRelease (w : Issue)
  /-- `BR` (R159): Conditional branch with two delay slots. -/
  | br (w : Issue) (cond an : BitVec 4) (imm : BitVec 24)
  /-- `CALL` (R159): Conditional call that pushes the return address. -/
  | call (w : Issue) (cond an : BitVec 4) (imm : BitVec 24)
  /-- `RET` (R159): Conditional return. -/
  | ret (w : Issue) (cond an : BitVec 4)
  /-- `LOOP` (R162): Hardware loop over a fixed count. -/
  | loop (w : Issue) (imm : BitVec 24)
  /-- `LOOP_REG` (R162): Hardware loop over a register count, clamped to its bound. -/
  | loopReg (w : Issue) (an : BitVec 4) (imm : BitVec 24) (bound : BitVec 16)
  /-- `LDI_A` (R170): Loads an immediate into an address register. -/
  | ldiA (w : Issue) (d : BitVec 4) (imm : BitVec 32)
  /-- `LDI_L` (R170): Loads an immediate into one lane. -/
  | ldiL (w : Issue) (d : BitVec 5) (ln : BitVec 2) (imm : BitVec 32)
  /-- `CARRIER_PERIOD_START` (R222): A port's period start applies dead-time changes, bootstrap refresh, calibration tables and CBC transitions. Operands: port, comparators active, whether `DRVFLT_N` is low. -/
  | carrierPeriodStart (p : Fin 64) (comps : BitVec 4) (drv : Bool)
  /-- `SETUP_INSTANT` (R225): 40 ns before a commit point the port captures the shadow if the arming word was stored. Operands: port. -/
  | setupInstant (p : Fin 64)
  /-- `COMMIT_POINT` (R226): At a carrier extremum the port applies the captured set and records the applied-stamp. Operands: port, whether the extremum is a peak. -/
  | commitPoint (p : Fin 64) (peak : Bool)
  /-- `PORT_SLOT_STORE_COMPLETE` (R154): A store to a port slot completes; a store to the arming word increments ARMSEQ. Operands: engine. -/
  | portSlotStoreComplete (e : Fin 24)
  /-- `SAMPLE_EVENT` (R187): d_dec after an extremum the port writes the sample record and raises the sample event. Operands: port, the windows of `SD0` to `SD3`: bits 2j and 2j + 1 are the levels at the rising and at the falling `SDC` edge of the j-th bit period, oldest first. -/
  | sampleEvent (p : Fin 64) (w0 w1 w2 w3 : BitVec 192)
  /-- `FEEDBACK_SAMPLE` (R270): After an extremum the feedback unit forms the position and velocity, completes milestones and evaluates compares. Operands: port, whether one of its inputs has had a rejected transition since the previous record. -/
  | feedbackSample (p : Fin 64) (rejected : Bool)
  /-- `COMPARATOR_TRIP` (R241): A sense comparator crosses outside blanking and trips the port into CBC or LATCHED. Operands: port, comparators active. -/
  | comparatorTrip (p : Fin 64) (comps : BitVec 4)
  /-- `BLANKING_END` (R240): Blanking ends while a comparator is active, which trips the port. Operands: port, comparators active. -/
  | blankingEnd (p : Fin 64) (comps : BitVec 4)
  /-- `DRVFLT_N_LOW` (R242): DRVFLT_N low for 8 samples latches the trip and raises DRV_FAULT or BOOT_UV. Operands: port. -/
  | drvfltNLow (p : Fin 64)
  /-- `DELAY_LINE_CALIBRATION` (R234): Every 256 ticks the calibrator rebuilds the tap table, or falls back to whole ticks. Operands: port, the measured delays of the 64 replica taps in units of 0.125 ps. -/
  | delayLineCalibration (p : Fin 64) (taps : List (BitVec 16))
  /-- `PORT_UPSET` (R511): A parity or check-counter error on a port or feedback unit turns the outputs off and reloads the registers. Operands: port, whether its feedback unit. -/
  | portUpset (p : Fin 64) (feedback : Bool)
  /-- `CHOPPER_THRESHOLD_CROSS` (R329): The fast-filter current crosses a threshold, changing the winding's chopper state. Operands: port, winding, window of the fast filter (levels of the data line at the two `SDC` edges of each period). -/
  | chopperThresholdCross (p : Fin 64) (w : Fin 2) (win : BitVec 96)
  /-- `CHOPPER_OFF_TIME_EXPIRY` (R329): The chopper off-time or the fast-decay part ends. Operands: port, winding, whether the fast part of mixed decay ends, window of the fast filter. -/
  | chopperOffTimeExpiry (p : Fin 64) (w : Fin 2) (fastPart : Bool) (win : BitVec 96)
  /-- `BUS_DECIMATED_VALUE` (R249): A new bus voltage value drives the chopper, REGEN_LIMIT, the thermal store and the bus state decisions. Operands: bus, the window of `DCBn_VSD` as for `SAMPLE_EVENT`, level of `CHFB`. -/
  | busDecimatedValue (b : Fin 8) (w : BitVec 384) (chfb : Bool)
  /-- `BUS_CHARGED_TIMER` (R250): V ≥ DCB_PREV for 20 ms, and the bus enters BYPASS. Operands: bus. -/
  | busChargedTimer (b : Fin 8)
  /-- `BUS_BYPASS_TIMER` (R250): 50 ms in BYPASS, and the bus enters READY. Operands: bus. -/
  | busBypassTimer (b : Fin 8)
  /-- `BUS_UV_TIMER` (R250): V below DCB_UV for 1 ms returns the bus to CHARGING. Operands: bus. -/
  | busUvTimer (b : Fin 8)
  /-- `PRECHARGE_TIMEOUT` (R250): DCB_PREV is not reached within DCB_PRETMO, and PRECHARGE_FAIL is raised. Operands: bus. -/
  | prechargeTimeout (b : Fin 8)
  /-- `CHFB_TIMEOUT` (R252): A chopper-feedback timing check fails, raising CHOP_NOFB or CHOP_STUCK. Operands: bus, level of `CHFB`. -/
  | chfbTimeout (b : Fin 8) (chfb : Bool)
  /-- `FEEDBACK_INPUT_CHANGE` (R259): A feedback input passes its stable-for-N filter and is counted or decoded as a quadrature, Hall, step or index edge. Operands: port, the filtered levels of its three pins, the stamp in ns and in units of 78.125 ps. -/
  | feedbackInputChange (p : Fin 64) (a b z : Bool) (tag : BitVec 64) (k : Fin 13)
  /-- `CHATTER_WINDOW` (R260): A 10 ms window ends with more rejected transitions than allowed, and CHATTER is raised. Operands: input, rejected transitions in the interval that ended. -/
  | chatterWindow (x : FbIn) (n : BitVec 16)
  /-- `INPUT_STUCK_TIMEOUT` (R261): An armed input stays active for the stuck time, and INPUT_STUCK is raised. Operands: input. -/
  | inputStuckTimeout (x : FbIn)
  /-- `HALL_INVALID_TIMER` (R264): Hall code 0 or 7 held for 1 µs raises HALL_INVALID. Operands: port. -/
  | hallInvalidTimer (p : Fin 64)
  /-- `SSI_FRAME_START` (R265): An SSI frame starts at the chosen extremum. Operands: port, level of `FBB`. -/
  | ssiFrameStart (p : Fin 64) (fbb : Bool)
  /-- `SSI_FRAME_END` (R266): An SSI frame completes and is accepted or refused. Operands: port, the samples of `FBB`, bit k being sample k. -/
  | ssiFrameEnd (p : Fin 64) (samples : BitVec 50)
  /-- `RESOLVER_WINDOW` (R269): A resolver window is decimated and the tracking loop runs. Operands: port, the windows of `SD2` and `SD3` as for `SAMPLE_EVENT`. -/
  | resolverWindow (p : Fin 64) (w2 w3 : BitVec 192)
  /-- `PROBE_EDGE` (R273): A filtered probe edge is stamped and placed in the probe FIFO, or lost. Operands: probe, new filtered level, the stamp in ns and in units of 78.125 ps, whether on a whole tick only. -/
  | probeEdge (n : Fin 32) (level : Bool) (tag : BitVec 64) (k : Fin 13) (tickOnly : Bool)
  /-- `EMU_UPDATE` (R275): An emulation unit computes its target count and schedules the output edges. Operands: unit. -/
  | emuUpdate (n : Fin 8)
  /-- `COMPARE_OUTPUT_FIRE` (R375): A scheduled compare output acts and a milestone is recorded. Operands: axis, compare channel. -/
  | compareOutputFire (j : Fin 512) (k : Fin 4)
  /-- `COMPARE_PULSE_END` (R377): A compare pulse width elapses. Operands: axis, compare channel. -/
  | comparePulseEnd (j : Fin 512) (k : Fin 4)
  /-- `TOLLGATE_CYCLE` (R384): A 250 µs cycle snapshots the inputs, evaluates the functions and port states, and writes outputs and the mirror. Operands: `EDM` levels, `BRKFB` levels, `GEN` pads read back high, lockstep mismatches in this cycle. -/
  | tollgateCycle (edm : BitVec 8) (brkfb pads : BitVec 64) (mismatch : Fin 3)
  /-- `SI_FILTERED_CHANGE` (R386): A safe input holds a new level for SF.SI_FILT samples and changes its filtered level. Operands: input, the new level, the consecutive 10 µs samples that the raw level has held it, the µs for which the raw input has been inactive. -/
  | siFilteredChange (n : Fin 32) (level : Bool) (run : BitVec 8) (us : BitVec 16)
  /-- `TPO_PULSE` (R387): A test-pulse off-window starts or ends, with the pulse checks. Operands: pulse, whether its window starts, inputs that went inactive inside the window, those that also returned. -/
  | tpoPulse (n : Fin 8) (start : Bool) (low back : BitVec 32)
  /-- `TORQUE_OFF_SAMPLE` (R382): A torque-off request seen in two consecutive samples drives GEN and BRK low in hardware. -/
  | torqueOffSample
  /-- `OUTPUT_WATCHDOG_EXPIRY` (R383): No core toggle for 1 ms drives every Tollgate output low until a cold reset. -/
  | outputWatchdogExpiry
  /-- `TGOSC_FAULT_LINE` (R383): The main domain signals a TGOSC fault, and Tollgate enters SAFE_HALT. -/
  | tgoscFaultLine
  /-- `SS1_TIMEOUT` (R394): SF.PT_SS1TIME has elapsed, and the port enters STO. Operands: port. -/
  | ss1Timeout (p : Fin 64)
  /-- `DISCREPANCY_TIMER` (R389): Two channels differ for longer than SF.FN_DISC, and DISCREPANCY is raised. Operands: safety function. -/
  | discrepancyTimer (f : Fin 16)
  /-- `LOCK_DELAY_EXPIRY` (R392): The ports have been stopped for SF.FN_LOCKDLY, and the lock output unlocks. Operands: safety function. -/
  | lockDelayExpiry (f : Fin 16)
  /-- `LOCK_FB_TIMEOUT` (R392): The lock feedback is not active within 1 s of relocking. Operands: safety function. -/
  | lockFbTimeout (f : Fin 16)
  /-- `BRKFB_TIMEOUT` (R397): BRKFB does not confirm within SF.PT_BRKFBT, and BRK_FB is raised. Operands: port. -/
  | brkfbTimeout (p : Fin 64)
  /-- `EDM_TIMEOUT` (R400): EDM does not follow within SF.EDMTIME, and EDM_FAULT is raised. Operands: safe output. -/
  | edmTimeout (o : Fin 16)
  /-- `SO_OFF_PULSE` (R400): A safe output's periodic off-pulse is checked against its readback. Operands: safe output, readback low inside the pulse, high outside. -/
  | soOffPulse (o : Fin 16) (low high : Bool)
  /-- `RESET_STUCK_TIMER` (R402): A reset press reaches 5 s, and RESET_STUCK is raised. -/
  | resetStuckTimer
  /-- `BRAKE_TEST_DUE_TIMER` (R405): SF.BTINTERVAL hours pass without a test, and BRAKE_TEST_DUE is raised. Operands: port. -/
  | brakeTestDueTimer (p : Fin 64)
  /-- `BRAKE_RELEASE_REQUEST` (R396): Byway requests the brake released or applied, and Tollgate acts if its conditions hold. Operands: port, release or apply. -/
  | brakeReleaseRequest (p : Fin 64) (release : Bool)
  /-- `CFG_TRANSFER` (R407): Byway passes a sealed configuration image, or its absence, to Tollgate for acceptance. Operands: the bytes of the two sealed configuration copies of the flash, each where the device has not written the copy itself. -/
  | cfgTransfer (copy0 copy1 : List Byte)
  /-- `TG_BACKGROUND_TEST` (R378): The background RAM march and ROM CRC complete a pass, or enter SAFE_HALT. Operands: whether neither the pass nor an access (ECC) found an uncorrectable error. -/
  | tgBackgroundTest (ok : Bool)
  /-- `TG_SILENT` (R120): TGSEQ unchanged for 10 ms makes the main domain raise TG_SILENT. -/
  | tgSilent
  /-- `SYNC_RECEIVED` (R423): A Sync measurement is taken by the servo, with acquisition, jump refusal or a time-base step. Operands: port, the grandmaster's time at the start of the link as Sync and Follow_Up give it in 2⁻¹⁶ ns, `gmTimeBaseIndicator`, `lastGmPhaseChange` in 2⁻¹⁶ ns. -/
  | syncReceived (e : Fin 4) (gmTime : BitVec 96) (tbi : BitVec 16) (phase : BitVec 96)
  /-- `SYNC_TIMEOUT` (R424): No Sync for 3 intervals moves the servo to HOLDOVER. -/
  | syncTimeout
  /-- `HOLDOVER_LIMIT` (R426): DV.TSHOLDMAX is reached in HOLDOVER, raising TIME_HOLDOVER_LONG and sending TIME_EVENT 5. -/
  | holdoverLimit
  /-- `BMCA_SELECTION` (R424): The best master clock algorithm selects a grandmaster and changes the servo state. Operands: slave port, grandmaster identity and steps removed, or none when this device is selected; passive ports. -/
  | bmcaSelection (sel : Option (Fin 4 × BitVec 64 × BitVec 16)) (passive : BitVec 4)
  /-- `ANNOUNCE_RECEIVED` (R419): Byway receives an Announce for the best master clock algorithm. Operands: port, grandmaster identity, its priorities, steps removed. -/
  | announceReceived (e : Fin 4) (gm : BitVec 64) (prio1 prio2 : BitVec 8) (steps : BitVec 16)
  /-- `PDELAY_EXCHANGE` (R418): A peer-delay exchange completes and updates the link delay. Operands: port, mean link delay in ns. -/
  | pdelayExchange (e : Fin 4) (delay : BitVec 32)
  /-- `SYNC_TRANSMIT` (R418): A port sends Sync and Follow_Up at its interval. Operands: port. -/
  | syncTransmit (e : Fin 4)
  /-- `PTP_FOREIGN_FORWARD` (R421): A PTP event of another domain is forwarded across a ring pair with its residence time added. Operands: port it arrives on, residence time and `correctionField` in 2⁻¹⁶ ns. -/
  | ptpForeignForward (e : Fin 4) (resid corr : BitVec 64)
  /-- `TRANSMIT_STAMP` (R422): A frame completes, and its stamp is written to the descriptor or to the fallback queue. Operands: port, identifier, kind less 1, stamp in ns and in units of 78.125 ps, whether the hardware still owns the descriptor. -/
  | transmitStamp (e : Fin 4) (ident : BitVec 16) (kind : Fin 3) (tag : BitVec 64) (k : Fin 13) (owned : Bool)
  /-- `PPS_IN_EDGE` (R417): A PPS_IN edge is stamped and, in GRANDMASTER with TSPPSIN, used as a servo measurement. Operands: stamp in ns and in units of 78.125 ps. -/
  | ppsInEdge (tag : BitVec 64) (k : Fin 13)
  /-- `PPS_OUT_SECOND` (R417): At each whole second PPS_OUT rises, and it falls 10 ms later. Operands: whether the output rises. -/
  | ppsOutSecond (rise : Bool)
  /-- `MDIO_LINK_POLL` (R430): The 10 ms MDIO poll detects a link change and may raise LINK_DOWN. Operands: port, whether the link is up. -/
  | mdioLinkPoll (e : Fin 4) (up : Bool)
  /-- `PREEMPTION_VERIFY` (R432): The 802.3br verify exchange succeeds, which enables preemption. Operands: port, whether the exchange succeeded. -/
  | preemptionVerify (e : Fin 4) (ok : Bool)
  /-- `FRAME_RECEIVED` (R433): An Ethernet frame is received and its HSR duplicates are discarded. Operands: port, source address, HSR sequence number, length in bytes, whether it carries an HSR tag, whether its frame check sequence is correct, whether this device is its only destination. -/
  | frameReceived (e : Fin 4) (src : BitVec 48) (seq len : BitVec 16) (tagged fcsOk toUs : Bool)
  /-- `JALUT_CYCLE_START` (R434): At S_n the leader sends the cyclic frame and trigger 3 fires. -/
  | jalutCycleStart
  /-- `JALUT_FRAME_PASS` (R435): A member reads its downstream section and writes its upstream section as the cyclic frame passes. Operands: this member's index less 1, direction, the frame's Jalut version less 1, cycle number, T_J in ns, whether the frame check sequence is correct, whether the section carries data, its records. -/
  | jalutFramePass (m : Fin 15) (d ver : Fin 2) (n tj : BitVec 32) (fcsOk full : Bool) (sps : List NetSp) (imgs : List MImg)
  /-- `JALUT_UPSTREAM_ARRIVAL` (R437): The leader takes the first valid copy of the upstream sections, or counts an overrun. Operands: member index less 1, direction, whether the copy is valid, its records. -/
  | jalutUpstreamArrival (m : Fin 15) (d : Fin 2) (valid : Bool) (reps : List NetRep) (imgs : List MImg)
  /-- `JALUT_CYCLE_END` (R437): By S_(n+1) missing data is counted as lost, and the member and ring states are updated. Operands: members whose servo is `LOCKED`, members whose `DV.CFGGEN` equals this device's. -/
  | jalutCycleEnd (locked same : BitVec 15)
  /-- `LEADER_LOSS_COUNT` (R439): A member without a valid cycle for DV.JALUTLOSS cycles raises LEADER_LOST. -/
  | leaderLossCount
  /-- `JALUT_PACKET_FRAGMENT` (R435): A packet frame fragment is received and the packet is reassembled for forwarding. Operands: member index or 0 for the leader, packet identifier, fragment index and count, data, whether the leader's session holds control. -/
  | jalutPacketFragment (src : Fin 16) (ident : BitVec 16) (idx cnt : BitVec 8) (data : List Byte) (ctl : Bool)
  /-- `DISCOVERY_FRAME` (R438): A device answers a discovery frame with a discovery reply. Operands: the frame. -/
  | discoveryFrame (x : Discovery)
  /-- `CAN_FRAME_END` (R462): A received CAN frame reaches its end and is filed in a queue, taken as a NET report, or discarded. Operands: controller, frame, line time of its start-of-frame edge. -/
  | canFrameEnd (c : Fin 4) (f : CanFrame) (sof : BitVec 64)
  /-- `CAN_RECESSIVE_RUN` (R452): 11 consecutive recessive bits advance the controller through INTEGRATING or RECOVERING. Operands: controller. -/
  | canRecessiveRun (c : Fin 4)
  /-- `CAN_ERROR_DETECTED` (R452): A CAN error updates the counters and the node state and can cause BUS_OFF. Operands: controller, error, line time at which the frame started. -/
  | canErrorDetected (c : Fin 4) (e : CanErr) (sof : BitVec 64)
  /-- `CAN_TX_SUCCESS` (R465): A transmitted frame succeeds; its confirmation completes and a slot without REPEAT empties. Operands: controller, line time of the frame's start-of-frame edge, delay from `Cn_TX` to `Cn_RX` in ns measured before its data phase (R450). -/
  | canTxSuccess (c : Fin 4) (sof : BitVec 64) (delay : BitVec 16)
  /-- `CAN_ARBITRATION_LOSS` (R454): A frame loses arbitration and is retried under the rules of its window. Operands: controller, line time of the frame's start-of-frame edge. -/
  | canArbitrationLoss (c : Fin 4) (sof : BitVec 64)
  /-- `CAN_RATE_CANDIDATE_TIMEOUT` (R451): 100 ms without success moves rate detection to the next candidate. Operands: controller. -/
  | canRateCandidateTimeout (c : Fin 4)
  /-- `CAN_REFERENCE_INSTANT` (R456): At n × BCYCLE a potential time master starts its reference message. Operands: controller. -/
  | canReferenceInstant (c : Fin 4)
  /-- `CAN_REFERENCE_RECEIVED` (R457): A reference message sets the reference mark and cycle count and updates GTOFFS. Operands: controller, frame, line time of its start-of-frame edge. -/
  | canReferenceReceived (c : Fin 4) (f : CanFrame) (sof : BitVec 64)
  /-- `CAN_REFERENCE_MISSING` (R459): No reference message arrives within TXENWIN of the expected mark, and the cycle is extrapolated. Operands: controller. -/
  | canReferenceMissing (c : Fin 4)
  /-- `CAN_SLOT_CAPTURE` (R458): 10 µs before a window's mark the slot content is captured. Operands: controller, matrix entry. -/
  | canSlotCapture (c : Fin 4) (k : Fin 64)
  /-- `CAN_WINDOW_MARK` (R460): A window's time mark is reached, and its frame may start. Operands: controller, matrix entry. -/
  | canWindowMark (c : Fin 4) (k : Fin 64)
  /-- `CAN_TXENWIN_END` (R458): The transmit enable window closes, and an unsent window frame is not sent. Operands: controller, whether the window's frame has started. -/
  | canTxenwinEnd (c : Fin 4) (started : Bool)
  /-- `PORT_L_ACCESS` (R470): A loop engine access is served on a bank's port L. Operands: engine, write, byte offset, byte enables, data, what ECC finds. -/
  | portLAccess (e : Fin 24) (wr : Bool) (off : BitVec 32) (be : BitVec 8) (d : BitVec 64) (ecc : Ecc)
  /-- `PORT_S_ACCESS` (R471): A port-S master access is served, with collision, region and ECC handling. Operands: master ID less 32, write, byte offset, byte enables, data, what ECC finds, and a port-L access to the same word in the same cycle: engine, write, byte enables, data. -/
  | portSAccess (m : Fin 10) (wr : Bool) (off : BitVec 32) (be : BitVec 8) (d : BitVec 64) (ecc : Ecc) (l : Option (Fin 24 × Bool × BitVec 8 × BitVec 64))
  /-- `SCRUB_READ` (R477): The scrubber reads a word in an idle cycle and writes back or marks it weak. Operands: byte offset, what ECC finds, whether a master has written the word since, whether the same bit is still wrong after the write-back. -/
  | scrubRead (off : BitVec 26) (ecc : Ecc) (rewritten again : Bool)
  /-- `BANK_RELOCATION_COPY_COMPLETE` (R479): The copy of a retired bank to the detour area finishes. Operands: words the copy could not correct. -/
  | bankRelocationCopyComplete (lost : List Nat)
  /-- `BANK_MAP_SWITCH` (R480): The bank map switches to the detour words and affected axes are retired. -/
  | bankMapSwitch
  /-- `WAYMARK_SAMPLE_INTAKE` (R486): A channel sample enters Waymark and is filtered, triggered and checked against masks. Operands: channel, time tag in units of 2.5 ns, tap of a probe edge. -/
  | waymarkSampleIntake (ch : Fin 1024) (t : BitVec 64) (tap : Fin 32)
  /-- `WAYMARK_RECORD_WRITE` (R489): A record is written from the FIFO into the buffer, which may complete the post-trigger count. -/
  | waymarkRecordWrite
  /-- `DIE_TEMP_SAMPLE` (R518): Every 10 ms the die temperature is measured and the temperature faults are checked. Operands: temperature, FP32 °C. -/
  | dieTempSample (v : BitVec 32)
  /-- `TG_RAIL_RETURN` (R53): VDDTG and VDDTGIO come back inside their windows after a cold reset caused by their loss, and the cold reset ends so that Tollgate and the sequencer start again. -/
  | tgRailReturn
  /-- `STAGING_BUFFER_WRITTEN` (R68): Data buffered by FW_DATA in the 64 KiB staging buffer is programmed into the inactive slot, which frees the buffer space that QUEUE_FULL 0x0003 waited for. Operands: bytes programmed. -/
  | stagingBufferWritten (n : BitVec 17)
  /-- `JTAG_DEBUG_ACCESS` (R514): An unlocked debugger acts through the JTAG port, reading or writing engine memories and Crossroads, single-stepping an engine or route core, or driving pins under EXTEST. Operands: what the debugger does. -/
  | jtagDebugAccess (op : JtagOp)
  /-- `GPIO_EDGE` (R485): A GPIO input changes level, and the accepted edge is delivered as a sample to a Waymark edge channel of src 7. Operands: input, new filtered level, time tag in units of 2.5 ns. -/
  | gpioEdge (n : Fin 32) (level : Bool) (t : BitVec 64)
  deriving DecidableEq, Repr

end Sys2Proof
end

