-- ==== Sys2Proof/Config.lean ====
section
/-!
DEFINITION. What the spec leaves open and what one implementation fixes: constants without a body (free values), and the
real functions the control laws use.
-/
namespace Sys2Proof.Config

/-- A value the spec leaves open, one per use: the step applies it to the counter `State.free` (DESIGN CHOICE, log 6). -/
opaque freeNat : Nat → Nat

/-- Nanoseconds from an instant of line time to the start of the next axis-control cycle: the spec gives that cycle no length
(log 16). -/
opaque axisCycleWait : Nat → Nat

/-- Result pattern of `FRCP` before the error bound of R150 is applied (log 20). -/
opaque frcp : BitVec 32 → BitVec 32

/-- Result pattern of `FRSQ` before the error bound of R150 is applied (log 20). -/
opaque frsq : BitVec 32 → BitVec 32

/-- Sine and cosine of a u32 angle before the error bound of R149 is applied, as Q31 patterns (log 20). -/
opaque sincos : BitVec 32 → BitVec 32 × BitVec 32

/-- Payload of the quiet NaN that a NaN operand gives (R150 names none), from the operands (log 20). -/
opaque qnan : BitVec 32 → BitVec 32 → BitVec 32

/-- A product in fixed point with 96 fraction bits. -/
def fixMul (a b : Int) : Int := a * b / 2 ^ 96

/-- Terms k to k + n of the exponential series in that fixed point, `t` being term k − 1. -/
def expTerms (x : Int) : Nat → Nat → Int → Int
  | 0, _, _ => 0
  | n + 1, k, t => let u := fixMul t x / (k : Int); u + expTerms x n (k + 1) u

/-- Square a number in fixed point n times. -/
def fixSquares : Nat → Int → Int
  | 0, x => x
  | n + 1, x => fixSquares n (fixMul x x)

/-- The exponential, for arguments at or below 0 to within 2⁻⁷²: the argument divided by 2¹⁶, 16 terms of the series, squared 16 times
(log 21). -/
def exp (x : Rat) : Rat :=
  let y := (x * 1208925819614629174706176).floor
  mkRat (fixSquares 16 (2 ^ 96 + expTerms y 16 1 (2 ^ 96))) (2 ^ 96)

/-- The angle of a vector (y, x) in radians in (−π, π], uninterpreted (log 21). -/
opaque atan2 : Rat → Rat → Rat

/-- The circle constant, to 40 decimal places (log 21). -/
def pi : Rat := mkRat 31415926535897932384626433832795028841971 10000000000000000000000000000000000000000

/-- Terms of the series of sine or cosine in fixed point: `t` is a term of power k, `q` the square of the argument. -/
def circTerms (q : Int) : Nat → Nat → Int → Int
  | 0, _, t => t
  | n + 1, k, t => t + circTerms q n (k + 2) (-(fixMul t q) / (((k + 1) * (k + 2) : Nat) : Int))

/-- An angle brought into (−π, π], in fixed point. -/
def fixAngle (x : Rat) : Int := ((x - 2 * pi * ((x / (2 * pi) + mkRat 1 2).floor : Rat)) * 79228162514264337593543950336).floor

/-- The sine of an angle in radians, to within 2⁻⁷²: 24 terms of the series (log 21). -/
def sin (x : Rat) : Rat := let a := fixAngle x; mkRat (circTerms (fixMul a a) 24 1 a) (2 ^ 96)

/-- The cosine of an angle in radians, to within 2⁻⁷² (log 21). -/
def cos (x : Rat) : Rat := let a := fixAngle x; mkRat (circTerms (fixMul a a) 24 0 (2 ^ 96)) (2 ^ 96)

/-- The DC bus whose `DV.DCB_REGENLIM` scales a `NET` axis while its remote drive reports the flag of R318: the spec names no
bus for it (log 29). -/
opaque netRegenBus : Nat → Fin 8

/-- Levels that this device lies below the top leader of its junction, and, per serial, the levels of members below a device and
the devices of its tree: what the rest of the junction is, the spec leaves to discovery (log 30). -/
opaque junctionLevel : Nat
opaque levelsBelow : BitVec 64 → Nat
opaque treeSize : List (BitVec 64) → Nat

/-- Byte offset of a quantity of Table 16.2 within the status block of an axis: Table 15.4 places the block and not its words
(log 31). -/
opaque statusWord : Nat → Fin 128

/-- The axis of a word that lies in the table area or in an engine image: the spec places the areas, and not whose word is where in
them. 512 and above: none (log 37). -/
opaque wordAxis : Nat → BitVec 10

/-- Worst-case time in ns in which a reader reads a slot, for the setpoint mailbox (0) and the current mailbox (1) of an axis: R21
compares it and no rule states it (log 32). -/
opaque mailboxRead : Nat → BitVec 16

/-- `value_a` and `value_b` of refusal reason 0x0021 for an Ethernet port: Table 4.7 leaves them to the owning chapter, which states
none (log 33). -/
opaque gclValues : Fin 4 → BitVec 32 × BitVec 32

/-- The device serial number: BAR0 `SERIAL` has no stated reset value, it is the part's identity (log 7). -/
opaque serial : BitVec 64

/-- The device's own PTP `clockIdentity`, which the spec derives from nothing (log 7). -/
opaque clockIdentity : BitVec 64

/-- The fused base of the MAC addresses (R430). -/
opaque macBase : BitVec 48

/-- Version word of the Turnpike runtime that boots (R83, Table 3.14 gives no value) (log 7). -/
opaque turnpikeVersion : BitVec 32

/-- Version word of the Byway image that boots (log 7). -/
opaque bywayVersion : BitVec 32

/-- Version words of Byway's standard programs (Table 5.20 gives none) (log 7). -/
opaque stdVersion : Nat → BitVec 32

/-- The nonce of the n-th `DBG_UNLOCK` step 1 (R515), 32 bytes: random, hence free (log 22). -/
opaque nonce : Nat → BitVec 256

/-- The key hash fused for a slot is that of this 96-byte public key (R515) (log 25). -/
opaque debugKey (slot : Nat) (key : List (BitVec 8)) : Bool

/-- The ECDSA signature of R515 verifies: key, signed message, signature (log 25). -/
opaque debugSignature (key message signature : List (BitVec 8)) : Bool

end Sys2Proof.Config
end

