-- ==== Sys2Proof/Machine/Num.lean ====
section
/-!
DEFINITION. The number formats of Table 0.3 (R2, R3, R7): exact rationals, the fixed-point formats `pos64`, `vel64` and
`acc64` as raw integers, and FP32 patterns.
-/
namespace Sys2Proof.Machine

/-- The power of two 2^e. -/
def pow2 (e : Int) : Rat :=
  if 0 ≤ e then ((2 ^ e.toNat : Nat) : Rat) else mkRat 1 (2 ^ (-e).toNat)

def ratAbs (q : Rat) : Rat := if q < 0 then -q else q

def ratMin (a b : Rat) : Rat := if a ≤ b then a else b

def ratMax (a b : Rat) : Rat := if a ≤ b then b else a

/-- The value held inside `[lo, hi]`. -/
def ratClamp (lo hi q : Rat) : Rat := if q < lo then lo else if hi < q then hi else q

/-- −1, 0 or 1. -/
def ratSign (q : Rat) : Rat := if q < 0 then -1 else if q = 0 then 0 else 1

/-- Round to nearest, ties away from zero (R7). -/
def roundAway (q : Rat) : Int :=
  if 0 ≤ q then (q + mkRat 1 2).floor else -((-q + mkRat 1 2).floor)

/-- Round to nearest, ties to even (IEEE 754). -/
def roundEven (q : Rat) : Int :=
  let f := q.floor
  let r := q - f
  if r < mkRat 1 2 then f else if mkRat 1 2 < r then f + 1 else if f % 2 = 0 then f else f + 1

/-- Round towards zero. -/
def truncRat (q : Rat) : Int := if 0 ≤ q then q.floor else -((-q).floor)

def satInt (lo hi x : Int) : Int := if x < lo then lo else if hi < x then hi else x

/-- Conversion into a signed 64-bit fixed-point format with `fb` fraction bits: nearest, ties away, saturating (R7). -/
def toFixed64 (fb : Nat) (q : Rat) : Int :=
  satInt (-(2 ^ 63)) (2 ^ 63 - 1) (roundAway (q * pow2 fb))

/-- `pos64`: signed Q48.16 (Table 0.3); the result is the raw integer. -/
def toPos64 (q : Rat) : Int := toFixed64 16 q

/-- `vel64` and `acc64`: signed Q32.32 (Table 0.3). -/
def toVel64 (q : Rat) : Int := toFixed64 32 q

/-- The value of a raw `pos64`. -/
def ofPos64 (r : Int) : Rat := (r : Rat) / 65536

/-- The value of a raw `vel64` or `acc64`. -/
def ofVel64 (r : Int) : Rat := (r : Rat) / 4294967296

/-- The two's-complement reading of the low `w` bits of `n`. -/
def signed (w n : Nat) : Int :=
  let m := n % 2 ^ w
  if m < 2 ^ (w - 1) then (m : Int) else (m : Int) - (2 ^ w : Nat)

/-- The low `w` bits of an integer in two's complement. -/
def unsigned (w : Nat) (i : Int) : Nat := (i % ((2 ^ w : Nat) : Int)).toNat

/-! ### FP32 (R3, R4) -/

def fpSign (b : Word) : Bool := b.getLsbD 31
def fpExp (b : Word) : Nat := b.toNat / 2 ^ 23 % 256
def fpFrac (b : Word) : Nat := b.toNat % 2 ^ 23

/-- A pattern that is neither a NaN nor an infinity (R4). -/
def fpFinite (b : Word) : Bool := fpExp b != 255

def fpIsNaN (b : Word) : Bool := fpExp b == 255 && fpFrac b != 0

def fpIsInf (b : Word) : Bool := fpExp b == 255 && fpFrac b == 0

/-- The value of a finite pattern (0 for NaN and infinities, which no caller passes). -/
def fpToRat (b : Word) : Rat :=
  let m : Rat :=
    if fpExp b = 255 then 0
    else if fpExp b = 0 then (fpFrac b : Rat) * pow2 (-149)
    else ((2 ^ 23 + fpFrac b : Nat) : Rat) * pow2 ((fpExp b : Int) - 150)
  if fpSign b then -m else m

/-- floor(log2 q) for q > 0. -/
def floorLog2 (q : Rat) : Int :=
  let e : Int := (Nat.log2 q.num.natAbs : Int) - (Nat.log2 q.den : Int)
  if q < pow2 e then e - 1 else if pow2 (e + 1) ≤ q then e + 1 else e

/-- Magnitude bits of the FP32 pattern nearest to q > 0, ties to even; overflow gives infinity. -/
def fpMagnitude (q : Rat) : Nat :=
  let e := floorLog2 q
  let e' : Int := if e < -126 then -126 else e
  let m := (roundEven (q * pow2 (23 - e'))).toNat
  let bits := ((e' + 126).toNat) * 2 ^ 23 + m
  if 255 * 2 ^ 23 ≤ bits then 255 * 2 ^ 23 else bits

/-- The FP32 pattern nearest to a rational, ties to even. -/
def ratToFp (q : Rat) : Word :=
  if q = 0 then 0#32
  else if q < 0 then BitVec.ofNat 32 (2 ^ 31 + fpMagnitude (-q))
  else BitVec.ofNat 32 (fpMagnitude q)

/-- Square root of a non-negative rational to within 2^−96 relative (log 21). -/
def ratSqrt (q : Rat) : Rat :=
  if q ≤ 0 then 0
  else
    let k := (192 + 2 * (Nat.log2 q.den / 2 + 1))
    let n := (q.num.natAbs * 2 ^ k) / q.den
    mkRat (Nat.sqrt n) (2 ^ (k / 2))

/-- Reduction of an angle in radians into [−π, π). -/
def wrapAngle (x : Rat) : Rat :=
  let t := 2 * Config.pi
  x - t * ((x + Config.pi) / t).floor

/-- Ceiling of a / b on naturals. -/
def ceilDiv (a b : Nat) : Nat := (a + b - 1) / b

/-- Saturating increment below `2^w`. -/
def satInc (w n : Nat) : Nat := if n + 1 < 2 ^ w then n + 1 else 2 ^ w - 1

/-! ### Decimation (R186, R249) -/

def tri (m : Nat) : Nat := m * (m + 1) / 2

/-- Weight of modulator bit `j` of a window in a sinc³ filter of ratio `n`: three moving sums of `n` bits one after the other, whose
3n − 2 weights stand in the middle of the 3n bits (DEDUCED, log 102). -/
def sincWeight (n j : Nat) : Nat := tri j + 3 * tri (j - 2 * n) - 3 * tri (j - n)

/-- y of a window of 3n bit periods (R186). Bits 2j and 2j + 1 of `w` are the levels of the data line at the rising and at the
falling `SDC` edge of the j-th period, oldest first; `edge` selects one of them (`PT.SDEDGE`, R184, R544). -/
def sinc3 (n edge w : Nat) : Nat :=
  (List.range (3 * n)).foldl (fun y j => if w.testBit (2 * j + edge) then y + sincWeight n j else y) 0

end Sys2Proof.Machine
end

