-- ==== Sys2Proof/Machine/StateHost.lean ====
section
/-!
DEFINITION. State of the transports, sessions, groups, the timed queue and configuration drafts (chapters 3 and 4).
Default values are the reset values.
-/
namespace Sys2Proof.Machine

/-- A reply or event on its way to the host (R82, R87). -/
structure OutPkt where
  event : Bool
  version : Nat
  opcode : Nat
  tag : BitVec 16
  axis : BitVec 16
  path : BitVec 32
  crc : Bool
  payload : List Byte
  deriving DecidableEq, Repr

/-- Whom a completion goes to: the session, queue, opcode and tag of the command that was accepted (R84). -/
structure CmdRef where
  src : Src
  sid : Nat
  version : Nat
  opcode : Nat
  tag : BitVec 16
  axis : BitVec 16
  path : BitVec 32
  hostId : Nat
  /-- how often the command's queue had been disabled when it arrived: what it owes to a queue ends there (R113) -/
  gen : Nat := 0
  deriving DecidableEq, Repr

/-- An open session (R98 to R105). -/
structure Session where
  sid : Nat
  version : Nat
  control : Bool
  features : Nat
  evq : Fin 16
  tmoMs : Nat
  hostId : Nat
  evSeq : Nat
  evDiscarded : Nat
  awaiting : List (BitVec 16)
  /-- carrier tick of the last packet that passed steps 1 to 5 of Table 3.3 (R105) -/
  seen : Nat := 0
  deriving DecidableEq, Repr

/-- A queue pair (Tables 3.16 to 3.18), with the ring contents that one side has written and the other not yet taken. -/
structure Queue where
  sqBase : BitVec 64 := 0
  cqBase : BitVec 64 := 0
  qcfg : Word := 0
  sqTail : Nat := 0
  sqHead : Nat := 0
  cqHead : Nat := 0
  cqTail : Nat := 0
  /-- bases and sizes sampled when `EN` was set (R112) -/
  smpSq : BitVec 64 := 0
  smpCq : BitVec 64 := 0
  smpSqSz : Nat := 0
  smpCqSz : Nat := 0
  active : Bool := false
  frameErr : Bool := false
  dmaErr : Bool := false
  cfgErr : Bool := false
  /-- an error has stopped the queue until it is enabled again (R113) -/
  stopped : Bool := false
  cqStall : Bool := false
  phase : Bool := true
  /-- entries the host has published in the SQ and the device has not fetched, oldest first -/
  sq : List RingEntry := []
  /-- entries the device has written into the CQ and the host has not consumed, oldest first -/
  cq : List RingEntry := []
  /-- packets waiting for CQ space, oldest first (R115); events also wait while the queue does not run (R88) -/
  held : List OutPkt := []
  /-- how often the queue has been disabled (R113) -/
  gen : Nat := 0
  /-- complete packets not yet signalled by an interrupt (R117) -/
  unsignalled : Nat := 0
  deriving DecidableEq, Repr

/-- The QSPI slave (Tables 3.23, 3.24). -/
structure Qspi where
  tx : List OutPkt := []
  last : Option OutPkt := none
  drop : Bool := false
  /-- the bytes the device drove in the last transaction that reads -/
  data : List Byte := []
  deriving DecidableEq, Repr

/-- What has arrived behind a command whose synchronous reply is still to come (R86): the bytes of a packet, or a packet whose
checks are done. -/
inductive Behind where
  | bytes (src : Src) (b : List Byte)
  | packet (p : Packet)
  deriving DecidableEq, Repr

/-- An open group of one queue or of QSPI (R89, R90). -/
structure Group where
  packets : List Packet
  deriving DecidableEq, Repr

/-- A timed command or timed group in the timed queue (R94, R95); `order` is its place among equal tags. -/
structure TimedItem where
  due : Nat
  order : Nat
  sid : Nat
  /-- `Queue.gen` of the queue the packets came from -/
  gen : Nat := 0
  packets : List Packet
  deriving DecidableEq, Repr

/-- The host side: endpoint registers, queues, sessions, groups and the timed queue. -/
structure HostIf where
  pcieUp : Bool := false
  /-- members present in the junction this device leads, bit n for member n -/
  memberMask : Nat := 0
  msixEnabled : Bool := false
  /-- Function Mask of the MSI-X capability -/
  msixMask : Bool := false
  /-- the MSI-X table at 0x0000 of BAR2/3, four words for each of 32 vectors (R110); the fourth masks the vector at reset, as the
  endpoint's family has it (log 36) -/
  msixTable : Vector Word 128 := Vector.ofFn fun k : Fin 128 => if k.val % 4 = 3 then 1 else 0
  /-- the pending-bit array at 0x1000 of BAR2/3 (R110) -/
  msixPba : BitVec 32 := 0
  queues : Vector Queue 16 := Vector.replicate 16 {}
  qspi : Qspi := {}
  pcie : Option Session := none
  qspiSes : Option Session := none
  /-- the session of the leader through which packets reach this device as a member (R440) -/
  leader : Option Session := none
  lastSid : Nat := 0
  /-- the queue pair that the high and low priority rotations serve next (R114) -/
  rotHigh : Nat := 0
  rotLow : Nat := 0
  /-- packets on their way to the leader (R35) -/
  leaderTx : List OutPkt := []
  groups : List (Src × Group) := []
  /-- what waits behind a synchronous reply, oldest first (R86) -/
  behind : List Behind := []
  /-- open groups that are being forwarded, with their path -/
  fwdGroups : List (Src × BitVec 32) := []
  timed : List TimedItem := []
  timedOrder : Nat := 0
  scratch : Word := 0
  intstat : Word := 0
  intmask : Word := 0
  /-- MSI-X messages sent per vector (R117) -/
  msix : Vector Nat 32 := Vector.replicate 32 0
  /-- the last value of `DEVSTAT` that `INTSTAT.DEVSTAT` was judged against (Table 3.20) -/
  devstatSeen : Nat := 0
  tsDone : Bool := false
  tsSeq : Nat := 0
  tsNs : Nat := 0
  tsSec : Nat := 0
  tsFrac : Nat := 0
  tsServo : Nat := 0
  tlNs : Nat := 0
  tlSec : Nat := 0
  tlFrac : Nat := 0
  deriving DecidableEq, Repr

/-- An entry of the refusal list (Table 4.9). -/
structure RefusalEntry where
  reason : Nat
  axis : Nat
  engine : Nat := 0xFF
  kind : Nat := 0xFF
  port : Nat := 0xFF
  path : Nat := 0
  a : Nat := 0
  b : Nat := 0
  deriving DecidableEq, Repr

/-- A task as admission places it (Tables 4.3 and 4.9, R554). -/
structure Task where
  axis : Nat
  kind : Nat
  prog : Nat
  /-- index of the task declaration within a user program -/
  sub : Nat := 0
  trigger : Nat
  k : Nat
  tNs : Nat
  dNs : Nat
  /-- T and D in LECLK cycles (R138) -/
  tCyc : Nat := 0
  dCyc : Nat := 0
  c : Nat
  h : Nat
  w : Nat := 0
  haul : Nat
  stateLen : Nat
  plm : Nat
  cx : Nat
  cy : Nat
  dlm : Nat
  port : Nat := 0xFF
  user : Bool := false
  pinned : Bool := false
  noRide : Bool := false
  engine : Nat := 0xFF
  rank : Nat := 0
  cPrime : Nat := 0
  rNs : Nat := 0
  /-- local-memory addresses given by the loader: entry point, DLM base, CLM X and Y base, checkpoint offset -/
  pcEntry : Nat := 0
  dlmBase : Nat := 0
  cxBase : Nat := 0
  cyBase : Nat := 0
  stateOff : Nat := 0
  ckpt : Nat := 0
  slot : Nat := 0xFF
  /-- ports whose slots the task needs, with the slot of each (R154) -/
  slots : List (Nat × Nat) := []
  /-- the device has withdrawn the task since the last switch-over (R148) -/
  withdrawn : Bool := false
  deriving DecidableEq, Repr

/-- Phase of a commit (R142); `comparing` from S until the leader has compared its members' `DV.CFGGEN` (R143). -/
inductive CommitPhase where
  | analysis | loading | waiting | comparing
  deriving DecidableEq, Repr

/-- A commit in progress (R142, R553). -/
structure Commit where
  phase : CommitPhase
  checkOnly : Bool
  ref : CmdRef
  /-- axes whose tasks are pinned, with their state numbers, taken at the arrival of `CFG_COMMIT` -/
  pinned : List (Nat × Nat)
  /-- switch instant S, ns of line time -/
  s : Nat := 0
  /-- the placement that analysis found -/
  tasks : List Task := []
  /-- the go signal of the leader has arrived (R143) -/
  go : Bool := false
  /-- commit of the leader's draft, not of this device's own (R143) -/
  asMember : Bool := false
  /-- engines retired when the analysis began (reason 0x0019) -/
  retired0 : Nat := 0
  /-- roles of the engines that analysis found, as codes of Table 4.9 -/
  roles : List Nat := []
  /-- members that did not report within 1 s -/
  unreached : List Nat := []
  /-- master images in a member's downstream and upstream sections, as analysis fixed them (R435) -/
  images : List (Nat × Nat × Nat) := []
  deriving DecidableEq, Repr

/-- The open draft (R131, R132): values written by `CFG_SET`. -/
structure Draft where
  src : Src
  sid : Nat
  baseGen : Nat
  empty : Bool
  values : List (Nat × Nat) := []
  deriving DecidableEq, Repr

/-- A user program in the program store (R179, R180). -/
structure Program where
  id : Nat
  image : List Byte
  /-- C, H, haul words and w of each task, as the verifier found them (R170) -/
  figures : List (Nat × Nat × Nat × Nat)
  deriving DecidableEq, Repr

/-- Drafts, commits, the parameter store and admission reports (chapter 4). -/
structure Cfg where
  /-- the values in effect that differ from their default, by key -/
  params : List (Nat × Nat) := []
  /-- values that `PARAM_SET` has written and whose unit has not come to its next cycle yet, oldest first (R127) -/
  late : List (Nat × Nat) := []
  draft : Option Draft := none
  commit : Option Commit := none
  cfggen : Nat := 0
  analysed : Bool := false
  committed : Bool := false
  refusals : List RefusalEntry := []
  lastTasks : List Task := []
  /-- roles of the engines in the last analysis, as codes of Table 4.9 -/
  lastRoles : List Nat := []
  tasks : List Task := []
  programs : List Program := []
  /-- open `LEP_LOAD`: program, total, bytes received, session -/
  lepLoad : Option (Nat × Nat × List Byte × CmdRef) := none
  /-- images being verified, oldest first -/
  lepVerify : List (Nat × List Byte × CmdRef) := []
  deriving DecidableEq, Repr

end Sys2Proof.Machine
end

