-- ==== Sys2Proof/Machine/StateAxis.lean ====
section
/-!
DEFINITION. State of an axis channel: the state machine (chapter 1), the profile generator, homing and stepper state
(chapter 10). Positions and velocities of the commanded side are raw `pos64` and `vel64` integers where the spec publishes
them, exact rationals where it computes with them. Default values are the reset values; where the spec gives none, zero
(log 5).
-/
namespace Sys2Proof.Machine

/-- Axis states (Table 1.8). -/
inductive AxState where
  | disabled | ready | enabledIdle | moving | homing | stopping | fault | retired
  deriving DecidableEq, Repr

def AxState.code : AxState → Nat
  | .disabled => 0 | .ready => 1 | .enabledIdle => 2 | .moving => 3 | .homing => 4 | .stopping => 5 | .fault => 6
  | .retired => 7

/-- Kind of the stop in progress (R320, R347). -/
inductive StopKind where
  | none | controlled | quick | homing
  deriving DecidableEq, Repr

/-- Where an open `AXIS_ENABLE` stands (R32, R553, R555). -/
inductive EnablePhase where
  /-- waits for prerequisites under `WAIT` -/
  | waiting
  /-- waits for a running commit (R553) -/
  | commit
  /-- energising, or waiting for the remote drive of a `NET` axis -/
  | energising
  deriving DecidableEq, Repr

/-- An open `AXIS_ENABLE` and the commands it answers; none when another cause enables the axis (R296, R443). -/
structure EnableOp where
  refs : List CmdRef
  phase : EnablePhase
  wait : Bool
  timeoutMs : Nat
  deriving DecidableEq, Repr

/-- Steps of energising (Table 6.4, R233, R326, R555). -/
inductive Energise where
  | off
  /-- CAL starts at the next sample event of the port -/
  | start
  | calibrate
  | precharge
  /-- INIT starts at the next sample event -/
  | preInit
  | init
  /-- INIT has ended; the axis is enabled at the next release of its position task -/
  | running
  deriving DecidableEq, Repr

/-- `AT_MASTER` of R354: the raw master position and whether the crossing is negative. -/
structure AtMaster where
  pos : Int
  negative : Bool
  deriving DecidableEq, Repr

/-- `GEAR_ENGAGE` (Table 11.1). -/
structure GearCmd where
  num : Int
  den : Nat
  mode : Nat
  at_ : Option AtMaster
  len : Int
  offset : Int
  deriving DecidableEq, Repr

/-- `CAM_ENGAGE` (Table 11.4). -/
structure CamCmd where
  cam : Fin 64
  mode : Nat
  at_ : Option AtMaster
  relative : Bool
  oneShot : Bool
  phase : Int
  offset : Int
  deriving DecidableEq, Repr

/-- What a motion command asks of the generator. -/
inductive MotionKind where
  | absolute (target : Int)
  | relative (dist : Int) (fromCmd : Bool)
  | velocity (v : Int)
  | follow
  | home (method : Nat) (homePos : Int)
  | gear (g : GearCmd)
  /-- `GEAR_RELEASE` (Table 11.2): mode, `AT_MASTER`, length -/
  | release (mode : Nat) (at_ : Option AtMaster) (len : Int)
  | cam (c : CamCmd)
  | path
  | stop (quick : Bool)
  deriving DecidableEq, Repr

/-- An accepted motion command (R321 to R323); limits are raw, 0 for the parameter. -/
structure MotionCmd where
  ref : Option CmdRef
  opcode : Nat
  tag : BitVec 16
  kind : MotionKind
  vmax : Int := 0
  amax : Int := 0
  dmax : Int := 0
  /-- takeover at or after this line time (R92, R314) -/
  at_ : Nat
  /-- the tag of a timed command is the origin of its plan (R368) -/
  timed : Bool := false
  /-- the completion has been sent -/
  done : Bool := false
  /-- instant at which the generator took it over -/
  tookOver : Nat := 0
  deriving DecidableEq, Repr

/-- A segment of constant acceleration (R311): start relative to the plan in seconds, start position and velocity in counts,
acceleration, duration, and the `SEGMENT` code of Table 10.7. -/
structure Seg where
  t : Rat
  p : Rat
  v : Rat
  a : Rat
  dur : Rat
  code : Nat
  deriving DecidableEq, Repr

/-- Motion source of the setpoint task (Table 1.7). -/
inductive MSource where
  | none | profile | follow | homing | gear | cam | path | net
  deriving DecidableEq, Repr

/-- What the plan in force is for, so that it can be made again (R318). -/
inductive PlanKind where
  | hold
  | move (target : Rat)
  | velocity (v : Rat)
  | controlled
  | quick
  | homing (v : Rat)
  | homeMove (target : Rat)
  | homeStop
  deriving DecidableEq, Repr

/-- A plan (R311): its kind, origin in ns of line time, segments, and the position and velocity it ends with. -/
structure Plan where
  kind : PlanKind := .hold
  t0 : Rat := 0
  segs : List Seg := []
  endP : Rat := 0
  endV : Rat := 0
  /-- instant of the reversal of a switchback after `t0` in s, until it has been reported (R317) -/
  revAt : Option Rat := none
  switchback : Bool := false
  overshoot : Rat := 0
  scaled : Bool := false
  deriving DecidableEq, Repr

/-- The profile generator of an axis and what its setpoint task publishes. -/
structure Profile where
  cur : Option MotionCmd := none
  next : Option MotionCmd := none
  source : MSource := .none
  plan : Plan := {}
  /-- overrides of the command in force, raw (Table 10.3) -/
  vmax : Int := 0
  amax : Int := 0
  dmax : Int := 0
  /-- target of the positioning move in progress, raw (`AX.TARGET`) -/
  target : Int := 0
  positioning : Bool := false
  /-- flags and overshoot of the command in progress (Table 10.6) -/
  switchback : Bool := false
  regenScaled : Bool := false
  caught : Bool := false
  refSet : Bool := false
  overshoot : Int := 0
  /-- the axis enters `ENABLED_IDLE` at standstill -/
  idle : Bool := false
  /-- the release before: instant, position and velocity, exact -/
  relT : Rat := 0
  relP : Rat := 0
  relV : Rat := 0
  cmdPos : Int := 0
  cmdVel : Int := 0
  cmdAcc : Int := 0
  /-- following: locked, with p0 and c0 (R339); a live ratio write waits for the next release -/
  locked : Bool := false
  followP0 : Rat := 0
  followC0 : Rat := 0
  followReseed : Bool := false
  /-- |r v_s| has exceeded `AX.VMAX` since this instant (Table 10.18) -/
  limitSince : Option Nat := none
  deriving DecidableEq, Repr

/-- Phases of homing (Table 10.12). -/
inductive HomePhase where
  | none | search | backoff | creep | stall | finish
  deriving DecidableEq, Repr

def HomePhase.code : HomePhase → Nat
  | .none => 0 | .search => 1 | .backoff => 2 | .creep => 3 | .stall => 4 | .finish => 5

/-- What a stop within homing leads to. -/
inductive HomeNext where
  | search | backoff | creep | finish | final | failed (detail : Nat)
  deriving DecidableEq, Repr

/-- The homing sequencer (R342 to R347). -/
structure Homing where
  referenced : Bool := false
  phase : HomePhase := .none
  reversed : Bool := false
  transitions : Nat := 0
  method : Nat := 0
  homePos : Int := 0
  /-- commanded position at which the present pass began -/
  passStart : Rat := 0
  /-- position at which the input went inactive in `BACKOFF`, or the edge was met in `CREEP` of method 2 -/
  mark : Option Rat := none
  /-- Δ of R345, once it has been added to the frame -/
  delta : Rat := 0
  /-- the next phase once the present stop has ended -/
  after : Option HomeNext := none
  /-- recorded active edges of the reference input in the present pass: stamp in ns -/
  edges : List Rat := []
  /-- index events in the present pass: stamp in ns -/
  indexes : List Rat := []
  /-- the reference input has been inactive since the present pass armed on it, and the tick at which it did (R261) -/
  seenInactive : Bool := false
  armT : Nat := 0
  /-- index capture is armed since this tick, and the index input has been inactive since (R261) -/
  idxT : Option Nat := none
  idxQuiet : Bool := false
  /-- stall detected (R346) -/
  stall : Bool := false
  /-- `INPUT_STUCK` on the reference input (R344) -/
  stuck : Bool := false
  deriving DecidableEq, Repr

/-! ### Coordination (chapter 11) -/

/-- How a gearing moves (R353 to R357). -/
inductive GearPhase where
  /-- mode 0: towards the velocity r v_m -/
  | ramp
  /-- R356: p0, m0, r0 and r, L -/
  | dist (p0 m0 r0 r l : Rat)
  | locked
  deriving DecidableEq, Repr

/-- Gearing in force. -/
structure Gear where
  num : Int
  den : Nat
  phase : GearPhase
  pL : Rat := 0
  mL : Rat := 0
  /-- mode 2 blend: d, m0, L (R357) -/
  blend : Option (Rat × Rat × Rat) := none
  deriving DecidableEq, Repr

/-- A cam in force (R360 to R362). Blends: amount and master position at which they began. -/
structure CamRun where
  cam : Fin 64
  phi : Rat
  off : Rat
  oneShot : Bool
  gap : Option (Rat × Rat) := none
  phaseShift : Option (Rat × Rat) := none
  offShift : Option (Rat × Rat) := none
  deriving DecidableEq, Repr

/-- A path segment (Table 11.5): end instant, cubic, `END`, and per member the end position and velocity. -/
structure PathSeg where
  tEnd : Nat
  cubic : Bool
  last : Bool
  ends : List (Int × Int)
  deriving DecidableEq, Repr

/-- A running path, held by the leader (R363, R364): its members in ascending order, the instant at which the first queued segment
starts, once known, the members' positions and velocities there, and the queued segments. -/
structure PathRun where
  members : List Nat
  tStart : Option Nat
  start : List (Rat × Rat)
  segs : List PathSeg
  deriving DecidableEq, Repr

/-- Coordination state of an axis. -/
structure Coord where
  /-- a command waiting for `m_start` (R354) and the master position at the release before -/
  wait : Option (MotionCmd × Rat) := none
  gear : Option Gear := none
  cam : Option CamRun := none
  path : Option PathRun := none
  /-- the axis follows a path of this leader -/
  pathLeader : Option Nat := none
  limit : Bool := false
  masterStale : Bool := false
  starved : Bool := false
  /-- last report of a remote master: t_set, position, velocity, acceleration, raw, and when it arrived -/
  remote : Option (Nat × Int × Int × Int × Nat) := none
  deriving DecidableEq, Repr

/-- A milestone (Table 11.8), without its axis: stamp in 2⁻¹⁶ ns. -/
structure Milestone where
  stamp : Nat
  chan : Nat
  flags : Nat
  seq : Nat
  pos : Int
  vel : Int
  deriving DecidableEq, Repr

/-- An edge taken by a latch, waiting for the sample after it: stamp in 2⁻¹⁶ ns, rising, tick only. -/
structure PendEdge where
  stamp : Nat
  rising : Bool
  tickOnly : Bool
  deriving DecidableEq, Repr

/-- What `LATCH_ARM` asks for (Table 11.7). -/
structure LatchCfg where
  source : Nat := 0xFF
  edge : Nat := 0
  flags : Nat := 0
  lo : Int := 0
  hi : Int := 0
  deriving DecidableEq, Repr

/-- A latch (R370 to R372). -/
structure Latch where
  cfg : LatchCfg := {}
  /-- accepted, taken over at the first release at or after this instant -/
  arming : Option (Nat × LatchCfg) := none
  armed : Bool := false
  since : Nat := 0
  /-- the input has been inactive at some moment after arming (R261) -/
  seenInactive : Bool := false
  /-- edges taken, oldest first -/
  wait : List PendEdge := []
  /-- milestones, oldest first -/
  stones : List Milestone := []
  lost : Nat := 0
  lostRead : Nat := 0
  seq : Nat := 0
  deriving DecidableEq, Repr

/-- What `COMPARE_SET` asks for (Table 11.9). -/
structure CmpCfg where
  output : Nat := 0xFF
  action : Nat := 0
  flags : Nat := 0
  width : Nat := 0
  pos : Int := 0
  pitch : Int := 0
  count : Nat := 0
  deriving DecidableEq, Repr

/-- A compare channel (R373 to R377). -/
structure Compare where
  cfg : CmpCfg := {}
  /-- accepted, taken over at the first release at or after this instant -/
  setting : Option (Nat × CmpCfg) := none
  /-- `COMPARE_CLEAR` accepted: its instant and flag [0] -/
  clearing : Option (Nat × Bool) := none
  armed : Bool := false
  /-- compare position in force, raw -/
  pos : Int := 0
  /-- firings left of a counted periodic channel -/
  left : Option Nat := none
  /-- qualified direction: −1, 0 (either), 1 -/
  dir : Int := 0
  /-- position at the evaluation before, raw -/
  prev : Int := 0
  /-- the output is scheduled for this instant in ns; late -/
  sched : Option (Rat × Bool) := none
  /-- milestones that wait for the sample after their instant: instant in ns, flags -/
  wait : List (Rat × Nat) := []
  behind : Bool := false
  late : Bool := false
  finished : Bool := false
  fired : Nat := 0
  seq : Nat := 0
  deriving DecidableEq, Repr

/-! ### Loops (chapters 6 and 9) -/

/-- The values from which Byway has computed the coefficient set in force, as stored (R206, R287). -/
structure CoefSet where
  curbw : Nat := 0
  obsbw : Nat := 0
  curint : Nat := 0
  rs : Nat := 0
  ld : Nat := 0
  lq : Nat := 0
  psim : Nat := 0
  kacc : Nat := 0
  posbw : Nat := 0
  posint : Nat := 0
  posobsbw : Nat := 0
  vff : Nat := 0
  aff : Nat := 0
  deriving DecidableEq, Repr

/-- State of program 0x0001 (R199 to R216); FP32 values as rationals. -/
structure CurLoop where
  iD : Rat := 0
  iQ : Rat := 0
  eD : Rat := 0
  eQ : Rat := 0
  sD : Rat := 0
  sQ : Rat := 0
  /-- stationary-frame outputs of releases k−1 and k−2 -/
  v1 : Rat × Rat := (0, 0)
  v2 : Rat × Rat := (0, 0)
  /-- ĉ, decoupled command u′ and θ of the release before -/
  cD : Rat := 0
  cQ : Rat := 0
  uD : Rat := 0
  uQ : Rat := 0
  theta : Rat := 0
  omega : Rat := 0
  tau : Rat := 0
  voltLimited : Bool := false
  modLimited : Bool := false
  intHold : Bool := false
  angleValid : Bool := false
  angleCoarse : Bool := false
  offsetSkipped : Bool := false
  repeat_ : Bool := false
  late : Bool := false
  lateCnt : Nat := 0
  ioffA : Rat := 0
  ioffB : Rat := 0
  /-- working offset θ_w in rad -/
  thetaW : Rat := 0
  /-- alignment: step 0 (none), 1 or 2, its start, `VOLT_LIMITED` seen, position at its start -/
  alignStep : Nat := 0
  alignT0 : Nat := 0
  alignVolt : Bool := false
  alignP0 : Rat := 0
  alignLo : Option Rat := none
  alignHi : Rat := 0
  /-- consecutive samples at 0 or N³ per channel (R189) -/
  satA : Nat := 0
  satB : Nat := 0
  /-- calibration sums of the decimated values and their number (R190) -/
  calA : Nat := 0
  calB : Nat := 0
  calN : Nat := 0
  /-- sample count of the last release (R200) -/
  smp : Nat := 0
  /-- the restored state is more than one release old (R208) -/
  restored : Bool := false
  /-- a loss-of-synchronism condition held at the last release, and the tick of the release since which one has held at each (R216) -/
  los : Bool := false
  losSince : Option Nat := none
  /-- when the flags last were set, for the 100 ms rule of Table 6.9 -/
  voltAt : Option Nat := none
  modAt : Option Nat := none
  /-- mailbox values in use: u, L⁺, L⁻, v_ref, `LAW_OFF`; sequence word read last; a publish read ahead of its `take_at` -/
  u : Rat := 0
  lPos : Rat := 0
  lNeg : Rat := 0
  vRef : Rat := 0
  pRef : Int := 0
  takeAt : Nat := 0
  lawOff : Bool := true
  mboxSeq : Nat := 0
  /-- releases that found the current mailbox unchanged (R22) -/
  staleCnt : Nat := 0
  /-- compensation current of the last release; entries prefetched per table, with N, as index, E⁺, E⁻; misses -/
  iComp : Rat := 0
  preFric : Option (Nat × List (Nat × Rat × Rat)) := none
  preCog : Option (Nat × List (Nat × Rat × Rat)) := none
  tblMiss : Nat := 0
  tblMissed : Bool := false
  /-- stamp of the latest Hall edge when INIT began (R195) -/
  hallMark : Rat := 0
  deriving DecidableEq, Repr

/-- State of program 0x0003 and of Byway's supervision (R284 to R306). -/
structure PosLoop where
  /-- raw `pos64` -/
  pHat : Int := 0
  vHat : Rat := 0
  aHat : Rat := 0
  s : Rat := 0
  u1 : Rat := 0
  u2 : Rat := 0
  theta : Rat := 0
  lPos : Rat := 0
  lNeg : Rat := 0
  /-- m of R282: δ = m T_c -/
  m : Nat := 1
  err : Rat := 0
  /-- the reference at the sample, raw `pos64` -/
  pRef : Int := 0
  sat : Bool := false
  satDir : Rat := 0
  intHold : Bool := false
  regen : Bool := false
  i2t : Bool := false
  stand : Bool := false
  /-- tick since which the condition of standstill has held (R303) -/
  standSince : Option Nat := none
  /-- tick since which u has been clamped at standstill (R346) -/
  satStill : Option Nat := none
  staleSp : Bool := false
  staleCur : Bool := false
  feWarn : Bool := false
  tblMiss : Bool := false
  netValid : Bool := false
  staleCnt : Nat := 0
  /-- setpoint in use: t_set, p, v, a raw, flags; sequence read last and when it last changed -/
  tSet : Nat := 0
  pSet : Int := 0
  vSet : Int := 0
  aSet : Int := 0
  noSource : Bool := true
  mboxSeq : Nat := 0
  spSince : Nat := 0
  /-- sequence word of the current mailbox as its reader saw it last, and when it last changed (R292) -/
  curSeq : Nat := 0
  curSince : Nat := 0
  satAt : Option Nat := none
  warnAt : Option Nat := none
  overspeed : Nat := 0
  /-- beyond a software limit: 0, 1 positive, 2 negative -/
  sw : Nat := 0
  /-- group state x̂ and integral, held by the leader -/
  x : List Rat := []
  deriving DecidableEq, Repr

/-- Chopper states (Table 10.9); `DECAY` in its fast and in its slow part. -/
inductive ChopState where
  | drive | decayFast | decaySlow | zero | off
  deriving DecidableEq, Repr

/-- The chopper of one winding. -/
structure Chop where
  st : ChopState := .off
  /-- d = −1 -/
  neg : Bool := false
  /-- carrier tick at which `DRIVE` was entered -/
  at_ : Nat := 0
  /-- `AX.CHOPTOFF` has elapsed in `DECAY` -/
  offDone : Bool := false
  /-- held in slow decay by the refresh of R330 -/
  hold : Bool := false
  deriving DecidableEq, Repr

/-- Stepper state of an axis (R326 to R338). -/
structure Stepper where
  coasting : Bool := false
  catchValid : Bool := false
  loadValid : Bool := false
  /-- stall conditions of R338 hold: load indicator, back-EMF -/
  stalled : Bool := false
  /-- ticks since which each of them has held (R338) -/
  stallLi : Option Nat := none
  stallEmf : Option Nat := none
  holdReduced : Bool := false
  refresh : Bool := false
  /-- a catch is running, for a start command (true) or for energising (false) -/
  catching : Option Bool := none
  /-- samples of the running catch, newest first: back-EMF of windings 1 and 2, saturated, time in s -/
  samples : List (Rat × Rat × Bool × Rat) := []
  /-- line time at which the window began; once it has ended, at which it ended -/
  catchT0 : Nat := 0
  /-- position and velocity at its end from a valid catch, which the waiting command starts from (R336) -/
  caught : Option (Rat × Rat) := none
  i1 : Rat := 0
  i2 : Rat := 0
  o1 : Rat := 0
  o2 : Rat := 0
  d1 : Int := 0
  d2 : Int := 0
  load : Rat := 0
  /-- consecutive releases of the open-winding condition per winding (R333) -/
  open1 : Nat := 0
  open2 : Nat := 0
  /-- angle at which INIT applies current -/
  initAngle : Rat := 0
  deriving DecidableEq, Repr

/-- What the remote drive of a `NET` axis reported (R307 to R309). -/
structure NetAxis where
  ready : Bool := false
  enabled : Bool := false
  /-- its 16-bit fault code while it reports a fault -/
  fault : Option Nat := none
  /-- its DC bus flag (R307, R318) -/
  regen : Bool := false
  /-- sample tag, position, velocity as exchanged, raw -/
  t : Nat := 0
  pos : Int := 0
  vel : Int := 0
  /-- Δ of R345, counts -/
  offset : Rat := 0
  /-- consecutive cycles without a valid report -/
  missed : Nat := 0
  /-- fault acknowledge in the next setpoint -/
  ack : Bool := false
  /-- a valid report came in the present cycle -/
  got : Bool := false
  /-- this axis is the remote axis of a committed `NET` axis elsewhere (R443): its record, as t_eff, p, v, a raw, and its limits,
  enable and quick-stop bits -/
  owned : Option (Nat × Int × Int × Int) := none
  ownLim : Nat × Nat := (0, 0)
  ownEnable : Bool := false
  ownQuick : Bool := false
  /-- the last 64 setpoints sent: t_eff, position and velocity raw, newest first (R307) -/
  sent : List (Nat × Int × Int) := []
  deriving DecidableEq, Repr

/-- An output of the compares: GPIO00 to GPIO31, then `EMUn` A, B, Z (R377). -/
structure CmpOut where
  /-- some channel has named it -/
  used : Bool := false
  level : Bool := false
  /-- pulses active on it: axis, channel, and the ns of line time in which the pulse ends -/
  pulses : List (Nat × Nat × Nat) := []
  activeLow : Bool := false
  /-- the last level action: instant, axis, channel, level before it -/
  last : Option (Rat × Nat × Nat × Bool) := none
  deriving DecidableEq, Repr

/-- An open table load (R301): table, axis, cam, total, data so far. -/
structure TableLoad where
  table : Nat
  axis : Nat
  cam : Nat
  total : Nat
  data : List Byte
  src : Src
  sid : Nat
  /-- complete: waits for activation, which this completes -/
  ref : Option CmdRef := none
  deriving DecidableEq, Repr

/-- Compensation, group and cam tables in use, by axis or cam number, as their bytes (R297, R301, R359). -/
structure Tables where
  fric : List (Nat × List Byte) := []
  cog : List (Nat × List Byte) := []
  group : List (Nat × List Byte) := []
  cams : List (Nat × List Byte) := []
  loads : List TableLoad := []
  deriving DecidableEq, Repr

end Sys2Proof.Machine
end

