-- ==== Sys2Proof/Machine/Profile.lean ====
section
/-!
DEFINITION. The profile generator as functions of exact rationals: bands, plans and their evaluation (R311 to R320). Speeds are
in counts/s, accelerations in counts/s², times in s; instants are in ns.
-/
namespace Sys2Proof.Machine

/-- The limits of one motion (R313); decelerations are scaled already (R318), jumps lowered already. -/
structure Bands where
  vstart : Rat
  vstop : Rat
  v1 : Rat
  a1 : Rat
  amax : Rat
  dmax : Rat
  d1 : Rat
  qstop : Rat
  vmax : Rat

/-- A stretch of constant acceleration in speed space: speed at its start, acceleration, duration, `SEGMENT` code. -/
structure Piece where
  u : Rat
  a : Rat
  dur : Rat
  code : Nat

/-- Rising speed from `u` to `w` (R313). -/
def Bands.up (b : Bands) (u w : Rat) : List Piece :=
  if w ≤ u then []
  else if b.v1 = 0 ∨ b.v1 ≤ u then [⟨u, b.amax, (w - u) / b.amax, 2⟩]
  else if w ≤ b.v1 then [⟨u, b.a1, (w - u) / b.a1, 1⟩]
  else [⟨u, b.a1, (b.v1 - u) / b.a1, 1⟩, ⟨b.v1, b.amax, (w - b.v1) / b.amax, 2⟩]

/-- Falling speed from `u` to `w` (R313). -/
def Bands.down (b : Bands) (u w : Rat) : List Piece :=
  if u ≤ w then []
  else if b.v1 = 0 ∨ b.v1 ≤ w then [⟨u, -b.dmax, (u - w) / b.dmax, 4⟩]
  else if u ≤ b.v1 then [⟨u, -b.d1, (u - w) / b.d1, 5⟩]
  else [⟨u, -b.dmax, (u - b.v1) / b.dmax, 4⟩, ⟨b.v1, -b.d1, (b.v1 - w) / b.d1, 5⟩]

/-- Distance of a stretch. -/
def Piece.dist (x : Piece) : Rat := x.u * x.dur + x.a * x.dur * x.dur / 2

def distOf (l : List Piece) : Rat := (l.map Piece.dist).foldl (· + ·) 0

/-- s_dec(v) of R313: 0 at and below VSTOP. -/
def Bands.sDec (b : Bands) (v : Rat) : Rat := distOf (b.down v b.vstop)

/-- s_acc(v_a, v_b) of R313. -/
def Bands.sAcc (b : Bands) (u w : Rat) : Rat := distOf (b.up u w)

/-- The speed reached when accelerating from `u` over distance `d`. -/
def Bands.accInv (b : Bands) (u d : Rat) : Rat :=
  if b.v1 = 0 ∨ b.v1 ≤ u then ratSqrt (u * u + 2 * b.amax * d)
  else if d ≤ b.sAcc u b.v1 then ratSqrt (u * u + 2 * b.a1 * d)
  else ratSqrt (b.v1 * b.v1 + 2 * b.amax * (d - b.sAcc u b.v1))

/-- The peak v_p of R316: s_acc(u, v_p) + s_dec(v_p) = d. -/
def Bands.peak (b : Bands) (u d : Rat) : Rat :=
  let sq (x : Rat) := x * x
  if b.v1 = 0 then ratSqrt ((2 * d + sq u / b.amax + sq b.vstop / b.dmax) / (1 / b.amax + 1 / b.dmax))
  else if b.v1 ≤ u then
    ratSqrt ((2 * (d - b.sDec b.v1) + sq u / b.amax + sq b.v1 / b.dmax) / (1 / b.amax + 1 / b.dmax))
  else if d ≤ b.sAcc u b.v1 + b.sDec b.v1 then
    ratSqrt ((2 * d + sq u / b.a1 + sq b.vstop / b.d1) / (1 / b.a1 + 1 / b.d1))
  else
    ratSqrt ((2 * (d - b.sAcc u b.v1 - b.sDec b.v1) + sq b.v1 / b.amax + sq b.v1 / b.dmax)
      / (1 / b.amax + 1 / b.dmax))

/-- A plan under construction: time and position reached, segments in order. -/
structure Build where
  t : Rat := 0
  p : Rat
  segs : List Seg := []

/-- Append stretches in direction `σ`. -/
def Build.run (b : Build) (σ : Rat) (l : List Piece) : Build :=
  l.foldl (fun b x =>
    if x.dur ≤ 0 then b
    else { t := b.t + x.dur, p := b.p + σ * x.dist
           segs := b.segs ++ [{ t := b.t, p := b.p, v := σ * x.u, a := σ * x.a, dur := x.dur, code := x.code }] }) b

/-- Deceleration from speed `u` to rest: through the bands, or with QSTOPDEC alone (R320). -/
def Bands.halt (b : Bands) (quick : Bool) (u : Rat) : List Piece :=
  if quick then (if u ≤ b.vstop then [] else [⟨u, -b.qstop, (u - b.vstop) / b.qstop, 6⟩]) else b.down u b.vstop

/-- The shape of R316 over distance `d` from speed `u`; from rest the start jump of R313 comes first. -/
def Bands.shape (b : Bands) (u d : Rat) (rest : Bool) : List Piece :=
  let u0 := if rest then b.vstart else u
  if rest ∧ b.vstop < b.vstart ∧ d < b.sDec b.vstart then [⟨u0, 0, d / u0, 3⟩]
  else
    let l0 := b.down u0 b.vmax
    let u := ratMin u0 b.vmax
    let d := d - distOf l0
    l0 ++
      (if b.sAcc u b.vmax + b.sDec b.vmax ≤ d then
        b.up u b.vmax ++ [⟨b.vmax, 0, (d - b.sAcc u b.vmax - b.sDec b.vmax) / b.vmax, 3⟩] ++ b.down b.vmax b.vstop
      else if u < b.vstop ∧ d ≤ b.sAcc u b.vstop then b.up u (b.accInv u d)
      else
        let vp := ratMax u (b.peak u d)
        b.up u vp ++ b.down vp b.vstop)

/-- A positioning move to `target` from position `p0` and velocity `v0` (R315 to R317). -/
def Bands.move (b : Bands) (kind : PlanKind) (t0 p0 v0 target : Rat) (scaled : Bool) : Plan :=
  let d := target - p0
  let u := ratAbs v0
  let fin (x : Build) (rev : Option Rat) (past : Rat) : Plan :=
    { kind := kind, t0 := t0, segs := x.segs, endP := target, endV := 0, revAt := rev, switchback := rev.isSome,
      overshoot := past, scaled := scaled }
  if d = 0 ∧ u ≤ b.vstop then fin { p := p0 } none 0
  else if v0 = 0 ∨ (ratSign v0 = ratSign d ∧ b.sDec u ≤ ratAbs d) then
    fin (({ p := p0 } : Build).run (ratSign d) (b.shape u (ratAbs d) (decide (v0 = 0)))) none 0
  else
    let x := ({ p := p0 } : Build).run (ratSign v0) (b.halt false u)
    let d2 := target - x.p
    let y := if d2 = 0 then x else x.run (ratSign d2) (b.shape 0 (ratAbs d2) true)
    fin y (some x.t) ((x.p - target) * ratSign v0)

/-- A ramp to velocity `vt` (R315, R319). -/
def Bands.velocity (b : Bands) (kind : PlanKind) (t0 p0 v0 vt : Rat) (scaled : Bool) : Plan :=
  let u := ratAbs v0
  let turn := decide (v0 ≠ 0) && decide (ratSign v0 ≠ ratSign vt)
  let x := if turn then ({ p := p0 } : Build).run (ratSign v0) (b.halt false u) else { p := p0 }
  let w := ratAbs vt
  let u1 := if v0 = 0 ∨ turn then ratMin b.vstart w else u
  let y := x.run (ratSign vt) (if u1 ≤ w then b.up u1 w else b.down u1 w)
  { kind := kind, t0 := t0, segs := y.segs, endP := y.p, endV := vt, scaled := scaled }

/-- A stop (R320). -/
def Bands.stop (b : Bands) (kind : PlanKind) (quick : Bool) (t0 p0 v0 : Rat) (scaled : Bool) : Plan :=
  let x := ({ p := p0 } : Build).run (ratSign v0) (b.halt quick (ratAbs v0))
  { kind := kind, t0 := t0, segs := x.segs, endP := x.p, endV := 0, scaled := scaled }

/-- Duration of a plan in s. -/
def Plan.dur (p : Plan) : Rat := ((p.segs.getLast?).map (fun g => g.t + g.dur)).getD 0

/-- Time in the plan at an instant, in s. -/
def Plan.tau (p : Plan) (t : Rat) : Rat := ratMax 0 ((t - p.t0) / 1000000000)

/-- The plan has ended by instant `t`. -/
def Plan.ended (p : Plan) (t : Rat) : Bool := decide (p.dur ≤ p.tau t)

/-- The segment in force at an instant. -/
def Plan.seg? (p : Plan) (t : Rat) : Option Seg := p.segs.find? (fun g => decide (p.tau t < g.t + g.dur))

/-- Position, velocity and acceleration at instant `t` (R311). -/
def Plan.at (p : Plan) (t : Rat) : Rat × Rat × Rat :=
  match p.seg? t with
  | some g =>
    let x := p.tau t - g.t
    (g.p + g.v * x + g.a * x * x / 2, g.v + g.a * x, g.a)
  | none => (p.endP + p.endV * (p.tau t - p.dur), p.endV, 0)

/-- A plan that holds a position. -/
def Plan.holdAt (t0 p : Rat) : Plan := { kind := .hold, t0 := t0, endP := p }

/-- Shift a plan by Δ (R345). -/
def Plan.shift (p : Plan) (d : Rat) : Plan :=
  { p with
    segs := p.segs.map (fun g => { g with p := g.p + d }), endP := p.endP + d
    kind := match p.kind with
      | .move x => .move (x + d)
      | .homeMove x => .homeMove (x + d)
      | k => k }

end Sys2Proof.Machine
end

