-- ==== Sys2Proof/Machine/Bytes.lean ====
section
/-!
DEFINITION. Little-endian fields of packets, parameters and tables (R1), and the CRC-32C of R79.
-/
namespace Sys2Proof.Machine

/-- The `k` little-endian bytes of `n` (R1). -/
def leBytes : Nat → Nat → List Byte
  | 0, _ => []
  | k + 1, n => BitVec.ofNat 8 n :: leBytes k (n / 256)

/-- The number that little-endian bytes spell. -/
def leNat : List Byte → Nat
  | [] => 0
  | b :: bs => b.toNat + 256 * leNat bs

/-- The unsigned field of `k` bytes at offset `o` of a payload; bytes beyond its end read 0. -/
def field (p : List Byte) (o k : Nat) : Nat := leNat ((p.drop o).take k)

def u8 (p : List Byte) (o : Nat) : Nat := field p o 1
def u16 (p : List Byte) (o : Nat) : Nat := field p o 2
def u32 (p : List Byte) (o : Nat) : Nat := field p o 4
def u64 (p : List Byte) (o : Nat) : Nat := field p o 8
def i32 (p : List Byte) (o : Nat) : Int := signed 32 (u32 p o)
def i64 (p : List Byte) (o : Nat) : Int := signed 64 (u64 p o)
def fp (p : List Byte) (o : Nat) : Word := BitVec.ofNat 32 (u32 p o)

/-- `k` bytes of a signed value. -/
def leInt (k : Nat) (i : Int) : List Byte := leBytes k (unsigned (8 * k) i)

def zeros (n : Nat) : List Byte := List.replicate n 0#8

/-- Every byte is zero. -/
def allZero (p : List Byte) : Bool := p.all (· == 0#8)

/-- The bytes from `o`, `k` of them, are all zero (reserved fields, R9). -/
def rsvZero (p : List Byte) (o k : Nat) : Bool := allZero ((p.drop o).take k)

/-- One bit of a number. -/
def bit (n i : Nat) : Bool := n / 2 ^ i % 2 == 1

/-- Bits [hi:lo] of a number. -/
def bits (n hi lo : Nat) : Nat := n / 2 ^ lo % 2 ^ (hi - lo + 1)

def b2n (b : Bool) : Nat := if b then 1 else 0

/-- The number whose bit n is the n-th Boolean. -/
def ofBools : List Bool → Nat
  | [] => 0
  | b :: bs => b2n b + 2 * ofBools bs

/-- One shift of the reflected CRC-32C register (R79). -/
def crcShift (c : Word) : Word :=
  if c.getLsbD 0 then (c >>> 1) ^^^ 0x82F63B78#32 else c >>> 1

def crcByte (c : Word) (b : Byte) : Word :=
  (List.range 8).foldl (fun c _ => crcShift c) (c ^^^ b.setWidth 32)

/-- CRC-32C of bytes in address order (R79). -/
def crc32c (p : List Byte) : Word := (p.foldl crcByte 0xFFFFFFFF#32) ^^^ 0xFFFFFFFF#32

/-- Pad with zeros to a multiple of 4 (Table 3.25). -/
def pad4 (p : List Byte) : List Byte := p ++ zeros ((4 - p.length % 4) % 4)

end Sys2Proof.Machine
end

