-- ==== Sys2Proof/Machine/Sparse.lean ====
section
/-!
DEFINITION. Sparse data in one canonical form: lists of (key, value) with strictly rising keys; memories as lists of
`Host.Cell` in which no listed byte is 0, the value an unlisted address reads as (log 8). And updates of vectors by index.
-/
namespace Sys2Proof.Machine

/-- The value at a key, if listed. -/
def assocGet? {α : Type} : List (Nat × α) → Nat → Option α
  | [], _ => none
  | (k', v) :: m, k => if k = k' then some v else assocGet? m k

/-- List `v` at key `k`, keeping the keys strictly rising. -/
def assocSet {α : Type} : List (Nat × α) → Nat → α → List (Nat × α)
  | [], k, v => [(k, v)]
  | (k', v') :: m, k, v =>
    if k < k' then (k, v) :: (k', v') :: m
    else if k = k' then (k, v) :: m
    else (k', v') :: assocSet m k v

/-- Drop the entry of key `k`. -/
def assocErase {α : Type} : List (Nat × α) → Nat → List (Nat × α)
  | [], _ => []
  | (k', v') :: m, k => if k = k' then m else (k', v') :: assocErase m k

/-- The keys rise strictly. -/
def assocSorted {α : Type} : List (Nat × α) → Bool
  | [] => true
  | [_] => true
  | (k, _) :: (k', v') :: m => decide (k < k') && assocSorted ((k', v') :: m)

/-- A memory: listed bytes, every other byte reads 0. -/
abbrev Memory := List Host.Cell

/-- Read one byte of a memory. -/
def Memory.read (m : Memory) (a : Nat) : Byte := (assocGet? m a).getD 0#8

/-- Write one byte, keeping the canonical form. -/
def Memory.write (m : Memory) (a : Nat) (b : Byte) : Memory :=
  if b = 0#8 then assocErase m a else assocSet m a b

/-- Read `n` bytes from address `a`. -/
def Memory.readN (m : Memory) (a : Nat) : Nat → List Byte
  | 0 => []
  | n + 1 => m.read a :: Memory.readN m (a + 1) n

/-- Write bytes from address `a`. -/
def Memory.writeN (m : Memory) (a : Nat) : List Byte → Memory
  | [] => m
  | b :: bs => Memory.writeN (m.write a b) (a + 1) bs

/-- Erase every listed byte of `[lo, hi)`. -/
def Memory.clear (m : Memory) (lo hi : Nat) : Memory :=
  m.filter (fun c => !(decide (lo ≤ c.1) && decide (c.1 < hi)))

/-- The canonical form: addresses strictly rising, no listed byte 0. -/
def Memory.wf (m : Memory) : Bool := assocSorted m && m.all (fun c => c.2 != 0#8)

/-- Apply `f` to one entry of a vector. -/
def upd {α : Type} {n : Nat} (v : Vector α n) (i : Fin n) (f : α → α) : Vector α n :=
  v.set i (f v[i])

/-- Apply `f` to one entry of a list, if there is one. -/
def updL {α : Type} : List α → Nat → (α → α) → List α
  | [], _, _ => []
  | x :: xs, 0, f => f x :: xs
  | x :: xs, n + 1, f => x :: updL xs n f

/-- The number as an index below `n`, if it is one. -/
def fin? (n k : Nat) : Option (Fin n) := if h : k < n then some ⟨k, h⟩ else none

end Sys2Proof.Machine
end

