-- ==== Sys2Proof/Machine/Params.lean ====
section
/-!
DEFINITION. The parameter catalogue: every `AX`, `PT`, `DV` and `SF` parameter of the spec's parameter tables with its index,
width, range, default and change kind (R13, R125; Tables 1.5, 3.9, 4.6, 5.16, 6.1, 6.7, 7.12, 7.14, 7.15, 8.3, 8.4, 9.8 to
9.10, 10.1, 10.14, 10.16, 11.10, 11.11, 12.9 to 12.11, 13.14, 13.15, 14.16, 14.17, 15.5, 16.9, 17.11).
-/
namespace Sys2Proof.Machine

/-- Parameter families (R13). -/
inductive PFam where
  | ax | pt | dv | sf
  deriving DecidableEq, Repr

/-- How a parameter may change (R13). -/
inductive PChange where
  | live | draft | readOnly | sealed
  deriving DecidableEq, Repr

/-- The values a parameter accepts. -/
inductive PRange where
  /-- every value -/
  | any
  /-- unsigned, `lo` to `hi` -/
  | nat (lo hi : Nat)
  /-- unsigned, `lo` to `hi`, or the one value `other` -/
  | natOr (lo hi other : Nat)
  /-- unsigned, `lo` to `hi`, a multiple of `step` -/
  | natStep (lo hi step : Nat)
  /-- two's complement of `w` bits -/
  | int (w : Nat) (lo hi : Int)
  /-- array of `n` signed 32-bit words -/
  | ints (n : Nat) (lo hi : Int)
  /-- FP32 -/
  | fp (lo hi : Rat)
  /-- array of `n` FP32 -/
  | fps (n : Nat) (lo hi : Rat)
  /-- array of `n` unsigned items of `w` bytes, each `lo` to `hi` or `other` -/
  | words (w n lo hi other : Nat)
  /-- no bit outside the mask -/
  | mask (m : Nat)
  /-- a rule of its own (`customRange`) -/
  | custom (n : Nat)
  deriving DecidableEq, Repr

/-- One catalogue row; a row with a stride stands for `cnt` parameters at `idx + stride × n`. -/
structure PDef where
  fam : PFam
  idx : Nat
  stride : Nat
  cnt : Nat
  width : Nat
  range : PRange
  dflt : Nat
  dfltStep : Nat
  chg : PChange
  deriving DecidableEq, Repr

/-- The FP32 nearest to π, the bound of angle parameters. -/
def fpPi : Rat := mkRat 13176795 4194304

namespace P

/-- `AX.BINDKIND` (index 0x0000, u8). -/
def axBindkind : PDef := ⟨.ax, 0x0000, 0, 1, 1, .nat 0 4, 0, 0, .draft⟩

/-- `AX.PORT` (index 0x0001, u8). -/
def axPort : PDef := ⟨.ax, 0x0001, 0, 1, 1, .natOr 0 63 0xFF, 0xFF, 0, .draft⟩

/-- `AX.NETKIND` (index 0x0002, u8). -/
def axNetkind : PDef := ⟨.ax, 0x0002, 0, 1, 1, .nat 0 2, 0, 0, .draft⟩

/-- `AX.NETADDR` (index 0x0003, u32). -/
def axNetaddr : PDef := ⟨.ax, 0x0003, 0, 1, 4, .mask 0x0FFFFF7F, 0, 0, .draft⟩

/-- `AX.SPPERIOD` (index 0x0004, u32). -/
def axSpperiod : PDef := ⟨.ax, 0x0004, 0, 1, 4, .natStep 5000 4000000 5, 125000, 0, .draft⟩

/-- `AX.USERTAG` (index 0x0008, u32). -/
def axUsertag : PDef := ⟨.ax, 0x0008, 0, 1, 4, .any, 0, 0, .live⟩

/-- `AX.STATE` (index 0x0009, u16). -/
def axState : PDef := ⟨.ax, 0x0009, 0, 1, 2, .any, 0, 0, .readOnly⟩

/-- `DV.RSTCAUSE` (index 0x0010, u32). -/
def dvRstcause : PDef := ⟨.dv, 0x0010, 0, 1, 4, .any, 0, 0, .readOnly⟩

/-- `DV.RSTCOUNT` (index 0x0011, u32). -/
def dvRstcount : PDef := ⟨.dv, 0x0011, 0, 1, 4, .any, 0, 0, .readOnly⟩

/-- `DV.BWRESTARTS` (index 0x0012, u32). -/
def dvBwrestarts : PDef := ⟨.dv, 0x0012, 0, 1, 4, .any, 0, 0, .readOnly⟩

/-- `DV.SESSTMO` (index 0x02F0, u16). -/
def dvSesstmo : PDef := ⟨.dv, 0x02F0, 0, 1, 2, .natOr 1 60000 0, 0, 0, .live⟩

/-- `DV.SESSLOSS` (index 0x02F1, u8). -/
def dvSessloss : PDef := ⟨.dv, 0x02F1, 0, 1, 1, .nat 0 4, 2, 0, .live⟩

/-- `DV.HSCOUNT` (index 0x0600, u8). -/
def dvHscount : PDef := ⟨.dv, 0x0600, 0, 1, 1, .nat 0 4, 2, 0, .draft⟩

/-- `DV.ADMMARGIN` (index 0x0601, u8). -/
def dvAdmmargin : PDef := ⟨.dv, 0x0601, 0, 1, 1, .nat 0 50, 5, 0, .draft⟩

/-- `DV.LESERVICE` (index 0x0602, u32). -/
def dvLeservice : PDef := ⟨.dv, 0x0602, 0, 1, 4, .any, 0, 0, .readOnly⟩

/-- `DV.LESHOULDER` (index 0x0603, u32). -/
def dvLeshoulder : PDef := ⟨.dv, 0x0603, 0, 1, 4, .any, 0, 0, .readOnly⟩

/-- `DV.CFGGEN` (index 0x0604, u32). -/
def dvCfggen : PDef := ⟨.dv, 0x0604, 0, 1, 4, .any, 0, 0, .readOnly⟩

/-- `DV.USERTASKS` (index 0x0610, u16[16], 32 bytes). -/
def dvUsertasks : PDef := ⟨.dv, 0x0610, 0, 1, 32, .words 2 16 0x0100 0x7FFF 0, 0, 0, .draft⟩

/-- `PT.SDDIV` (index 0x0300, u8). -/
def ptSddiv : PDef := ⟨.pt, 0x0300, 0, 1, 1, .nat 16 40, 16, 0, .draft⟩

/-- `PT.SDOSR` (index 0x0301, u8). -/
def ptSdosr : PDef := ⟨.pt, 0x0301, 0, 1, 1, .natStep 4 32 2, 8, 0, .draft⟩

/-- `PT.QUIETWIN` (index 0x0302, u16). -/
def ptQuietwin : PDef := ⟨.pt, 0x0302, 0, 1, 2, .natOr 16 8000 0, 0, 0, .live⟩

/-- `PT.SDEDGE` (index 0x0303, u8). -/
def ptSdedge : PDef := ⟨.pt, 0x0303, 0, 1, 1, .nat 0 1, 0, 0, .draft⟩

/-- `PT.SDDECDLY` (index 0x0304, u16). -/
def ptSddecdly : PDef := ⟨.pt, 0x0304, 0, 1, 2, .any, 0, 0, .readOnly⟩

/-- `PT.MODLIM` (index 0x0305, FP32). -/
def ptModlim : PDef := ⟨.pt, 0x0305, 0, 1, 4, .any, 0, 0, .readOnly⟩

/-- `AX.CURPROG` (index 0x0200, u16). -/
def axCurprog : PDef := ⟨.ax, 0x0200, 0, 1, 2, .natOr 0x0100 0x7FFF 0, 0, 0, .draft⟩

/-- `AX.POLEPAIRS` (index 0x0201, u8). -/
def axPolepairs : PDef := ⟨.ax, 0x0201, 0, 1, 1, .nat 1 64, 4, 0, .draft⟩

/-- `AX.RS` (index 0x0202, FP32). -/
def axRs : PDef := ⟨.ax, 0x0202, 0, 1, 4, .fp (mkRat (8589935) 8589934592) 100, 0x3f800000, 0, .live⟩

/-- `AX.LD` (index 0x0203, FP32). -/
def axLd : PDef := ⟨.ax, 0x0203, 0, 1, 4, .fp (mkRat (8796093) 8796093022208) 1, 0x3a83126f, 0, .live⟩

/-- `AX.LQ` (index 0x0204, FP32). -/
def axLq : PDef := ⟨.ax, 0x0204, 0, 1, 4, .fp (mkRat (8796093) 8796093022208) 1, 0x3a83126f, 0, .live⟩

/-- `AX.PSIM` (index 0x0205, FP32). -/
def axPsim : PDef := ⟨.ax, 0x0205, 0, 1, 4, .fp 0 10, 0x3d4ccccd, 0, .live⟩

/-- `AX.ISCALE` (index 0x0206, FP32). -/
def axIscale : PDef := ⟨.ax, 0x0206, 0, 1, 4, .fp (mkRat (5368709) 536870912) 10000, 0x42c80000, 0, .live⟩

/-- `AX.IOFFMAX` (index 0x0207, FP32). -/
def axIoffmax : PDef := ⟨.ax, 0x0207, 0, 1, 4, .fp 0 1000, 0x3f800000, 0, .live⟩

/-- `AX.CURBW` (index 0x0208, FP32). -/
def axCurbw : PDef := ⟨.ax, 0x0208, 0, 1, 4, .fp 10 20000, 0x447a0000, 0, .live⟩

/-- `AX.OBSBW` (index 0x0209, FP32). -/
def axObsbw : PDef := ⟨.ax, 0x0209, 0, 1, 4, .fp 10 50000, 0x453b8000, 0, .live⟩

/-- `AX.CURINT` (index 0x020A, FP32). -/
def axCurint : PDef := ⟨.ax, 0x020A, 0, 1, 4, .fp 0 5000, 0x43480000, 0, .live⟩

/-- `AX.ANGLESRC` (index 0x020B, u8). -/
def axAnglesrc : PDef := ⟨.ax, 0x020B, 0, 1, 1, .nat 0 1, 0, 0, .draft⟩

/-- `AX.ANGLEINIT` (index 0x020C, u8). -/
def axAngleinit : PDef := ⟨.ax, 0x020C, 0, 1, 1, .nat 0 2, 0, 0, .draft⟩

/-- `AX.ANGLEOFF` (index 0x020D, FP32). -/
def axAngleoff : PDef := ⟨.ax, 0x020D, 0, 1, 4, .fp (-(fpPi)) fpPi, 0, 0, .live⟩

/-- `AX.HALLOFF` (index 0x020E, FP32). -/
def axHalloff : PDef := ⟨.ax, 0x020E, 0, 1, 4, .fp (-(fpPi)) fpPi, 0, 0, .live⟩

/-- `AX.ANGLELAT` (index 0x020F, u32). -/
def axAnglelat : PDef := ⟨.ax, 0x020F, 0, 1, 4, .nat 0 100000, 0, 0, .live⟩

/-- `AX.ALIGNCUR` (index 0x0210, FP32). -/
def axAligncur : PDef := ⟨.ax, 0x0210, 0, 1, 4, .fp 0 1000, 0x3f800000, 0, .live⟩

/-- `AX.ALIGNTIME` (index 0x0211, u32). -/
def axAligntime : PDef := ⟨.ax, 0x0211, 0, 1, 4, .nat 20000000 4000000000, 500000000, 0, .live⟩

/-- `AX.ALIGNSETTLE` (index 0x0212, u32). -/
def axAlignsettle : PDef := ⟨.ax, 0x0212, 0, 1, 4, .nat 0 65535, 16, 0, .live⟩

/-- `AX.DTCOMP` (index 0x0213, u8). -/
def axDtcomp : PDef := ⟨.ax, 0x0213, 0, 1, 1, .nat 0 1, 1, 0, .live⟩

/-- `AX.IMAXTRIP` (index 0x0214, FP32). -/
def axImaxtrip : PDef := ⟨.ax, 0x0214, 0, 1, 4, .fp (mkRat (13421773) 134217728) 10000, 0x41a00000, 0, .live⟩

/-- `AX.LOSINNOV` (index 0x0215, FP32). -/
def axLosinnov : PDef := ⟨.ax, 0x0215, 0, 1, 4, .fp 0 10000, 0x40a00000, 0, .live⟩

/-- `AX.LOSANGLE` (index 0x0216, FP32). -/
def axLosangle : PDef := ⟨.ax, 0x0216, 0, 1, 4, .fp 0 fpPi, 0x3f800000, 0, .live⟩

/-- `AX.LOSMINSPD` (index 0x0217, FP32). -/
def axLosminspd : PDef := ⟨.ax, 0x0217, 0, 1, 4, .fp 0 1000000, 0x43480000, 0, .live⟩

/-- `AX.LOSTIME` (index 0x0218, u32). -/
def axLostime : PDef := ⟨.ax, 0x0218, 0, 1, 4, .nat 0 1000000000, 2000000, 0, .live⟩

/-- `AX.LOSCLASS` (index 0x0219, u8). -/
def axLosclass : PDef := ⟨.ax, 0x0219, 0, 1, 1, .nat 1 6, 4, 0, .live⟩

/-- `AX.VBUSSRC` (index 0x021A, u8). -/
def axVbussrc : PDef := ⟨.ax, 0x021A, 0, 1, 1, .nat 0 2, 0, 0, .draft⟩

/-- `AX.VBUSSCALE` (index 0x021B, FP32). -/
def axVbusscale : PDef := ⟨.ax, 0x021B, 0, 1, 4, .fp 1 10000, 0x447a0000, 0, .live⟩

/-- `AX.VBUSMIN` (index 0x021C, FP32). -/
def axVbusmin : PDef := ⟨.ax, 0x021C, 0, 1, 4, .fp 1 1000, 0x41200000, 0, .live⟩

/-- `AX.OFFCALVEL` (index 0x021D, FP32). -/
def axOffcalvel : PDef := ⟨.ax, 0x021D, 0, 1, 4, .fp 0 1000000, 0x42480000, 0, .live⟩

/-- `AX.SDFLTCNT` (index 0x021E, u8). -/
def axSdfltcnt : PDef := ⟨.ax, 0x021E, 0, 1, 1, .nat 1 255, 4, 0, .live⟩

/-- `AX.CURSTAT` (index 0x021F, u32). -/
def axCurstat : PDef := ⟨.ax, 0x021F, 0, 1, 4, .any, 0, 0, .readOnly⟩

/-- `AX.IOFFA` (index 0x0220, FP32). -/
def axIoffa : PDef := ⟨.ax, 0x0220, 0, 1, 4, .any, 0x0, 0, .readOnly⟩

/-- `AX.IOFFB` (index 0x0221, FP32). -/
def axIoffb : PDef := ⟨.ax, 0x0221, 0, 1, 4, .any, 0x0, 0, .readOnly⟩

/-- `AX.ANGLEW` (index 0x0222, FP32). -/
def axAnglew : PDef := ⟨.ax, 0x0222, 0, 1, 4, .any, 0x0, 0, .readOnly⟩

/-- `PT.KIND` (index 0x0000, u8). -/
def ptKind : PDef := ⟨.pt, 0x0000, 0, 1, 1, .nat 0 3, 0, 0, .draft⟩

/-- `PT.CARRIER` (index 0x0001, u8). -/
def ptCarrier : PDef := ⟨.pt, 0x0001, 0, 1, 1, .nat 0 1, 0, 0, .draft⟩

/-- `PT.PERIOD` (index 0x0002, u32). -/
def ptPeriod : PDef := ⟨.pt, 0x0002, 0, 1, 4, .nat 2000 100000, 20000, 0, .draft⟩

/-- `PT.UPDATE` (index 0x0003, u8). -/
def ptUpdate : PDef := ⟨.pt, 0x0003, 0, 1, 1, .nat 0 1, 1, 0, .draft⟩

/-- `PT.PHASE` (index 0x0004, u32). -/
def ptPhase : PDef := ⟨.pt, 0x0004, 0, 1, 4, .nat 0 99999, 0, 0, .draft⟩

/-- `PT.SHADOWFMT` (index 0x0005, u8). -/
def ptShadowfmt : PDef := ⟨.pt, 0x0005, 0, 1, 1, .nat 0 1, 0, 0, .draft⟩

/-- `PT.OWNER` (index 0x0006, u16). -/
def ptOwner : PDef := ⟨.pt, 0x0006, 0, 1, 2, .natOr 0x0100 0x7FFF 0, 0, 0, .draft⟩

/-- `PT.PWRCLASS` (index 0x0007, u8). -/
def ptPwrclass : PDef := ⟨.pt, 0x0007, 0, 1, 1, .nat 0 1, 0, 0, .draft⟩

/-- `PT.DEADTIME` (index 0x0100, u16). -/
def ptDeadtime : PDef := ⟨.pt, 0x0100, 0, 1, 2, .nat 0 4000, 200, 0, .live⟩

/-- `PT.BOOTSTRAP` (index 0x0101, u8). -/
def ptBootstrap : PDef := ⟨.pt, 0x0101, 0, 1, 1, .nat 0 1, 0, 0, .draft⟩

/-- `PT.REFTIME` (index 0x0102, u16). -/
def ptReftime : PDef := ⟨.pt, 0x0102, 0, 1, 2, .nat 40 4000, 200, 0, .live⟩

/-- `PT.REFK` (index 0x0103, u8). -/
def ptRefk : PDef := ⟨.pt, 0x0103, 0, 1, 1, .nat 1 64, 8, 0, .live⟩

/-- `PT.BSPRECHG` (index 0x0104, u32). -/
def ptBsprechg : PDef := ⟨.pt, 0x0104, 0, 1, 4, .nat 0 10000000, 100000, 0, .live⟩

/-- `PT.DUTYCAP` (index 0x0105, FP32). -/
def ptDutycap : PDef := ⟨.pt, 0x0105, 0, 1, 4, .any, 0x3f800000, 0, .readOnly⟩

/-- `PT.BOTHON` (index 0x0106, u8). -/
def ptBothon : PDef := ⟨.pt, 0x0106, 0, 1, 1, .nat 0 15, 0, 0, .draft⟩

/-- `PT.ACTSHORT` (index 0x0107, u8). -/
def ptActshort : PDef := ⟨.pt, 0x0107, 0, 1, 1, .nat 0 1, 0, 0, .draft⟩

/-- `PT.SNSTHR` (index 0x0200, u8[4], 4 bytes). -/
def ptSnsthr : PDef := ⟨.pt, 0x0200, 0, 1, 4, .any, 0xFFFFFFFF, 0, .live⟩

/-- `PT.SNSEN` (index 0x0201, u8). -/
def ptSnsen : PDef := ⟨.pt, 0x0201, 0, 1, 1, .nat 0 15, 15, 0, .live⟩

/-- `PT.BLANK` (index 0x0202, u16). -/
def ptBlank : PDef := ⟨.pt, 0x0202, 0, 1, 2, .nat 0 800, 200, 0, .live⟩

/-- `PT.TRIPMODE` (index 0x0203, u8). -/
def ptTripmode : PDef := ⟨.pt, 0x0203, 0, 1, 1, .nat 0 1, 0, 0, .live⟩

/-- `PT.CBCMAX` (index 0x0204, u16). -/
def ptCbcmax : PDef := ⟨.pt, 0x0204, 0, 1, 2, .nat 1 1000, 16, 0, .live⟩

/-- `PT.TRIPCNT` (index 0x0205, u32). -/
def ptTripcnt : PDef := ⟨.pt, 0x0205, 0, 1, 4, .any, 0, 0, .readOnly⟩

/-- `PT.HALTMODE` (index 0x0400, u8). -/
def ptHaltmode : PDef := ⟨.pt, 0x0400, 0, 1, 1, .nat 0 1, 0, 0, .draft⟩

/-- `PT.FORCESTAT` (index 0x0401, u8). -/
def ptForcestat : PDef := ⟨.pt, 0x0401, 0, 1, 1, .any, 0, 0, .readOnly⟩

/-- `PT.DLTAPS` (index 0x0402, u8). -/
def ptDltaps : PDef := ⟨.pt, 0x0402, 0, 1, 1, .any, 0, 0, .readOnly⟩

/-- `DV.DCB_EN` (index 0x0500 + 0x10 × n, u8). -/
def dvDcbEn : PDef := ⟨.dv, 0x0500, 16, 8, 1, .nat 0 1, 0, 0, .draft⟩

/-- `DV.DCB_SDPORT` (index 0x0501 + 0x10 × n, u8). -/
def dvDcbSdport : PDef := ⟨.dv, 0x0501, 16, 8, 1, .nat 0 63, 0, 8, .draft⟩

/-- `DV.DCB_OSR` (index 0x0502 + 0x10 × n, u8). -/
def dvDcbOsr : PDef := ⟨.dv, 0x0502, 16, 8, 1, .natStep 16 64 2, 32, 0, .draft⟩

/-- `DV.DCB_VSCALE` (index 0x0503 + 0x10 × n, FP32). -/
def dvDcbVscale : PDef := ⟨.dv, 0x0503, 16, 8, 4, .fp 1 10000, 0x44fa0000, 0, .live⟩

/-- `DV.DCB_UV` (index 0x0504 + 0x10 × n, FP32). -/
def dvDcbUv : PDef := ⟨.dv, 0x0504, 16, 8, 4, .fp 0 5000, 0x43c80000, 0, .live⟩

/-- `DV.DCB_PREV` (index 0x0505 + 0x10 × n, FP32). -/
def dvDcbPrev : PDef := ⟨.dv, 0x0505, 16, 8, 4, .fp 0 5000, 0x43f00000, 0, .live⟩

/-- `DV.DCB_PRETMO` (index 0x0506 + 0x10 × n, u16). -/
def dvDcbPretmo : PDef := ⟨.dv, 0x0506, 16, 8, 2, .nat 100 30000, 2000, 0, .live⟩

/-- `DV.DCB_OV1` (index 0x0507 + 0x10 × n, FP32). -/
def dvDcbOv1 : PDef := ⟨.dv, 0x0507, 16, 8, 4, .fp 0 5000, 0x44340000, 0, .live⟩

/-- `DV.DCB_HYST` (index 0x0508 + 0x10 × n, FP32). -/
def dvDcbHyst : PDef := ⟨.dv, 0x0508, 16, 8, 4, .fp 1 500, 0x41200000, 0, .live⟩

/-- `DV.DCB_OV2` (index 0x0509 + 0x10 × n, FP32). -/
def dvDcbOv2 : PDef := ⟨.dv, 0x0509, 16, 8, 4, .fp 0 5000, 0x443e0000, 0, .live⟩

/-- `DV.DCB_OV3` (index 0x050A + 0x10 × n, FP32). -/
def dvDcbOv3 : PDef := ⟨.dv, 0x050A, 16, 8, 4, .fp 0 5000, 0x44480000, 0, .live⟩

/-- `DV.DCB_CHR` (index 0x050B + 0x10 × n, FP32). -/
def dvDcbChr : PDef := ⟨.dv, 0x050B, 16, 8, 4, .fp (mkRat (13421773) 134217728) 10000, 0x42480000, 0, .live⟩

/-- `DV.DCB_CHEMAX` (index 0x050C + 0x10 × n, FP32). -/
def dvDcbChemax : PDef := ⟨.dv, 0x050C, 16, 8, 4, .fp 1 10000000, 0x459c4000, 0, .live⟩

/-- `DV.DCB_CHTAU` (index 0x050D + 0x10 × n, FP32). -/
def dvDcbChtau : PDef := ⟨.dv, 0x050D, 16, 8, 4, .fp 1 10000, 0x42f00000, 0, .live⟩

/-- `DV.DCB_REGENLIM` (index 0x050E + 0x10 × n, FP32). -/
def dvDcbRegenlim : PDef := ⟨.dv, 0x050E, 16, 8, 4, .fp (mkRat (13421773) 268435456) 1, 0x3e800000, 0, .live⟩

/-- `DV.DCB_CHFBT` (index 0x050F + 0x10 × n, u16). -/
def dvDcbChfbt : PDef := ⟨.dv, 0x050F, 16, 8, 2, .nat 500 20000, 2000, 0, .live⟩

/-- `DV.DCB_STATE` (index 0x0580 + 0x8 × n, u8). -/
def dvDcbState : PDef := ⟨.dv, 0x0580, 8, 8, 1, .any, 0, 0, .readOnly⟩

/-- `DV.DCB_V` (index 0x0581 + 0x8 × n, FP32). -/
def dvDcbV : PDef := ⟨.dv, 0x0581, 8, 8, 4, .any, 0x0, 0, .readOnly⟩

/-- `DV.DCB_FLAGS` (index 0x0582 + 0x8 × n, u32). -/
def dvDcbFlags : PDef := ⟨.dv, 0x0582, 8, 8, 4, .any, 0, 0, .readOnly⟩

/-- `DV.DCB_CHEN` (index 0x0583 + 0x8 × n, FP32). -/
def dvDcbChen : PDef := ⟨.dv, 0x0583, 8, 8, 4, .any, 0x0, 0, .readOnly⟩

/-- `DV.DCB_CHW` (index 0x0584 + 0x8 × n, FP32). -/
def dvDcbChw : PDef := ⟨.dv, 0x0584, 8, 8, 4, .any, 0x0, 0, .readOnly⟩

/-- `DV.DCB_VMAX` (index 0x0585 + 0x8 × n, FP32). -/
def dvDcbVmax : PDef := ⟨.dv, 0x0585, 8, 8, 4, .any, 0x0, 0, .readOnly⟩

/-- `DV.DCB_CHDUTY` (index 0x0586 + 0x8 × n, FP32). -/
def dvDcbChduty : PDef := ⟨.dv, 0x0586, 8, 8, 4, .any, 0x0, 0, .readOnly⟩

/-- `DV.PORTBUS` (index 0x05C0, u8[64], 64 bytes). -/
def dvPortbus : PDef := ⟨.dv, 0x05C0, 0, 1, 64, .words 1 64 0 7 0, 0x7070707070707070606060606060606050505050505050504040404040404040303030303030303020202020202020201010101010101010000000000000000, 0, .draft⟩

/-- `AX.FBMODE` (index 0x0100, u8). -/
def axFbmode : PDef := ⟨.ax, 0x0100, 0, 1, 1, .nat 0 6, 0, 0, .draft⟩

/-- `AX.FBFILT` (index 0x0101, u8). -/
def axFbfilt : PDef := ⟨.ax, 0x0101, 0, 1, 1, .nat 1 255, 3, 0, .draft⟩

/-- `AX.CREV` (index 0x0102, u32). -/
def axCrev : PDef := ⟨.ax, 0x0102, 0, 1, 4, .nat 1 2147483647, 4096, 0, .draft⟩

/-- `AX.FBDIR` (index 0x0103, u8). -/
def axFbdir : PDef := ⟨.ax, 0x0103, 0, 1, 1, .nat 0 1, 0, 0, .draft⟩

/-- `AX.QERRMAX` (index 0x0104, u16). -/
def axQerrmax : PDef := ⟨.ax, 0x0104, 0, 1, 2, .nat 0 65535, 4, 0, .live⟩

/-- `AX.QERRWIN` (index 0x0105, u32). -/
def axQerrwin : PDef := ⟨.ax, 0x0105, 0, 1, 4, .nat 1000000 1000000000, 10000000, 0, .live⟩

/-- `AX.FBCLASS` (index 0x0106, u8). -/
def axFbclass : PDef := ⟨.ax, 0x0106, 0, 1, 1, .nat 1 6, 4, 0, .live⟩

/-- `AX.CHATMAX` (index 0x0107, u16). -/
def axChatmax : PDef := ⟨.ax, 0x0107, 0, 1, 2, .nat 1 65535, 16, 0, .live⟩

/-- `AX.STUCKTMO` (index 0x0108, u32). -/
def axStucktmo : PDef := ⟨.ax, 0x0108, 0, 1, 4, .nat 1000000 4000000000, 1000000000, 0, .live⟩

/-- `AX.ZQUAL` (index 0x0109, u8). -/
def axZqual : PDef := ⟨.ax, 0x0109, 0, 1, 1, .nat 0 1, 0, 0, .live⟩

/-- `AX.HALLPORT` (index 0x010A, u8). -/
def axHallport : PDef := ⟨.ax, 0x010A, 0, 1, 1, .natOr 0 63 0xFF, 0xFF, 0, .draft⟩

/-- `AX.SSIBITS` (index 0x010B, u8). -/
def axSsibits : PDef := ⟨.ax, 0x010B, 0, 1, 1, .nat 8 48, 25, 0, .draft⟩

/-- `AX.SSIFREQ` (index 0x010C, u32). -/
def axSsifreq : PDef := ⟨.ax, 0x010C, 0, 1, 4, .nat 100000 10000000, 2000000, 0, .draft⟩

/-- `AX.SSIFMT` (index 0x010D, u8). -/
def axSsifmt : PDef := ⟨.ax, 0x010D, 0, 1, 1, .nat 0 3, 0, 0, .draft⟩

/-- `AX.SSIEVERY` (index 0x010E, u8). -/
def axSsievery : PDef := ⟨.ax, 0x010E, 0, 1, 1, .nat 1 64, 1, 0, .draft⟩

/-- `AX.SSIRECOV` (index 0x010F, u32). -/
def axSsirecov : PDef := ⟨.ax, 0x010F, 0, 1, 4, .nat 1000 100000, 20000, 0, .draft⟩

/-- `AX.SSIJUMP` (index 0x0110, u32). -/
def axSsijump : PDef := ⟨.ax, 0x0110, 0, 1, 4, .nat 0 2147483648, 0, 0, .live⟩

/-- `AX.FBERRMAX` (index 0x0111, u8). -/
def axFberrmax : PDef := ⟨.ax, 0x0111, 0, 1, 1, .nat 1 255, 3, 0, .live⟩

/-- `AX.REXSEL` (index 0x0112, u8). -/
def axRexsel : PDef := ⟨.ax, 0x0112, 0, 1, 1, .nat 0 7, 0, 0, .draft⟩

/-- `AX.RESPP` (index 0x0113, u8). -/
def axRespp : PDef := ⟨.ax, 0x0113, 0, 1, 1, .nat 1 16, 1, 0, .draft⟩

/-- `AX.RESBW` (index 0x0114, FP32). -/
def axResbw : PDef := ⟨.ax, 0x0114, 0, 1, 4, .fp 50 5000, 0x43fa0000, 0, .live⟩

/-- `AX.RESAMPMIN` (index 0x0115, FP32). -/
def axResampmin : PDef := ⟨.ax, 0x0115, 0, 1, 4, .fp (mkRat (13421773) 268435456) 1, 0x3e99999a, 0, .live⟩

/-- `AX.RESAMPMAX` (index 0x0116, FP32). -/
def axResampmax : PDef := ⟨.ax, 0x0116, 0, 1, 4, .fp (mkRat (13421773) 268435456) 1, 0x3f733333, 0, .live⟩

/-- `AX.RESTRKMAX` (index 0x0117, FP32). -/
def axRestrkmax : PDef := ⟨.ax, 0x0117, 0, 1, 4, .fp (mkRat (5368709) 536870912) (mkRat (3) 2), 0x3dcccccd, 0, .live⟩

/-- `AX.RESDELAY` (index 0x0118, u32). -/
def axResdelay : PDef := ⟨.ax, 0x0118, 0, 1, 4, .nat 0 100000, 0, 0, .live⟩

/-- `AX.STEPEDGE` (index 0x0119, u8). -/
def axStepedge : PDef := ⟨.ax, 0x0119, 0, 1, 1, .nat 0 2, 0, 0, .draft⟩

/-- `AX.VELWIN` (index 0x011A, u32). -/
def axVelwin : PDef := ⟨.ax, 0x011A, 0, 1, 4, .nat 1000 100000000, 250000, 0, .live⟩

/-- `AX.VELTAU` (index 0x011B, FP32). -/
def axVeltau : PDef := ⟨.ax, 0x011B, 0, 1, 4, .fp 0 1, 0x0, 0, .live⟩

/-- `AX.INTERPMAX` (index 0x011C, u32). -/
def axInterpmax : PDef := ⟨.ax, 0x011C, 0, 1, 4, .nat 0 100000000, 1000000, 0, .live⟩

/-- `AX.FBSTAT` (index 0x011D, u32). -/
def axFbstat : PDef := ⟨.ax, 0x011D, 0, 1, 4, .any, 0, 0, .readOnly⟩

/-- `AX.FBERRCNT` (index 0x011E, u32). -/
def axFberrcnt : PDef := ⟨.ax, 0x011E, 0, 1, 4, .any, 0, 0, .readOnly⟩

/-- `DV.EMU_MODE` (index 0x0700 + 0x10 × n, u8). -/
def dvEmuMode : PDef := ⟨.dv, 0x0700, 16, 8, 1, .nat 0 3, 0, 0, .draft⟩

/-- `DV.EMU_SRC` (index 0x0701 + 0x10 × n, u16). -/
def dvEmuSrc : PDef := ⟨.dv, 0x0701, 16, 8, 2, .mask 0x81FF, 0, 0, .draft⟩

/-- `DV.EMU_NUM` (index 0x0702 + 0x10 × n, u32). -/
def dvEmuNum : PDef := ⟨.dv, 0x0702, 16, 8, 4, .nat 1 4294967295, 1, 0, .live⟩

/-- `DV.EMU_DEN` (index 0x0703 + 0x10 × n, u32). -/
def dvEmuDen : PDef := ⟨.dv, 0x0703, 16, 8, 4, .nat 1 4294967295, 1, 0, .live⟩

/-- `DV.EMU_UPD` (index 0x0704 + 0x10 × n, u32). -/
def dvEmuUpd : PDef := ⟨.dv, 0x0704, 16, 8, 4, .natStep 1000 1000000 5, 10000, 0, .draft⟩

/-- `DV.EMU_ZPER` (index 0x0705 + 0x10 × n, u32). -/
def dvEmuZper : PDef := ⟨.dv, 0x0705, 16, 8, 4, .natOr 4 2147483648 0, 0, 0, .live⟩

/-- `DV.EMU_ZOFF` (index 0x0706 + 0x10 × n, u32). -/
def dvEmuZoff : PDef := ⟨.dv, 0x0706, 16, 8, 4, .any, 0, 0, .live⟩

/-- `DV.EMU_STEPW` (index 0x0707 + 0x10 × n, u16). -/
def dvEmuStepw : PDef := ⟨.dv, 0x0707, 16, 8, 2, .nat 8 4000, 16, 0, .live⟩

/-- `DV.EMU_DIRSET` (index 0x0708 + 0x10 × n, u16). -/
def dvEmuDirset : PDef := ⟨.dv, 0x0708, 16, 8, 2, .nat 8 4000, 16, 0, .live⟩

/-- `DV.EMU_DIR` (index 0x0709 + 0x10 × n, u8). -/
def dvEmuDir : PDef := ⟨.dv, 0x0709, 16, 8, 1, .nat 0 1, 0, 0, .live⟩

/-- `DV.EMU_COUNT` (index 0x070A + 0x10 × n, u64). -/
def dvEmuCount : PDef := ⟨.dv, 0x070A, 16, 8, 8, .any, 0, 0, .readOnly⟩

/-- `DV.EMU_BACKLOG` (index 0x070B + 0x10 × n, u32). -/
def dvEmuBacklog : PDef := ⟨.dv, 0x070B, 16, 8, 4, .any, 0, 0, .readOnly⟩

/-- `DV.PRBFILT` (index 0x0780, u8[32], 32 bytes). -/
def dvPrbfilt : PDef := ⟨.dv, 0x0780, 0, 1, 32, .words 1 32 1 255 1, 0x404040404040404040404040404040404040404040404040404040404040404, 0, .live⟩

/-- `DV.PRBEDGE` (index 0x0781, u8[32], 32 bytes). -/
def dvPrbedge : PDef := ⟨.dv, 0x0781, 0, 1, 32, .words 1 32 0 3 0, 0, 0, .live⟩

/-- `DV.PRBCHATMAX` (index 0x0782, u16). -/
def dvPrbchatmax : PDef := ⟨.dv, 0x0782, 0, 1, 2, .nat 1 65535, 16, 0, .live⟩

/-- `DV.PRBSTUCK` (index 0x0783, u32). -/
def dvPrbstuck : PDef := ⟨.dv, 0x0783, 0, 1, 4, .nat 1000000 4000000000, 1000000000, 0, .live⟩

/-- `DV.PRBLOST` (index 0x0784, u32[32], 128 bytes). -/
def dvPrblost : PDef := ⟨.dv, 0x0784, 0, 1, 128, .any, 0, 0, .readOnly⟩

/-- `DV.REX_EN` (index 0x07A0 + 0x4 × n, u8). -/
def dvRexEn : PDef := ⟨.dv, 0x07A0, 4, 8, 1, .nat 0 1, 0, 0, .draft⟩

/-- `DV.REX_PERIOD` (index 0x07A1 + 0x4 × n, u32). -/
def dvRexPeriod : PDef := ⟨.dv, 0x07A1, 4, 8, 4, .natStep 20000 200000 16, 40000, 0, .draft⟩

/-- `DV.REX_AMP` (index 0x07A2 + 0x4 × n, FP32). -/
def dvRexAmp : PDef := ⟨.dv, 0x07A2, 4, 8, 4, .fp 0 (mkRat (15938355) 16777216), 0x3f4ccccd, 0, .live⟩

/-- `AX.POSPROG` (index 0x0300, u16). -/
def axPosprog : PDef := ⟨.ax, 0x0300, 0, 1, 2, .natOr 0x0100 0x7FFF 0, 0, 0, .draft⟩

/-- `AX.POSDIV` (index 0x0301, u16). -/
def axPosdiv : PDef := ⟨.ax, 0x0301, 0, 1, 2, .nat 1 1024, 5, 0, .draft⟩

/-- `AX.KACC` (index 0x0302, FP32). -/
def axKacc : PDef := ⟨.ax, 0x0302, 0, 1, 4, .fp 1 999999995904, 0x49742400, 0, .live⟩

/-- `AX.POSBW` (index 0x0303, FP32). -/
def axPosbw : PDef := ⟨.ax, 0x0303, 0, 1, 4, .fp (mkRat (13421773) 134217728) 6400, 0x42480000, 0, .live⟩

/-- `AX.POSINT` (index 0x0304, FP32). -/
def axPosint : PDef := ⟨.ax, 0x0304, 0, 1, 4, .fp 0 10000, 0x41200000, 0, .live⟩

/-- `AX.POSOBSBW` (index 0x0305, FP32). -/
def axPosobsbw : PDef := ⟨.ax, 0x0305, 0, 1, 4, .fp 1 16000, 0x43480000, 0, .live⟩

/-- `AX.VFFGAIN` (index 0x0306, FP32). -/
def axVffgain : PDef := ⟨.ax, 0x0306, 0, 1, 4, .fp 0 (mkRat (3) 2), 0x3f800000, 0, .live⟩

/-- `AX.AFFGAIN` (index 0x0307, FP32). -/
def axAffgain : PDef := ⟨.ax, 0x0307, 0, 1, 4, .fp 0 (mkRat (3) 2), 0x3f800000, 0, .live⟩

/-- `AX.INTMOVE` (index 0x0308, u8). -/
def axIntmove : PDef := ⟨.ax, 0x0308, 0, 1, 1, .nat 0 1, 1, 0, .live⟩

/-- `AX.GROUP` (index 0x0309, u8). -/
def axGroup : PDef := ⟨.ax, 0x0309, 0, 1, 1, .nat 0 32, 0, 0, .draft⟩

/-- `AX.TENSREF` (index 0x030A, FP32[7], 28 bytes). -/
def axTensref : PDef := ⟨.ax, 0x030A, 0, 1, 28, .fps 7 (-1000000) 1000000, 0, 0, .live⟩

/-- `AX.STALEMAX` (index 0x030B, u8). -/
def axStalemax : PDef := ⟨.ax, 0x030B, 0, 1, 1, .nat 1 16, 2, 0, .live⟩

/-- `AX.STALECLASS` (index 0x030C, u8). -/
def axStaleclass : PDef := ⟨.ax, 0x030C, 0, 1, 1, .nat 1 6, 3, 0, .live⟩

/-- `AX.POSSTAT` (index 0x030D, u32). -/
def axPosstat : PDef := ⟨.ax, 0x030D, 0, 1, 4, .any, 0, 0, .readOnly⟩

/-- `AX.POSERR` (index 0x030E, FP32). -/
def axPoserr : PDef := ⟨.ax, 0x030E, 0, 1, 4, .any, 0x0, 0, .readOnly⟩

/-- `AX.IREF` (index 0x030F, FP32). -/
def axIref : PDef := ⟨.ax, 0x030F, 0, 1, 4, .any, 0x0, 0, .readOnly⟩

/-- `AX.DISTEST` (index 0x0310, FP32). -/
def axDistest : PDef := ⟨.ax, 0x0310, 0, 1, 4, .any, 0x0, 0, .readOnly⟩

/-- `AX.I2TSTATE` (index 0x0311, FP32). -/
def axI2tstate : PDef := ⟨.ax, 0x0311, 0, 1, 4, .any, 0x0, 0, .readOnly⟩

/-- `AX.POSDELAY` (index 0x0312, u32). -/
def axPosdelay : PDef := ⟨.ax, 0x0312, 0, 1, 4, .any, 0, 0, .readOnly⟩

/-- `AX.FRICEN` (index 0x0700, u8). -/
def axFricen : PDef := ⟨.ax, 0x0700, 0, 1, 1, .nat 0 1, 0, 0, .draft⟩

/-- `AX.COGEN` (index 0x0701, u8). -/
def axCogen : PDef := ⟨.ax, 0x0701, 0, 1, 1, .nat 0 2, 0, 0, .draft⟩

/-- `AX.TBLCAP` (index 0x0702, u32). -/
def axTblcap : PDef := ⟨.ax, 0x0702, 0, 1, 4, .nat 2 65536, 1024, 0, .draft⟩

/-- `AX.FRICSHIFT` (index 0x0703, u8). -/
def axFricshift : PDef := ⟨.ax, 0x0703, 0, 1, 1, .nat 0 31, 10, 0, .live⟩

/-- `AX.FRICORG` (index 0x0704, pos64). -/
def axFricorg : PDef := ⟨.ax, 0x0704, 0, 1, 8, .any, 0, 0, .live⟩

/-- `AX.FRICWRAP` (index 0x0705, u8). -/
def axFricwrap : PDef := ⟨.ax, 0x0705, 0, 1, 1, .nat 0 1, 1, 0, .live⟩

/-- `AX.COGSHIFT` (index 0x0706, u8). -/
def axCogshift : PDef := ⟨.ax, 0x0706, 0, 1, 1, .nat 0 31, 10, 0, .live⟩

/-- `AX.COGORG` (index 0x0707, pos64). -/
def axCogorg : PDef := ⟨.ax, 0x0707, 0, 1, 8, .any, 0, 0, .live⟩

/-- `AX.COGWRAP` (index 0x0708, u8). -/
def axCogwrap : PDef := ⟨.ax, 0x0708, 0, 1, 1, .nat 0 1, 1, 0, .live⟩

/-- `AX.FRICVEL` (index 0x0709, FP32). -/
def axFricvel : PDef := ⟨.ax, 0x0709, 0, 1, 4, .fp 1 1000000000, 0x447a0000, 0, .live⟩

/-- `AX.COMPSCALE` (index 0x070A, FP32). -/
def axCompscale : PDef := ⟨.ax, 0x070A, 0, 1, 4, .fp 0 2, 0x3f800000, 0, .live⟩

/-- `AX.FRICLEN` (index 0x070B, u32). -/
def axFriclen : PDef := ⟨.ax, 0x070B, 0, 1, 4, .any, 0, 0, .readOnly⟩

/-- `AX.COGLEN` (index 0x070C, u32). -/
def axCoglen : PDef := ⟨.ax, 0x070C, 0, 1, 4, .any, 0, 0, .readOnly⟩

/-- `AX.TBLMISS` (index 0x070D, u32). -/
def axTblmiss : PDef := ⟨.ax, 0x070D, 0, 1, 4, .any, 0, 0, .readOnly⟩

/-- `AX.COMPCUR` (index 0x070E, FP32). -/
def axCompcur : PDef := ⟨.ax, 0x070E, 0, 1, 4, .any, 0x0, 0, .readOnly⟩

/-- `AX.FELIM` (index 0x0A00, u32). -/
def axFelim : PDef := ⟨.ax, 0x0A00, 0, 1, 4, .nat 0 2147483648, 100000, 0, .live⟩

/-- `AX.FEWARN` (index 0x0A01, u32). -/
def axFewarn : PDef := ⟨.ax, 0x0A01, 0, 1, 4, .nat 0 2147483648, 50000, 0, .live⟩

/-- `AX.FECLASS` (index 0x0A02, u8). -/
def axFeclass : PDef := ⟨.ax, 0x0A02, 0, 1, 1, .nat 1 6, 3, 0, .live⟩

/-- `AX.VMAXTRIP` (index 0x0A03, FP32). -/
def axVmaxtrip : PDef := ⟨.ax, 0x0A03, 0, 1, 4, .fp 1 2147483648, 0x4cbebc20, 0, .live⟩

/-- `AX.ILIMPOS` (index 0x0A04, FP32). -/
def axIlimpos : PDef := ⟨.ax, 0x0A04, 0, 1, 4, .fp 0 10000, 0x41200000, 0, .live⟩

/-- `AX.ILIMNEG` (index 0x0A05, FP32). -/
def axIlimneg : PDef := ⟨.ax, 0x0A05, 0, 1, 4, .fp 0 10000, 0x41200000, 0, .live⟩

/-- `AX.IRATED` (index 0x0A06, FP32). -/
def axIrated : PDef := ⟨.ax, 0x0A06, 0, 1, 4, .fp (mkRat (5368709) 536870912) 10000, 0x40a00000, 0, .live⟩

/-- `AX.I2TTAU` (index 0x0A07, FP32). -/
def axI2ttau : PDef := ⟨.ax, 0x0A07, 0, 1, 4, .fp 1 3600, 0x41f00000, 0, .live⟩

/-- `AX.STANDVEL` (index 0x0A08, FP32). -/
def axStandvel : PDef := ⟨.ax, 0x0A08, 0, 1, 4, .fp 0 1000000000, 0x42c80000, 0, .live⟩

/-- `AX.STANDTIME` (index 0x0A09, u32). -/
def axStandtime : PDef := ⟨.ax, 0x0A09, 0, 1, 4, .nat 0 1000000000, 10000000, 0, .live⟩

/-- `AX.INPOSWIN` (index 0x0A0A, u32). -/
def axInposwin : PDef := ⟨.ax, 0x0A0A, 0, 1, 4, .nat 0 2147483648, 100, 0, .live⟩

/-- `AX.HOLDWIN` (index 0x0A0B, u32). -/
def axHoldwin : PDef := ⟨.ax, 0x0A0B, 0, 1, 4, .nat 0 2147483648, 0, 0, .live⟩

/-- `AX.HOLDCLASS` (index 0x0A0C, u8). -/
def axHoldclass : PDef := ⟨.ax, 0x0A0C, 0, 1, 1, .nat 1 6, 3, 0, .live⟩

/-- `AX.SWLIMPOS` (index 0x0A0D, pos64). -/
def axSwlimpos : PDef := ⟨.ax, 0x0A0D, 0, 1, 8, .any, 0x7FFFFFFFFFFFFFFF, 0, .live⟩

/-- `AX.SWLIMNEG` (index 0x0A0E, pos64). -/
def axSwlimneg : PDef := ⟨.ax, 0x0A0E, 0, 1, 8, .any, 0x8000000000000000, 0, .live⟩

/-- `AX.SWLIMCLASS` (index 0x0A0F, u8). -/
def axSwlimclass : PDef := ⟨.ax, 0x0A0F, 0, 1, 1, .nat 1 6, 3, 0, .live⟩

/-- `AX.NETLOSS` (index 0x0A10, u8). -/
def axNetloss : PDef := ⟨.ax, 0x0A10, 0, 1, 1, .nat 1 255, 3, 0, .live⟩

/-- `AX.NETCLASS` (index 0x0A11, u8). -/
def axNetclass : PDef := ⟨.ax, 0x0A11, 0, 1, 1, .nat 1 6, 3, 0, .live⟩

/-- `AX.VSTART` (index 0x0400, vel64). -/
def axVstart : PDef := ⟨.ax, 0x0400, 0, 1, 8, .nat 0 0x7FFFFFFFFFFFFFFF, 0, 0, .live⟩

/-- `AX.A1` (index 0x0401, acc64). -/
def axA1 : PDef := ⟨.ax, 0x0401, 0, 1, 8, .nat 1 0x7FFFFFFFFFFFFFFF, 4294967296000000, 0, .live⟩

/-- `AX.V1` (index 0x0402, vel64). -/
def axV1 : PDef := ⟨.ax, 0x0402, 0, 1, 8, .nat 0 0x7FFFFFFFFFFFFFFF, 0, 0, .live⟩

/-- `AX.AMAX` (index 0x0403, acc64). -/
def axAmax : PDef := ⟨.ax, 0x0403, 0, 1, 8, .nat 1 0x7FFFFFFFFFFFFFFF, 4294967296000000, 0, .live⟩

/-- `AX.VMAX` (index 0x0404, vel64). -/
def axVmax : PDef := ⟨.ax, 0x0404, 0, 1, 8, .nat 1 0x7FFFFFFFFFFFFFFF, 4294967296000000, 0, .live⟩

/-- `AX.DMAX` (index 0x0405, acc64). -/
def axDmax : PDef := ⟨.ax, 0x0405, 0, 1, 8, .nat 1 0x7FFFFFFFFFFFFFFF, 4294967296000000, 0, .live⟩

/-- `AX.D1` (index 0x0406, acc64). -/
def axD1 : PDef := ⟨.ax, 0x0406, 0, 1, 8, .nat 1 0x7FFFFFFFFFFFFFFF, 4294967296000000, 0, .live⟩

/-- `AX.VSTOP` (index 0x0407, vel64). -/
def axVstop : PDef := ⟨.ax, 0x0407, 0, 1, 8, .nat 0 0x7FFFFFFFFFFFFFFF, 0, 0, .live⟩

/-- `AX.QSTOPDEC` (index 0x0408, acc64). -/
def axQstopdec : PDef := ⟨.ax, 0x0408, 0, 1, 8, .nat 1 0x7FFFFFFFFFFFFFFF, 42949672960000000, 0, .live⟩

/-- `AX.PROFSTAT` (index 0x0409, u32). -/
def axProfstat : PDef := ⟨.ax, 0x0409, 0, 1, 4, .any, 0, 0, .readOnly⟩

/-- `AX.OVERSHOOT` (index 0x040A, pos64). -/
def axOvershoot : PDef := ⟨.ax, 0x040A, 0, 1, 8, .any, 0, 0, .readOnly⟩

/-- `AX.TARGET` (index 0x040B, pos64). -/
def axTarget : PDef := ⟨.ax, 0x040B, 0, 1, 8, .any, 0, 0, .readOnly⟩

/-- `AX.CMDPOS` (index 0x040C, pos64). -/
def axCmdpos : PDef := ⟨.ax, 0x040C, 0, 1, 8, .any, 0, 0, .readOnly⟩

/-- `AX.CMDVEL` (index 0x040D, vel64). -/
def axCmdvel : PDef := ⟨.ax, 0x040D, 0, 1, 8, .any, 0, 0, .readOnly⟩

/-- `AX.HOMEMETHOD` (index 0x0500, u8). -/
def axHomemethod : PDef := ⟨.ax, 0x0500, 0, 1, 1, .nat 0 5, 0, 0, .live⟩

/-- `AX.HOMEDIR` (index 0x0501, u8). -/
def axHomedir : PDef := ⟨.ax, 0x0501, 0, 1, 1, .nat 0 1, 0, 0, .live⟩

/-- `AX.HOMEIN` (index 0x0502, u8). -/
def axHomein : PDef := ⟨.ax, 0x0502, 0, 1, 1, .natOr 0 31 0xFF, 0xFF, 0, .draft⟩

/-- `AX.LIMPOSIN` (index 0x0503, u8). -/
def axLimposin : PDef := ⟨.ax, 0x0503, 0, 1, 1, .natOr 0 31 0xFF, 0xFF, 0, .draft⟩

/-- `AX.LIMNEGIN` (index 0x0504, u8). -/
def axLimnegin : PDef := ⟨.ax, 0x0504, 0, 1, 1, .natOr 0 31 0xFF, 0xFF, 0, .draft⟩

/-- `AX.HOMEPOL` (index 0x0505, u8). -/
def axHomepol : PDef := ⟨.ax, 0x0505, 0, 1, 1, .nat 0 7, 0, 0, .live⟩

/-- `AX.HOMEVFAST` (index 0x0506, vel64). -/
def axHomevfast : PDef := ⟨.ax, 0x0506, 0, 1, 8, .nat 1 0x7FFFFFFFFFFFFFFF, 429496729600000, 0, .live⟩

/-- `AX.HOMEVSLOW` (index 0x0507, vel64). -/
def axHomevslow : PDef := ⟨.ax, 0x0507, 0, 1, 8, .nat 1 0x7FFFFFFFFFFFFFFF, 21474836480000, 0, .live⟩

/-- `AX.HOMEACC` (index 0x0508, acc64). -/
def axHomeacc : PDef := ⟨.ax, 0x0508, 0, 1, 8, .nat 1 0x7FFFFFFFFFFFFFFF, 4294967296000000, 0, .live⟩

/-- `AX.HOMEPOS` (index 0x0509, pos64). -/
def axHomepos : PDef := ⟨.ax, 0x0509, 0, 1, 8, .any, 0, 0, .live⟩

/-- `AX.HOMEBACKOFF` (index 0x050A, u32). -/
def axHomebackoff : PDef := ⟨.ax, 0x050A, 0, 1, 4, .nat 0 2147483648, 1000, 0, .live⟩

/-- `AX.HOMEMAXDIST` (index 0x050B, u32). -/
def axHomemaxdist : PDef := ⟨.ax, 0x050B, 0, 1, 4, .nat 0 2147483648, 0, 0, .live⟩

/-- `AX.HOMECREEPMAX` (index 0x050C, u32). -/
def axHomecreepmax : PDef := ⟨.ax, 0x050C, 0, 1, 4, .nat 1 2147483648, 10000, 0, .live⟩

/-- `AX.HOMECHATMAX` (index 0x050D, u8). -/
def axHomechatmax : PDef := ⟨.ax, 0x050D, 0, 1, 1, .nat 1 255, 4, 0, .live⟩

/-- `AX.HOMESTALLCUR` (index 0x050E, FP32). -/
def axHomestallcur : PDef := ⟨.ax, 0x050E, 0, 1, 4, .fp (mkRat (5368709) 536870912) 10000, 0x3f800000, 0, .live⟩

/-- `AX.HOMESTALLT` (index 0x050F, u32). -/
def axHomestallt : PDef := ⟨.ax, 0x050F, 0, 1, 4, .nat 1000000 1000000000, 50000000, 0, .live⟩

/-- `AX.HOMEREQ` (index 0x0510, u8). -/
def axHomereq : PDef := ⟨.ax, 0x0510, 0, 1, 1, .nat 0 1, 0, 0, .live⟩

/-- `AX.LIMCLASS` (index 0x0511, u8). -/
def axLimclass : PDef := ⟨.ax, 0x0511, 0, 1, 1, .nat 1 6, 3, 0, .live⟩

/-- `AX.HOMEMOVE` (index 0x0512, u8). -/
def axHomemove : PDef := ⟨.ax, 0x0512, 0, 1, 1, .nat 0 1, 0, 0, .live⟩

/-- `AX.HOMESTAT` (index 0x0513, u32). -/
def axHomestat : PDef := ⟨.ax, 0x0513, 0, 1, 4, .any, 0, 0, .readOnly⟩

/-- `AX.STEPSREV` (index 0x0600, u16). -/
def axStepsrev : PDef := ⟨.ax, 0x0600, 0, 1, 2, .nat 4 10000, 200, 0, .draft⟩

/-- `AX.MICROSTEP` (index 0x0601, u16). -/
def axMicrostep : PDef := ⟨.ax, 0x0601, 0, 1, 2, .nat 1 1024, 256, 0, .draft⟩

/-- `AX.STEPIRUN` (index 0x0602, FP32). -/
def axStepirun : PDef := ⟨.ax, 0x0602, 0, 1, 4, .fp (mkRat (5368709) 536870912) 100, 0x3f800000, 0, .live⟩

/-- `AX.STEPIHOLD` (index 0x0603, FP32). -/
def axStepihold : PDef := ⟨.ax, 0x0603, 0, 1, 4, .fp (mkRat 1 100) 100, 0x3f000000, 0, .live⟩

/-- `AX.HOLDMODE` (index 0x0604, u8). -/
def axHoldmode : PDef := ⟨.ax, 0x0604, 0, 1, 1, .nat 0 2, 0, 0, .live⟩

/-- `AX.CHOPHYST` (index 0x0605, FP32). -/
def axChophyst : PDef := ⟨.ax, 0x0605, 0, 1, 4, .fp (mkRat (8589935) 8589934592) 10, 0x3d4ccccd, 0, .live⟩

/-- `AX.CHOPOSR` (index 0x0606, u8). -/
def axChoposr : PDef := ⟨.ax, 0x0606, 0, 1, 1, .natStep 8 16 2, 16, 0, .draft⟩

/-- `AX.CHOPTOFF` (index 0x0607, u16). -/
def axChoptoff : PDef := ⟨.ax, 0x0607, 0, 1, 2, .nat 40 8000, 800, 0, .live⟩

/-- `AX.CHOPBLANK` (index 0x0608, u16). -/
def axChopblank : PDef := ⟨.ax, 0x0608, 0, 1, 2, .nat 0 800, 200, 0, .live⟩

/-- `AX.CHOPDECAY` (index 0x0609, u8). -/
def axChopdecay : PDef := ⟨.ax, 0x0609, 0, 1, 1, .nat 0 2, 2, 0, .live⟩

/-- `AX.CHOPFAST` (index 0x060A, u8). -/
def axChopfast : PDef := ⟨.ax, 0x060A, 0, 1, 1, .nat 1 255, 50, 0, .live⟩

/-- `AX.CHOPADAPT` (index 0x060B, FP32). -/
def axChopadapt : PDef := ⟨.ax, 0x060B, 0, 1, 4, .fp 0 5000, 0x43480000, 0, .live⟩

/-- `AX.STEPRW` (index 0x060C, FP32). -/
def axSteprw : PDef := ⟨.ax, 0x060C, 0, 1, 4, .fp (mkRat (5368709) 536870912) 100, 0x3f800000, 0, .live⟩

/-- `AX.STEPLW` (index 0x060D, FP32). -/
def axSteplw : PDef := ⟨.ax, 0x060D, 0, 1, 4, .fp (mkRat (2748779) 274877906944) 1, 0x3b03126f, 0, .live⟩

/-- `AX.STEPKE` (index 0x060E, FP32). -/
def axStepke : PDef := ⟨.ax, 0x060E, 0, 1, 4, .fp (mkRat (13743895) 137438953472) 10, 0x3ca3d70a, 0, .live⟩

/-- `AX.STALLTHR` (index 0x060F, FP32). -/
def axStallthr : PDef := ⟨.ax, 0x060F, 0, 1, 4, .fp (mkRat (13421773) 134217728) 1, 0x3f4ccccd, 0, .live⟩

/-- `AX.STALLMINVEL` (index 0x0610, vel64). -/
def axStallminvel : PDef := ⟨.ax, 0x0610, 0, 1, 8, .nat 1 0x7FFFFFFFFFFFFFFF, 85899345920000, 0, .live⟩

/-- `AX.STALLTIME` (index 0x0611, u32). -/
def axStalltime : PDef := ⟨.ax, 0x0611, 0, 1, 4, .nat 1000000 1000000000, 20000000, 0, .live⟩

/-- `AX.STALLCLASS` (index 0x0612, u8). -/
def axStallclass : PDef := ⟨.ax, 0x0612, 0, 1, 1, .nat 1 6, 3, 0, .live⟩

/-- `AX.CATCHTIME` (index 0x0613, u32). -/
def axCatchtime : PDef := ⟨.ax, 0x0613, 0, 1, 4, .nat 500000 20000000, 2000000, 0, .live⟩

/-- `AX.CATCHEMIN` (index 0x0614, FP32). -/
def axCatchemin : PDef := ⟨.ax, 0x0614, 0, 1, 4, .fp (mkRat (5368709) 536870912) 100, 0x3f000000, 0, .live⟩

/-- `AX.CATCHVMAX` (index 0x0615, vel64). -/
def axCatchvmax : PDef := ⟨.ax, 0x0615, 0, 1, 8, .nat 1 0x7FFFFFFFFFFFFFFF, 8589934592000000, 0, .live⟩

/-- `AX.STEPSRCPORT` (index 0x0616, u8). -/
def axStepsrcport : PDef := ⟨.ax, 0x0616, 0, 1, 1, .natOr 0 63 0xFF, 0xFF, 0, .draft⟩

/-- `AX.STEPFNUM` (index 0x0617, u32). -/
def axStepfnum : PDef := ⟨.ax, 0x0617, 0, 1, 4, .nat 1 4294967295, 1, 0, .live⟩

/-- `AX.STEPFDEN` (index 0x0618, u32). -/
def axStepfden : PDef := ⟨.ax, 0x0618, 0, 1, 4, .nat 1 4294967295, 1, 0, .live⟩

/-- `AX.STEPLOAD` (index 0x0619, FP32). -/
def axStepload : PDef := ⟨.ax, 0x0619, 0, 1, 4, .any, 0x0, 0, .readOnly⟩

/-- `AX.CHOPOFFS` (index 0x061A, FP32[2], 8 bytes). -/
def axChopoffs : PDef := ⟨.ax, 0x061A, 0, 1, 8, .any, 0x0, 0, .readOnly⟩

/-- `AX.STEPSTAT` (index 0x061B, u32). -/
def axStepstat : PDef := ⟨.ax, 0x061B, 0, 1, 4, .any, 0, 0, .readOnly⟩

/-- `AX.LATCHEVT` (index 0x0800, u8). -/
def axLatchevt : PDef := ⟨.ax, 0x0800, 0, 1, 1, .any, 0xFF, 0, .live⟩

/-- `AX.LATCHLOST` (index 0x0801, u32[4], 16 bytes). -/
def axLatchlost : PDef := ⟨.ax, 0x0801, 0, 1, 16, .any, 0, 0, .readOnly⟩

/-- `AX.CMPSTAT` (index 0x0802, u32). -/
def axCmpstat : PDef := ⟨.ax, 0x0802, 0, 1, 4, .any, 0, 0, .readOnly⟩

/-- `AX.CMPLEAD` (index 0x0803, u32). -/
def axCmplead : PDef := ⟨.ax, 0x0803, 0, 1, 4, .nat 0 100000000, 0, 0, .live⟩

/-- `AX.CMPFIRED` (index 0x0804, u32[4], 16 bytes). -/
def axCmpfired : PDef := ⟨.ax, 0x0804, 0, 1, 16, .any, 0, 0, .readOnly⟩

/-- `AX.MASTER` (index 0x0900, u16). -/
def axMaster : PDef := ⟨.ax, 0x0900, 0, 1, 2, .natOr 0 511 0xFFFF, 0xFFFF, 0, .draft⟩

/-- `AX.MASTERPATH` (index 0x0901, u32). -/
def axMasterpath : PDef := ⟨.ax, 0x0901, 0, 1, 4, .any, 0, 0, .draft⟩

/-- `AX.MASTERSRC` (index 0x0902, u8). -/
def axMastersrc : PDef := ⟨.ax, 0x0902, 0, 1, 1, .nat 0 1, 0, 0, .live⟩

/-- `AX.CAMBLEND` (index 0x0903, u32). -/
def axCamblend : PDef := ⟨.ax, 0x0903, 0, 1, 4, .nat 0 2147483648, 0, 0, .live⟩

/-- `AX.PATHGRP` (index 0x0904, u8). -/
def axPathgrp : PDef := ⟨.ax, 0x0904, 0, 1, 1, .nat 0 64, 0, 0, .draft⟩

/-- `AX.COORDSTAT` (index 0x0905, u32). -/
def axCoordstat : PDef := ⟨.ax, 0x0905, 0, 1, 4, .any, 0, 0, .readOnly⟩

/-- `AX.GEARRATIO` (index 0x0906, i32, u32, 8 bytes). -/
def axGearratio : PDef := ⟨.ax, 0x0906, 0, 1, 8, .any, 0, 0, .readOnly⟩

/-- `AX.CAMPHASE` (index 0x0907, pos64). -/
def axCamphase : PDef := ⟨.ax, 0x0907, 0, 1, 8, .any, 0, 0, .readOnly⟩

/-- `AX.PATHQFREE` (index 0x0908, u16). -/
def axPathqfree : PDef := ⟨.ax, 0x0908, 0, 1, 2, .any, 1024, 0, .readOnly⟩

/-- `SF.RESETIN` (index 0x0000, u8). -/
def sfResetin : PDef := ⟨.sf, 0x0000, 0, 1, 1, .natOr 0 31 0xFF, 0xFF, 0, .sealed⟩

/-- `SF.STARTRESET` (index 0x0001, u8). -/
def sfStartreset : PDef := ⟨.sf, 0x0001, 0, 1, 1, .nat 0 1, 1, 0, .sealed⟩

/-- `SF.TPOPER` (index 0x0002, u16). -/
def sfTpoper : PDef := ⟨.sf, 0x0002, 0, 1, 2, .nat 4 100, 10, 0, .sealed⟩

/-- `SF.TPOWIDTH` (index 0x0003, u16). -/
def sfTpowidth : PDef := ⟨.sf, 0x0003, 0, 1, 2, .natStep 100 500 10, 200, 0, .sealed⟩

/-- `SF.PORTSUSED` (index 0x0004, u64). -/
def sfPortsused : PDef := ⟨.sf, 0x0004, 0, 1, 8, .any, 0, 0, .sealed⟩

/-- `SF.OTESO` (index 0x0005, u8). -/
def sfOteso : PDef := ⟨.sf, 0x0005, 0, 1, 1, .natOr 0 15 0xFF, 0xFF, 0, .sealed⟩

/-- `SF.SOPPER` (index 0x0006, u16). -/
def sfSopper : PDef := ⟨.sf, 0x0006, 0, 1, 2, .nat 20 1000, 50, 0, .sealed⟩

/-- `SF.SOPWIDTH` (index 0x0007, u16). -/
def sfSopwidth : PDef := ⟨.sf, 0x0007, 0, 1, 2, .nat 200 500, 300, 0, .sealed⟩

/-- `SF.EDMTIME` (index 0x0008, u16). -/
def sfEdmtime : PDef := ⟨.sf, 0x0008, 0, 1, 2, .nat 10 1000, 100, 0, .sealed⟩

/-- `SF.BTINTERVAL` (index 0x0009, u16). -/
def sfBtinterval : PDef := ⟨.sf, 0x0009, 0, 1, 2, .natOr 1 720 0, 0, 0, .sealed⟩

/-- `SF.SI_TPO` (index 0x0100 + 0x4 × n, u8). -/
def sfSiTpo : PDef := ⟨.sf, 0x0100, 4, 32, 1, .natOr 0 7 0xFF, 0xFF, 0, .sealed⟩

/-- `SF.SI_FILT` (index 0x0101 + 0x4 × n, u8). -/
def sfSiFilt : PDef := ⟨.sf, 0x0101, 4, 32, 1, .nat 1 100, 3, 0, .sealed⟩

/-- `SF.SI_OSSDTP` (index 0x0102 + 0x4 × n, u16). -/
def sfSiOssdtp : PDef := ⟨.sf, 0x0102, 4, 32, 2, .natOr 10 1000 0, 0, 0, .sealed⟩

/-- `SF.SO_MODE` (index 0x0A00 + 0x1 × n, u8). -/
def sfSoMode : PDef := ⟨.sf, 0x0A00, 1, 16, 1, .nat 0 2, 0, 0, .sealed⟩

/-- `SF.FN_TYPE` (index 0x0200 + 0x10 × n, u8). -/
def sfFnType : PDef := ⟨.sf, 0x0200, 16, 16, 1, .nat 0 6, 0, 0, .sealed⟩

/-- `SF.FN_IN` (index 0x0201 + 0x10 × n, u8[4], 4 bytes). -/
def sfFnIn : PDef := ⟨.sf, 0x0201, 16, 16, 4, .words 1 4 0 31 255, 0xFFFFFFFF, 0, .sealed⟩

/-- `SF.FN_DISC` (index 0x0202 + 0x10 × n, u16). -/
def sfFnDisc : PDef := ⟨.sf, 0x0202, 16, 16, 2, .nat 10 3000, 200, 0, .sealed⟩

/-- `SF.FN_PORTS` (index 0x0203 + 0x10 × n, u64). -/
def sfFnPorts : PDef := ⟨.sf, 0x0203, 16, 16, 8, .any, 0, 0, .sealed⟩

/-- `SF.FN_SO` (index 0x0204 + 0x10 × n, u16). -/
def sfFnSo : PDef := ⟨.sf, 0x0204, 16, 16, 2, .any, 0, 0, .sealed⟩

/-- `SF.FN_STOP` (index 0x0205 + 0x10 × n, u8). -/
def sfFnStop : PDef := ⟨.sf, 0x0205, 16, 16, 1, .nat 0 1, 0, 0, .sealed⟩

/-- `SF.FN_RESET` (index 0x0206 + 0x10 × n, u8). -/
def sfFnReset : PDef := ⟨.sf, 0x0206, 16, 16, 1, .nat 0 1, 0, 0, .sealed⟩

/-- `SF.FN_LOCKSO` (index 0x0207 + 0x10 × n, u8). -/
def sfFnLockso : PDef := ⟨.sf, 0x0207, 16, 16, 1, .natOr 8 15 0xFF, 0xFF, 0, .sealed⟩

/-- `SF.FN_LOCKDLY` (index 0x0208 + 0x10 × n, u32). -/
def sfFnLockdly : PDef := ⟨.sf, 0x0208, 16, 16, 4, .nat 0 600000, 1000, 0, .sealed⟩

/-- `SF.FN_LOCKACT` (index 0x0209 + 0x10 × n, u8). -/
def sfFnLockact : PDef := ⟨.sf, 0x0209, 16, 16, 1, .nat 0 1, 1, 0, .sealed⟩

/-- `SF.PT_SS1TIME` (index 0x0600 + 0x10 × n, u32). -/
def sfPtSs1time : PDef := ⟨.sf, 0x0600, 16, 64, 4, .nat 0 30000, 1000, 0, .sealed⟩

/-- `SF.PT_SS1STAND` (index 0x0601 + 0x10 × n, u32). -/
def sfPtSs1stand : PDef := ⟨.sf, 0x0601, 16, 64, 4, .natOr 1 65535 0, 0, 0, .sealed⟩

/-- `SF.PT_BRAKE` (index 0x0602 + 0x10 × n, u8). -/
def sfPtBrake : PDef := ⟨.sf, 0x0602, 16, 64, 1, .nat 0 1, 0, 0, .sealed⟩

/-- `SF.PT_BRKFBT` (index 0x0603 + 0x10 × n, u16). -/
def sfPtBrkfbt : PDef := ⟨.sf, 0x0603, 16, 64, 2, .nat 10 2000, 200, 0, .sealed⟩

/-- `SF.PT_BRKFBPOL` (index 0x0604 + 0x10 × n, u8). -/
def sfPtBrkfbpol : PDef := ⟨.sf, 0x0604, 16, 64, 1, .nat 0 1, 0, 0, .sealed⟩

/-- `SF.PT_BTCUR` (index 0x0605 + 0x10 × n, FP32). -/
def sfPtBtcur : PDef := ⟨.sf, 0x0605, 16, 64, 4, .fp (mkRat (5368709) 536870912) 1000, 0x3f800000, 0, .sealed⟩

/-- `SF.PT_BTTIME` (index 0x0606 + 0x10 × n, u32). -/
def sfPtBttime : PDef := ⟨.sf, 0x0606, 16, 64, 4, .nat 100 10000, 1000, 0, .sealed⟩

/-- `SF.PT_BTPOSMAX` (index 0x0607 + 0x10 × n, u32). -/
def sfPtBtposmax : PDef := ⟨.sf, 0x0607, 16, 64, 4, .nat 1 65535, 100, 0, .sealed⟩

/-- `DV.TSROLE` (index 0x0100, u8). -/
def dvTsrole : PDef := ⟨.dv, 0x0100, 0, 1, 1, .nat 0 1, 1, 0, .draft⟩

/-- `DV.TSPRIO1` (index 0x0101, u8). -/
def dvTsprio1 : PDef := ⟨.dv, 0x0101, 0, 1, 1, .nat 0 255, 246, 0, .draft⟩

/-- `DV.TSPRIO2` (index 0x0102, u8). -/
def dvTsprio2 : PDef := ⟨.dv, 0x0102, 0, 1, 1, .nat 0 255, 248, 0, .draft⟩

/-- `DV.TSSYNCLOG` (index 0x0103, i8). -/
def dvTssynclog : PDef := ⟨.dv, 0x0103, 0, 1, 1, .int 8 (-7) 0, 0xFB, 0, .draft⟩

/-- `DV.TSBW` (index 0x0104, FP32). -/
def dvTsbw : PDef := ⟨.dv, 0x0104, 0, 1, 4, .fp (mkRat (5368709) 536870912) 10, 0x3f000000, 0, .live⟩

/-- `DV.TSDAMP` (index 0x0105, FP32). -/
def dvTsdamp : PDef := ⟨.dv, 0x0105, 0, 1, 4, .fp (mkRat (1) 2) 2, 0x3f34fdf4, 0, .live⟩

/-- `DV.TSJUMP` (index 0x0106, u32). -/
def dvTsjump : PDef := ⟨.dv, 0x0106, 0, 1, 4, .nat 100 1000000000, 1000, 0, .live⟩

/-- `DV.TSLOCKWIN` (index 0x0107, u32). -/
def dvTslockwin : PDef := ⟨.dv, 0x0107, 0, 1, 4, .nat 10 100000, 100, 0, .live⟩

/-- `DV.TSHOLDMAX` (index 0x0108, u32). -/
def dvTsholdmax : PDef := ⟨.dv, 0x0108, 0, 1, 4, .nat 1 86400, 60, 0, .live⟩

/-- `DV.TSADDEND` (index 0x0109, u64). -/
def dvTsaddend : PDef := ⟨.dv, 0x0109, 0, 1, 8, .any, 2748779069440, 0, .readOnly⟩

/-- `DV.TSOFFSET` (index 0x010A, i32). -/
def dvTsoffset : PDef := ⟨.dv, 0x010A, 0, 1, 4, .any, 0, 0, .readOnly⟩

/-- `DV.TSFREQ` (index 0x010B, FP32). -/
def dvTsfreq : PDef := ⟨.dv, 0x010B, 0, 1, 4, .any, 0x0, 0, .readOnly⟩

/-- `DV.TSSTATE` (index 0x010C, u8). -/
def dvTsstate : PDef := ⟨.dv, 0x010C, 0, 1, 1, .any, 0, 0, .readOnly⟩

/-- `DV.TSPPSIN` (index 0x010D, u8). -/
def dvTsppsin : PDef := ⟨.dv, 0x010D, 0, 1, 1, .nat 0 1, 0, 0, .draft⟩

/-- `DV.TSDOMAIN` (index 0x010E, u8). -/
def dvTsdomain : PDef := ⟨.dv, 0x010E, 0, 1, 1, .nat 0 127, 0, 0, .draft⟩

/-- `DV.TSASYM` (index 0x010F, i32[4], 16 bytes). -/
def dvTsasym : PDef := ⟨.dv, 0x010F, 0, 1, 16, .ints 4 (-100000) 100000, 0, 0, .live⟩

/-- `DV.TSNEIGHTHR` (index 0x0110, u32). -/
def dvTsneighthr : PDef := ⟨.dv, 0x0110, 0, 1, 4, .nat 100 100000, 800, 0, .draft⟩

/-- `DV.TSQLOST` (index 0x0111, u32[4], 16 bytes). -/
def dvTsqlost : PDef := ⟨.dv, 0x0111, 0, 1, 16, .any, 0, 0, .readOnly⟩

/-- `DV.ETH_MODE` (index 0x0200 + 0x10 × n, u8). -/
def dvEthMode : PDef := ⟨.dv, 0x0200, 16, 4, 1, .nat 0 3, 0, 0, .draft⟩

/-- `DV.ETH_AN` (index 0x0201 + 0x10 × n, u8). -/
def dvEthAn : PDef := ⟨.dv, 0x0201, 16, 4, 1, .nat 0 1, 1, 0, .draft⟩

/-- `DV.ETH_USE` (index 0x0202 + 0x10 × n, u8). -/
def dvEthUse : PDef := ⟨.dv, 0x0202, 16, 4, 1, .nat 0 2, 0, 0, .draft⟩

/-- `DV.ETH_MDIOADDR` (index 0x0203 + 0x10 × n, u8). -/
def dvEthMdioaddr : PDef := ⟨.dv, 0x0203, 16, 4, 1, .natOr 0 31 0xFF, 0xFF, 0, .draft⟩

/-- `DV.ETH_PREEMPT` (index 0x0204 + 0x10 × n, u8). -/
def dvEthPreempt : PDef := ⟨.dv, 0x0204, 16, 4, 1, .any, 0x80, 0, .draft⟩

/-- `DV.ETH_GCL` (index 0x0205 + 0x10 × n, u32[64], 256 bytes). -/
def dvEthGcl : PDef := ⟨.dv, 0x0205, 16, 4, 256, .any, 0xFF, 0, .draft⟩

/-- `DV.ETH_STATUS` (index 0x0206 + 0x10 × n, u32). -/
def dvEthStatus : PDef := ⟨.dv, 0x0206, 16, 4, 4, .any, 0, 0, .readOnly⟩

/-- `DV.JALUTCYCLE` (index 0x0280, u32). -/
def dvJalutcycle : PDef := ⟨.dv, 0x0280, 0, 1, 4, .natStep 31250 4000000 31250, 250000, 0, .draft⟩

/-- `DV.JALUTWIN` (index 0x0281, u8). -/
def dvJalutwin : PDef := ⟨.dv, 0x0281, 0, 1, 1, .nat 10 90, 50, 0, .draft⟩

/-- `DV.JALUTCABLE` (index 0x0282, u32). -/
def dvJalutcable : PDef := ⟨.dv, 0x0282, 0, 1, 4, .nat 0 5000, 500, 0, .draft⟩

/-- `DV.JALUTLOSS` (index 0x0283, u8). -/
def dvJalutloss : PDef := ⟨.dv, 0x0283, 0, 1, 1, .nat 1 255, 3, 0, .live⟩

/-- `DV.JNLOSSCLASS` (index 0x0284, u8). -/
def dvJnlossclass : PDef := ⟨.dv, 0x0284, 0, 1, 1, .nat 1 6, 4, 0, .live⟩

/-- `DV.JALUTVERMAX` (index 0x0285, u8). -/
def dvJalutvermax : PDef := ⟨.dv, 0x0285, 0, 1, 1, .nat 1 2, 2, 0, .draft⟩

/-- `DV.JALUTMAC` (index 0x0286, u8[8], 8 bytes). -/
def dvJalutmac : PDef := ⟨.dv, 0x0286, 0, 1, 8, .custom 1, 0x00004A585301, 0, .draft⟩

/-- `DV.CAN_FMT` (index 0x0240 + 0x10 × n, u8). -/
def dvCanFmt : PDef := ⟨.dv, 0x0240, 16, 4, 1, .nat 0 3, 0, 0, .draft⟩

/-- `DV.CAN_OPMODE` (index 0x0241 + 0x10 × n, u8). -/
def dvCanOpmode : PDef := ⟨.dv, 0x0241, 16, 4, 1, .nat 0 3, 0, 0, .draft⟩

/-- `DV.CAN_NBT` (index 0x0242 + 0x10 × n, u32). -/
def dvCanNbt : PDef := ⟨.dv, 0x0242, 16, 4, 4, .mask 0x7FFFFFFF, 0x13269C03, 0, .draft⟩

/-- `DV.CAN_DBT` (index 0x0243 + 0x10 × n, u32). -/
def dvCanDbt : PDef := ⟨.dv, 0x0243, 16, 4, 4, .mask 0x03FFFFFF, 0x00A51243, 0, .draft⟩

/-- `DV.CAN_XBT` (index 0x0244 + 0x10 × n, u32). -/
def dvCanXbt : PDef := ⟨.dv, 0x0244, 16, 4, 4, .mask 0x03FFFFFF, 0x00A51243, 0, .draft⟩

/-- `DV.CAN_ABRLIST` (index 0x0245 + 0x10 × n, u32[8], 32 bytes). -/
def dvCanAbrlist : PDef := ⟨.dv, 0x0245, 16, 4, 32, .custom 4, 0, 0, .draft⟩

/-- `DV.CAN_TT` (index 0x0246 + 0x10 × n, u8). -/
def dvCanTt : PDef := ⟨.dv, 0x0246, 16, 4, 1, .nat 0 2, 0, 0, .draft⟩

/-- `DV.CAN_REFID` (index 0x0247 + 0x10 × n, u16). -/
def dvCanRefid : PDef := ⟨.dv, 0x0247, 16, 4, 2, .nat 0 2047, 128, 0, .draft⟩

/-- `DV.CAN_BCYCLE` (index 0x0248 + 0x10 × n, u32). -/
def dvCanBcycle : PDef := ⟨.dv, 0x0248, 16, 4, 4, .nat 100 65535, 1000, 0, .draft⟩

/-- `DV.CAN_SM` (index 0x0249 + 0x10 × n, u32[64], 256 bytes). -/
def dvCanSm : PDef := ⟨.dv, 0x0249, 16, 4, 256, .custom 5, 0, 0, .draft⟩

/-- `DV.CAN_SLOT` (index 0x024A + 0x10 × n, u32[64], 256 bytes). -/
def dvCanSlot : PDef := ⟨.dv, 0x024A, 16, 4, 256, .custom 6, 0, 0, .draft⟩

/-- `DV.CAN_FILTER` (index 0x024B + 0x10 × n, u32[64], 256 bytes). -/
def dvCanFilter : PDef := ⟨.dv, 0x024B, 16, 4, 256, .custom 2, 0, 0, .live⟩

/-- `DV.CAN_RXBYTES` (index 0x024C + 0x10 × n, u32[4], 16 bytes). -/
def dvCanRxbytes : PDef := ⟨.dv, 0x024C, 16, 4, 16, .custom 3, 0, 0, .draft⟩

/-- `DV.CAN_BORECOV` (index 0x024D + 0x10 × n, u8). -/
def dvCanBorecov : PDef := ⟨.dv, 0x024D, 16, 4, 1, .nat 0 1, 0, 0, .live⟩

/-- `DV.CAN_REFLOSS` (index 0x024E + 0x10 × n, u8). -/
def dvCanRefloss : PDef := ⟨.dv, 0x024E, 16, 4, 1, .nat 1 16, 3, 0, .live⟩

/-- `DV.CAN_STATUS` (index 0x024F + 0x10 × n, u32). -/
def dvCanStatus : PDef := ⟨.dv, 0x024F, 16, 4, 4, .any, 0, 0, .readOnly⟩

/-- `DV.CAN_TXENWIN` (index 0x02C0 + 0x8 × n, u8). -/
def dvCanTxenwin : PDef := ⟨.dv, 0x02C0, 8, 4, 1, .nat 1 16, 2, 0, .draft⟩

/-- `DV.CAN_ABRSEL` (index 0x02C1 + 0x8 × n, u8). -/
def dvCanAbrsel : PDef := ⟨.dv, 0x02C1, 8, 4, 1, .any, 255, 0, .readOnly⟩

/-- `DV.CAN_GTOFFS` (index 0x02C2 + 0x8 × n, i32). -/
def dvCanGtoffs : PDef := ⟨.dv, 0x02C2, 8, 4, 4, .any, 0, 0, .readOnly⟩

/-- `DV.CAN_CLASHID` (index 0x02C3 + 0x8 × n, u32). -/
def dvCanClashid : PDef := ⟨.dv, 0x02C3, 8, 4, 4, .any, 0, 0, .readOnly⟩

/-- `DV.CAN_RXLOST` (index 0x02C4 + 0x8 × n, u32[4], 16 bytes). -/
def dvCanRxlost : PDef := ⟨.dv, 0x02C4, 8, 4, 16, .any, 0, 0, .readOnly⟩

/-- `DV.CAN_TXMISSED` (index 0x02C5 + 0x8 × n, u32). -/
def dvCanTxmissed : PDef := ⟨.dv, 0x02C5, 8, 4, 4, .any, 0, 0, .readOnly⟩

/-- `DV.CRSCRUBPER` (index 0x0300, u16). -/
def dvCrscrubper : PDef := ⟨.dv, 0x0300, 0, 1, 2, .nat 10 60000, 1000, 0, .live⟩

/-- `DV.CRCOLLEVT` (index 0x0301, u8). -/
def dvCrcollevt : PDef := ⟨.dv, 0x0301, 0, 1, 1, .nat 0 1, 0, 0, .live⟩

/-- `DV.CRCOLL` (index 0x0302, u32[16], 64 bytes). -/
def dvCrcoll : PDef := ⟨.dv, 0x0302, 0, 1, 64, .any, 0, 0, .readOnly⟩

/-- `DV.CRECC` (index 0x0303, u32[64], 256 bytes). -/
def dvCrecc : PDef := ⟨.dv, 0x0303, 0, 1, 256, .any, 0, 0, .readOnly⟩

/-- `DV.CRWEAK` (index 0x0304, u16[64], 128 bytes). -/
def dvCrweak : PDef := ⟨.dv, 0x0304, 0, 1, 128, .any, 0, 0, .readOnly⟩

/-- `DV.CRREPAIR` (index 0x0305, u8[64], 64 bytes). -/
def dvCrrepair : PDef := ⟨.dv, 0x0305, 0, 1, 64, .any, 0, 0, .readOnly⟩

/-- `DV.CRRETIRED` (index 0x0306, u8). -/
def dvCrretired : PDef := ⟨.dv, 0x0306, 0, 1, 1, .any, 255, 0, .readOnly⟩

/-- `DV.CRVIOL` (index 0x0307, 16 bytes). -/
def dvCrviol : PDef := ⟨.dv, 0x0307, 0, 1, 16, .any, 0, 0, .readOnly⟩

/-- `DV.CRCAMBYTES` (index 0x0308, u32). -/
def dvCrcambytes : PDef := ⟨.dv, 0x0308, 0, 1, 4, .natStep 0 8388608 4096, 1048576, 0, .draft⟩

/-- `DV.CRPOOLFREE` (index 0x0309, u32). -/
def dvCrpoolfree : PDef := ⟨.dv, 0x0309, 0, 1, 4, .any, 0, 0, .readOnly⟩

/-- `DV.WM_BUFBYTES` (index 0x0400, u32). -/
def dvWmBufbytes : PDef := ⟨.dv, 0x0400, 0, 1, 4, .natStep 1048576 25165824 1048576, 16777216, 0, .draft⟩

/-- `DV.WM_STATE` (index 0x0401, u8). -/
def dvWmState : PDef := ⟨.dv, 0x0401, 0, 1, 1, .any, 0, 0, .readOnly⟩

/-- `DV.WM_LOST` (index 0x0402, u32). -/
def dvWmLost : PDef := ⟨.dv, 0x0402, 0, 1, 4, .any, 0, 0, .readOnly⟩

/-- `DV.WM_COUNT` (index 0x0403, u32). -/
def dvWmCount : PDef := ⟨.dv, 0x0403, 0, 1, 4, .any, 0, 0, .readOnly⟩

/-- `DV.FAULTSTAT` (index 0x0620, u32). -/
def dvFaultstat : PDef := ⟨.dv, 0x0620, 0, 1, 4, .any, 0, 0, .readOnly⟩

/-- `DV.UPSETS` (index 0x0621, u8[24], 24 bytes). -/
def dvUpsets : PDef := ⟨.dv, 0x0621, 0, 1, 24, .any, 0, 0, .readOnly⟩

/-- `DV.DBGLEVEL` (index 0x0622, u8). -/
def dvDbglevel : PDef := ⟨.dv, 0x0622, 0, 1, 1, .any, 0, 0, .readOnly⟩

/-- `DV.TEMP` (index 0x0623, FP32). -/
def dvTemp : PDef := ⟨.dv, 0x0623, 0, 1, 4, .any, 0, 0, .readOnly⟩

def rows0 : List PDef :=
  [axBindkind, axPort, axNetkind, axNetaddr, axSpperiod, axUsertag,
   axState, dvSesstmo, dvSessloss, dvHscount, dvAdmmargin, dvLeservice,
   dvLeshoulder, dvCfggen, dvUsertasks, ptSddiv, ptSdosr, ptQuietwin,
   ptSdedge, ptSddecdly, ptModlim, axCurprog, axPolepairs, axRs,
   axLd, axLq, axPsim, axIscale, axIoffmax, axCurbw,
   axObsbw, axCurint, axAnglesrc, axAngleinit, axAngleoff, axHalloff,
   axAnglelat, axAligncur, axAligntime, axAlignsettle]
def rows1 : List PDef :=
  [axDtcomp, axImaxtrip, axLosinnov, axLosangle, axLosminspd, axLostime,
   axLosclass, axVbussrc, axVbusscale, axVbusmin, axOffcalvel, axSdfltcnt,
   axCurstat, axIoffa, axIoffb, axAnglew, ptKind, ptCarrier,
   ptPeriod, ptUpdate, ptPhase, ptShadowfmt, ptOwner, ptPwrclass,
   ptDeadtime, ptBootstrap, ptReftime, ptRefk, ptBsprechg, ptDutycap,
   ptBothon, ptActshort, ptSnsthr, ptSnsen, ptBlank, ptTripmode,
   ptCbcmax, ptTripcnt, ptHaltmode, ptForcestat]
def rows2 : List PDef :=
  [ptDltaps, dvDcbEn, dvDcbSdport, dvDcbOsr, dvDcbVscale, dvDcbUv,
   dvDcbPrev, dvDcbPretmo, dvDcbOv1, dvDcbHyst, dvDcbOv2, dvDcbOv3,
   dvDcbChr, dvDcbChemax, dvDcbChtau, dvDcbRegenlim, dvDcbChfbt, dvDcbState,
   dvDcbV, dvDcbFlags, dvDcbChen, dvDcbChw, dvDcbVmax, dvDcbChduty,
   dvPortbus, axFbmode, axFbfilt, axCrev, axFbdir, axQerrmax,
   axQerrwin, axFbclass, axChatmax, axStucktmo, axZqual, axHallport,
   axSsibits, axSsifreq, axSsifmt, axSsievery]
def rows3 : List PDef :=
  [axSsirecov, axSsijump, axFberrmax, axRexsel, axRespp, axResbw,
   axResampmin, axResampmax, axRestrkmax, axResdelay, axStepedge, axVelwin,
   axVeltau, axInterpmax, axFbstat, axFberrcnt, dvEmuMode, dvEmuSrc,
   dvEmuNum, dvEmuDen, dvEmuUpd, dvEmuZper, dvEmuZoff, dvEmuStepw,
   dvEmuDirset, dvEmuDir, dvEmuCount, dvEmuBacklog, dvPrbfilt, dvPrbedge,
   dvPrbchatmax, dvPrbstuck, dvPrblost, dvRexEn, dvRexPeriod, dvRexAmp,
   axPosprog, axPosdiv, axKacc, axPosbw]
def rows4 : List PDef :=
  [axPosint, axPosobsbw, axVffgain, axAffgain, axIntmove, axGroup,
   axTensref, axStalemax, axStaleclass, axPosstat, axPoserr, axIref,
   axDistest, axI2tstate, axPosdelay, axFricen, axCogen, axTblcap,
   axFricshift, axFricorg, axFricwrap, axCogshift, axCogorg, axCogwrap,
   axFricvel, axCompscale, axFriclen, axCoglen, axTblmiss, axCompcur,
   axFelim, axFewarn, axFeclass, axVmaxtrip, axIlimpos, axIlimneg,
   axIrated, axI2ttau, axStandvel, axStandtime]
def rows5 : List PDef :=
  [axInposwin, axHoldwin, axHoldclass, axSwlimpos, axSwlimneg, axSwlimclass,
   axNetloss, axNetclass, axVstart, axA1, axV1, axAmax,
   axVmax, axDmax, axD1, axVstop, axQstopdec, axProfstat,
   axOvershoot, axTarget, axCmdpos, axCmdvel, axHomemethod, axHomedir,
   axHomein, axLimposin, axLimnegin, axHomepol, axHomevfast, axHomevslow,
   axHomeacc, axHomepos, axHomebackoff, axHomemaxdist, axHomecreepmax, axHomechatmax,
   axHomestallcur, axHomestallt, axHomereq, axLimclass]
def rows6 : List PDef :=
  [axHomemove, axHomestat, axStepsrev, axMicrostep, axStepirun, axStepihold,
   axHoldmode, axChophyst, axChoposr, axChoptoff, axChopblank, axChopdecay,
   axChopfast, axChopadapt, axSteprw, axSteplw, axStepke, axStallthr,
   axStallminvel, axStalltime, axStallclass, axCatchtime, axCatchemin, axCatchvmax,
   axStepsrcport, axStepfnum, axStepfden, axStepload, axChopoffs, axStepstat,
   axLatchevt, axLatchlost, axCmpstat, axCmplead, axCmpfired, axMaster,
   axMasterpath, axMastersrc, axCamblend, axPathgrp]
def rows7 : List PDef :=
  [axCoordstat, axGearratio, axCamphase, axPathqfree, sfResetin, sfStartreset,
   sfTpoper, sfTpowidth, sfPortsused, sfOteso, sfSopper, sfSopwidth,
   sfEdmtime, sfBtinterval, sfSiTpo, sfSiFilt, sfSiOssdtp, sfSoMode,
   sfFnType, sfFnIn, sfFnDisc, sfFnPorts, sfFnSo, sfFnStop,
   sfFnReset, sfFnLockso, sfFnLockdly, sfFnLockact, sfPtSs1time, sfPtSs1stand,
   sfPtBrake, sfPtBrkfbt, sfPtBrkfbpol, sfPtBtcur, sfPtBttime, sfPtBtposmax,
   dvTsrole, dvTsprio1, dvTsprio2, dvTssynclog]
def rows8 : List PDef :=
  [dvTsbw, dvTsdamp, dvTsjump, dvTslockwin, dvTsholdmax, dvTsaddend,
   dvTsoffset, dvTsfreq, dvTsstate, dvTsppsin, dvTsdomain, dvTsasym,
   dvTsneighthr, dvTsqlost, dvEthMode, dvEthAn, dvEthUse, dvEthMdioaddr,
   dvEthPreempt, dvEthGcl, dvEthStatus, dvJalutcycle, dvJalutwin, dvJalutcable,
   dvJalutloss, dvJnlossclass, dvJalutvermax, dvJalutmac, dvCanFmt, dvCanOpmode,
   dvCanNbt, dvCanDbt, dvCanXbt, dvCanAbrlist, dvCanTt, dvCanRefid,
   dvCanBcycle, dvCanSm, dvCanSlot, dvCanFilter]
def rows9 : List PDef :=
  [dvCanRxbytes, dvCanBorecov, dvCanRefloss, dvCanStatus, dvCanTxenwin, dvCanAbrsel,
   dvCanGtoffs, dvCanClashid, dvCanRxlost, dvCanTxmissed, dvCrscrubper, dvCrcollevt,
   dvCrcoll, dvCrecc, dvCrweak, dvCrrepair, dvCrretired, dvCrviol,
   dvCrcambytes, dvCrpoolfree, dvWmBufbytes, dvWmState, dvWmLost, dvWmCount,
   dvFaultstat, dvUpsets, dvDbglevel, dvTemp, dvRstcause, dvRstcount,
   dvBwrestarts]

/-- Every parameter of the spec. -/
def all : List PDef :=
  rows0 ++ rows1 ++ rows2 ++ rows3 ++ rows4 ++ rows5 ++ rows6 ++ rows7 ++ rows8 ++ rows9

end P

/-- Family code of a parameter record (Table 3.25). -/
def PFam.code : PFam → Nat
  | .ax => 1 | .pt => 2 | .dv => 3 | .sf => 4

def PFam.ofCode : Nat → Option PFam
  | 1 => some .ax | 2 => some .pt | 3 => some .dv | 4 => some .sf | _ => none

/-- Instances of a family (Table 3.25). -/
def PFam.instances : PFam → Nat
  | .ax => 512 | .pt => 64 | .dv => 1 | .sf => 1

/-- The row covers index `i`. -/
def PDef.covers (d : PDef) (i : Nat) : Bool :=
  if d.stride = 0 then d.idx == i
  else decide (d.idx ≤ i) && (i - d.idx) % d.stride == 0 && decide ((i - d.idx) / d.stride < d.cnt)

/-- The catalogue row of an index (R126 reason 0x01 when there is none). -/
def findParam (f : PFam) (i : Nat) : Option PDef :=
  P.all.find? (fun d => d.fam == f && d.covers i)

/-- The default of the parameter at index `i` of a row. -/
def PDef.dfltAt (d : PDef) (i : Nat) : Nat :=
  if d.stride = 0 then d.dflt else d.dflt + d.dfltStep * ((i - d.idx) / d.stride)

/-- The items of `w` bytes of a value. -/
def itemsOf (w v : Nat) : Nat → List Nat
  | 0 => []
  | n + 1 => v % 256 ^ w :: itemsOf w (v / 256 ^ w) n

/-- An FP32 pattern inside bounds; NaN and infinities never are (R4). -/
def fpInRange (lo hi : Rat) (v : Nat) : Bool :=
  let b := BitVec.ofNat 32 v
  fpFinite b && decide (lo ≤ fpToRat b) && decide (fpToRat b ≤ hi)

/-- An entry of the schedule matrix keeps to Table 14.6: `REP` is at most 6, and `SLOT` is 0 in types 0 and 3. -/
def smOk (x : Nat) : Bool :=
  decide (x / 2 ^ 16 % 8 ≤ 6) && (x / 2 ^ 25 % 4 == 1 || x / 2 ^ 25 % 4 == 2 || x / 2 ^ 27 == 0)

/-- Range rules with a form of their own: 1 `DV.JALUTMAC` (a group address, bytes 6–7 zero), 2 `DV.CAN_FILTER` (reserved bits of
the odd words zero, R462), 3 `DV.CAN_RXBYTES` (0, or 4,096 to 1,048,576 in multiples of 4,096), 4 `DV.CAN_ABRLIST` (words of Table
14.2), 5 `DV.CAN_SM` (Table 14.6), 6 `DV.CAN_SLOT` (reserved bits of the odd words zero, Table 14.8). -/
def customRange (n v : Nat) : Bool :=
  match n with
  | 1 => v % 2 == 1 && decide (v < 2 ^ 48)
  | 2 => (itemsOf 8 v 32).all (fun x => x / 2 ^ 32 &&& 0xA0000000 == 0)
  | 3 => (itemsOf 4 v 4).all (fun x => x == 0 || (decide (4096 ≤ x) && decide (x ≤ 1048576) && x % 4096 == 0))
  | 4 => (itemsOf 4 v 8).all (fun x => decide (x < 2 ^ 31))
  | 5 => (itemsOf 4 v 64).all smOk
  | 6 => (itemsOf 8 v 32).all (fun x => decide (x / 2 ^ 32 < 2 ^ 14))
  | _ => true

/-- The value lies in the range of its table entry. -/
def PRange.ok (r : PRange) (v : Nat) : Bool :=
  match r with
  | .any => true
  | .nat lo hi => decide (lo ≤ v) && decide (v ≤ hi)
  | .natOr lo hi o => v == o || (decide (lo ≤ v) && decide (v ≤ hi))
  | .natStep lo hi st => decide (lo ≤ v) && decide (v ≤ hi) && v % st == 0
  | .int w lo hi => decide (lo ≤ signed w v) && decide (signed w v ≤ hi)
  | .ints n lo hi => (itemsOf 4 v n).all (fun x => decide (lo ≤ signed 32 x) && decide (signed 32 x ≤ hi))
  | .fp lo hi => fpInRange lo hi v
  | .fps n lo hi => (itemsOf 4 v n).all (fpInRange lo hi)
  | .words w n lo hi o => (itemsOf w v n).all (fun x => x == o || (decide (lo ≤ x) && decide (x ≤ hi)))
  | .mask m => v &&& m == v
  | .custom n => customRange n v

/-- Key of a parameter value in the parameter store. -/
def pkey (f : PFam) (inst idx : Nat) : Nat := f.code * 2 ^ 32 + inst * 2 ^ 16 + idx

end Sys2Proof.Machine
end

