-- ==== Sys2Proof/Machine/StateBoot.lean ====
section
/-!
DEFINITION. State of supplies, clocks, resets, start-up and firmware update (chapter 2). Default values are the reset values.
-/
namespace Sys2Proof.Machine

/-- The power sequencer (R38 to R43). -/
inductive SeqState where
  /-- `POR_N` low -/
  | off
  /-- `PSEQn` asserted, waiting for `PGOODn` -/
  | wait (n : Fin 4)
  /-- 1 ms after a good stage -/
  | settle (n : Fin 4)
  | up
  /-- power-down; the outputs fall in the order 3, 2, 1, 0 -/
  | down
  /-- 100 ms before the sequence runs again -/
  | retry
  /-- three attempts have failed: every output low until `POR_N` is cycled -/
  | dead
  deriving DecidableEq, Repr

/-- One copy of the boot directory (Table 2.7); `valid` when `magic` and `crc` are right. -/
structure Directory where
  valid : Bool := true
  seq : Nat := 0
  active : Fin 2 := 0
  trial : Option (Fin 2) := none
  failed : Nat := 0
  deriving DecidableEq, Repr

/-- An open firmware update (R68, Table 3.28): target slot, image bytes, bytes received. -/
structure FwUpdate where
  target : Fin 2
  total : Nat
  got : List Byte := []
  /-- bytes of the staging buffer not yet written to flash -/
  staged : Nat := 0
  /-- CRC-32C that `FW_END` gave -/
  crc : Nat := 0
  erased : Bool := false
  /-- session that waits for the erase, then for `FW_END` -/
  ref : CmdRef
  ending : Bool := false
  deriving DecidableEq, Repr

structure Boot where
  seq : SeqState := .off
  pseq : BitVec 4 := 0
  /-- `POR_N` is high -/
  porN : Bool := false
  /-- `VDDTG` and `VDDTGIO` are in their windows; the board has them there before it raises `POR_N` (R37) -/
  tgRails : Bool := true
  /-- the power-down in progress began with a cold reset: the sequence starts afresh after it -/
  coldDown : Bool := false
  /-- failed power-up attempts in a row (R41) -/
  attempts : Nat := 0
  /-- the stage of the last failure (Table 2.5) -/
  failStage : Nat := 0
  /-- the main domain is in a reset (R54) -/
  inReset : Bool := true
  /-- an internal or pin cause holds the warm reset -/
  warmHeld : Bool := false
  pll : Bool := false
  /-- faulted clocks: REFCLK, LECLK, FABCLK, PWMCLK, PERCLK, root PLL (Table 2.3) -/
  clkFault : BitVec 6 := 0
  tgoscFault : Bool := false
  /-- the clock-independent safe path drives every PWM output low (R51, R246) -/
  safePath : Bool := false
  /-- a clock fault or a main-power reset to be recorded at the first boot after it (R518, R519): code and detail -/
  prior : List (Nat × Nat) := []
  /-- last step of Table 2.9 reached -/
  stage : Nat := 0
  /-- the present boot follows a cold reset (R65, R66) -/
  coldBoot : Bool := true
  /-- `DV.RSTCAUSE`: the first power-up is a cold reset (Table 2.5) -/
  rstCause : Nat := 1
  /-- Tollgate time at which the latest reset began, and whether a firmware activation was due and a debugger entitled to ask then:
  causes of one `TGOSC` cycle are set together (R58) -/
  rstAt : Nat := 0
  rstFw : Bool := false
  rstDbg : Bool := false
  rstCount : Nat := 0
  bwRestarts : Nat := 0
  ready : Bool := false
  recovery : Bool := false
  bywayUp : Bool := false
  bywayDead : Bool := false
  /-- carrier ticks of Byway crashes (R76), the cause and lost timed commands of the last -/
  crashes : List Nat := []
  crash : Option (Nat × Nat) := none
  /-- details of the restarts that are still to be reported at the next `HELLO`, oldest first (R77) -/
  report : List Nat := []
  /-- no event is sent until the host has opened a session (R77) -/
  quiet : Bool := false
  dirs : Vector Directory 2 := Vector.replicate 2 {}
  /-- the image slots of the flash, as far as the device has written them; none: as the board delivered the slot (Table 2.6) -/
  slots : Vector (Option (List Byte)) 2 := Vector.replicate 2 none
  /-- load offset and body of the Byway image that runs (R74) -/
  bwImage : Option (Nat × List Byte) := none
  /-- slot being tried or running, and whether it is on trial -/
  slot : Fin 2 := 0
  onTrial : Bool := false
  /-- security versions of the running images: Turnpike, Byway -/
  secTp : Nat := 0
  secBw : Nat := 0
  /-- rollback counters: Turnpike, Byway -/
  rollTp : Nat := 0
  rollBw : Nat := 0
  fw : Option FwUpdate := none
  /-- the last `FW_END` passed (R70) -/
  fwPassed : Option (Fin 2) := none
  /-- `TRIAL` or `REVERT` has been answered: the warm reset of R130 follows -/
  fwReset : Bool := false
  /-- `CONFIRM` whose fuses are being blown -/
  confirm : Option CmdRef := none
  deriving DecidableEq, Repr

end Sys2Proof.Machine
end

