-- ==== Sys2Proof/Machine/StateCan.lean ====
section
/-!
DEFINITION. State of the CAN controllers (chapter 14). Default values are the reset values; where the spec gives none, zero
(log 5).
-/
namespace Sys2Proof.Machine

/-- Controller states (Tables 14.4, 14.18). -/
inductive CanState where
  | off | rateDetect | integrating | listen | errorActive | errorPassive | busOff | recovering
  deriving DecidableEq, Repr

def CanState.code : CanState → Nat
  | .off => 0 | .rateDetect => 1 | .integrating => 2 | .listen => 3 | .errorActive => 4 | .errorPassive => 5 | .busOff => 6
  | .recovering => 7

/-- A frame to be sent: whom its confirmation goes to, `SINGLE_SHOT`, and the line time at which it was queued. -/
structure CanTx where
  frame : CanFrame
  ref : Option CmdRef
  single : Bool
  at_ : Nat
  deriving DecidableEq, Repr

/-- A receive queue: entries that the host owns, oldest first, with their sequence numbers and bytes (Table 14.10); the next number;
frames lost, and how many of them the last reply had reported. -/
structure CanRx where
  entries : List (Nat × List Byte) := []
  next : Nat := 0
  lost : Nat := 0
  told : Nat := 0
  /-- bytes written since reset: where in the ring the next entry goes -/
  wrote : Nat := 0
  deriving DecidableEq, Repr

/-- One CAN controller. -/
structure Can where
  st : CanState := .off
  tec : Nat := 0
  rec_ : Nat := 0
  /-- the event queue in order of arrival (R454) -/
  queue : List CanTx := []
  /-- transmissions in a row of an identifier that ended in data-field bit errors: identifier with `IDE` in bit 29, and their
  number (R455); the identifier of the last clash -/
  clash : List (Nat × Nat) := []
  clashId : Nat := 0
  /-- nominal timing in use; candidate, frames received without error under it, accepted candidate (R451) -/
  nbt : Nat := 0
  cand : Nat := 0
  good : Nat := 0
  /-- the tick at which the candidate was applied -/
  candSince : Nat := 0
  abrSel : Nat := 0xFF
  /-- a protocol exception event: the controller waits for bus idle (R448) -/
  waitIdle : Bool := false
  /-- transmitter delay compensation of the last frame sent (R450): measured delay and secondary sample point in ns -/
  tdc : Option (Nat × Nat) := none
  /-- runs of 11 recessive bits in `RECOVERING` -/
  runs : Nat := 0
  rx : Vector CanRx 4 := Vector.replicate 4 {}
  slots : Vector (Option CanTx) 32 := Vector.replicate 32 none
  /-- this device is time master; it follows another potential master (R456) -/
  master : Bool := false
  follow : Bool := false
  /-- a valid reference message has been sent or received -/
  running : Bool := false
  /-- cycle count of the own reference message that is to be sent, and the line time from which on -/
  refDue : Option (Nat × Nat) := none
  cycle : Nat := 0
  /-- reference mark of the present cycle, ns -/
  mark : Nat := 0
  /-- a slave paused by `Next_is_Gap` (R457) -/
  gap : Bool := false
  refLost : Bool := false
  /-- missing reference messages in a row, and every transmission suspended (R459) -/
  missing : Nat := 0
  suspended : Bool := false
  gtOffs : Int := 0
  /-- captured content with its slot (R458), and the entry whose window runs -/
  captured : Option (Fin 32 × CanTx) := none
  window : Option (Fin 64) := none
  /-- the captured frame of the present window may start, or has started -/
  offered : Bool := false
  txMissed : Nat := 0
  missedAt : Option Nat := none
  deriving DecidableEq, Repr

end Sys2Proof.Machine
end

