-- ==== Sys2Proof/Machine/StateEngine.lean ====
section
/-!
DEFINITION. State of a loop engine (chapter 5). Default values are the reset values; registers without a stated reset value
are zero (log 5).
-/
namespace Sys2Proof.Machine

/-- The task context of R155. -/
structure EngCtx where
  v : Vector (BitVec 128) 32 := Vector.replicate 32 0
  /-- accumulator n, lane k at 4n + k, as the next MAC-family instruction reads it -/
  acc : Vector (BitVec 72) 32 := Vector.replicate 32 0
  /-- the same as `ACCRD` reads it, one cycle later (Table 5.7) -/
  accRd : Vector (BitVec 72) 32 := Vector.replicate 32 0
  a : Vector Word 16 := Vector.replicate 16 0
  cb : Vector Word 8 := Vector.replicate 8 0
  cl : Vector Word 8 := Vector.replicate 8 0
  flags : Word := 0
  wbase : Vector Word 4 := Vector.replicate 4 0
  hsrc : Vector Word 3 := Vector.replicate 3 0
  hdst : Vector Word 3 := Vector.replicate 3 0
  hlen : Vector Word 3 := Vector.replicate 3 0
  hstat : Vector Word 3 := Vector.replicate 3 0
  /-- bits of `HSTAT` that the haul unit sets in this cycle (R11) -/
  hset : Vector Word 3 := Vector.replicate 3 0
  rstack : List (BitVec 16) := []
  pc : BitVec 16 := 0
  deriving DecidableEq, Repr

/-- A write on its way through the exposed pipeline (Table 5.7, R155, R160). -/
inductive Write where
  | v (r : BitVec 5) (x : BitVec 128)
  | lane (r : BitVec 5) (k : BitVec 2) (x : Word)
  | a (r : BitVec 4) (x : Word)
  | acc (n : BitVec 3) (x : Vector (BitVec 72) 4)
  | accRd (n : BitVec 3) (x : Vector (BitVec 72) 4)
  /-- set bits of `FLAGS` -/
  | flagOr (m : Word)
  /-- `F0`–`F3` -/
  | flagF (f : BitVec 4)
  /-- a store to the DLM -/
  | dlm (addr : Nat) (bs : List Byte)
  /-- a store to a control-block word -/
  | ctrl (off : Nat) (x : Word)
  deriving DecidableEq, Repr

/-- An active `LOOP` (R162). -/
structure LoopRec where
  start : BitVec 16
  last : BitVec 16
  left : Nat
  deriving DecidableEq, Repr

/-- What the control slot of the word in issue asks for at the end of the word. -/
inductive Ctl where
  | seq
  | rpt (n : Nat)
  | loop (body n : Nat)
  | branch (target : Option (BitVec 16)) (push pop : Bool)
  | haulWait (c : Fin 3)
  | sync
  | endRel
  | trap (kind : Nat)
  deriving DecidableEq, Repr

/-- Why an engine stands still. -/
inductive Stall where
  | none
  | load
  | store
  | haul (c : Fin 3)
  | sync
  deriving DecidableEq, Repr

/-- An outstanding window load (R172): the window was enabled, the Crossroads offset, its size and where it goes. -/
structure WinLoad where
  en : Bool
  off : Nat
  size : Nat
  dst : Write
  deriving DecidableEq, Repr

/-- A transfer in the haul queue (R173, R176). -/
structure Transfer where
  /-- rank of the task that started it -/
  rank : Nat
  /-- channel, or none for a checkpoint -/
  chan : Option (Fin 3)
  src : Nat
  dst : Nat
  words : Nat
  /-- 0 Crossroads to local, 1 local to Crossroads -/
  toXr : Bool
  deriving DecidableEq, Repr

/-- A release in progress. -/
structure Release where
  rank : Nat
  trigTime : Nat
  haulUsed : Nat := 0
  /-- channels started in this release, bit c for channel c (R174) -/
  started : Nat := 0
  retried : Bool := false
  deriving DecidableEq, Repr

/-- Role of an engine (R145). -/
inductive EngRole where
  | service | shoulder | retired
  deriving DecidableEq, Repr

/-- One loop engine. -/
structure Engine where
  ctx : EngCtx := {}
  /-- pending writes: cycles left, write; in issue order -/
  pend : List (Nat × Write) := []
  ctl : Ctl := .seq
  rpt : Nat := 0
  loops : List LoopRec := []
  /-- delay slots left and the target of a taken branch (R159) -/
  delay : Option (Nat × Option (BitVec 16)) := none
  stall : Stall := .none
  wload : Option WinLoad := none
  /-- window write buffer, oldest first: Crossroads offset and bytes (R172) -/
  wbuf : List (Nat × List Byte) := []
  /-- a window store that found the buffer full -/
  wblocked : Option (Nat × List Byte) := none
  /-- stores to port slots not yet completed, oldest first (R154): offset in the slot space and bytes -/
  pstores : List (Nat × List Byte) := []
  taskid : Word := 0
  cycle : Word := 0
  relt : BitVec 64 := 0
  eccCnt : Word := 0
  dlm : Memory := []
  clmX : Memory := []
  clmY : Memory := []
  plm : Memory := []
  queue : List Transfer := []
  /-- the dispatcher's task table, by rank (R165) -/
  table : List Task := []
  run : Option Release := none
  /-- preempted releases with their contexts, innermost first -/
  preempted : List (Release × EngCtx) := []
  /-- triggers waiting: rank and time tag -/
  waiting : List (Nat × Nat) := []
  /-- triggers that found the previous release unfinished (R168) -/
  overruns : Nat := 0
  halted : Bool := false
  /-- a single step of a halted engine: one word may issue (Table 17.8) -/
  stepOne : Bool := false
  role : EngRole := .service
  /-- migration in progress to this hard shoulder (R146) -/
  migrateTo : Option (Fin 24) := none
  migrateT0 : Nat := 0
  /-- triggers masked at a migration target: rank and time tag of those that arrived (Table 4.10) -/
  masked : List (Nat × Nat) := []
  /-- ranks whose release was in progress at t0 and is lost (R147) -/
  lost : List Nat := []
  deriving DecidableEq, Repr

end Sys2Proof.Machine
end

