-- ==== Sys2Proof/Machine/StateFault.lean ====
section
/-!
DEFINITION. State of fault records, upsets, retirement and debug access (chapter 17). Default values are the reset values.
-/
namespace Sys2Proof.Machine

/-- Scope of a fault (Table 17.2, offset 6). -/
inductive Scope where
  | device | axis | port | bus | engine | bank | master | can | eth
  deriving DecidableEq, Repr

def Scope.code : Scope → Nat
  | .device => 0 | .axis => 1 | .port => 2 | .bus => 3 | .engine => 4 | .bank => 5 | .master => 6 | .can => 7 | .eth => 8

/-- A fault record (Table 17.2). -/
structure FaultRec where
  code : Nat
  cls : Nat
  active : Bool := true
  merged : Bool := false
  retried : Bool := false
  permanent : Bool := false
  consequential : Bool := false
  prior : Bool := false
  untracked : Bool := false
  axis : Nat := 0xFFFF
  scope : Scope
  unit : Nat
  time : Nat
  detail : Nat
  repeats : Nat := 0
  seq : Nat := 0
  hostId : Nat := 0
  clearMs : Nat := 0
  /-- axes the reaction acts on where the owning chapter names them (Table 17.1, last row) -/
  reach : List Nat := []
  deriving DecidableEq, Repr

/-- A detected fault: what the owning chapter gives. -/
structure FaultArg where
  code : Nat
  cls : Nat
  scope : Scope
  unit : Nat := 0
  axis : Nat := 0xFFFF
  detail : Nat := 0
  reach : List Nat := []
  hostId : Nat := 0
  retried : Bool := false
  permanent : Bool := false
  consequential : Bool := false
  deriving DecidableEq, Repr

/-- A log: records newest first, overflow counter, next record number (R507). -/
structure FaultLog where
  recs : List FaultRec := []
  overflow : Nat := 0
  next : Nat := 0
  deriving DecidableEq, Repr

/-- What may be declared permanently faulty (R511). -/
inductive UnitKind where
  | engine | port | feedback | bank
  deriving DecidableEq, Repr

/-- Upsets of one unit: the count since the cold reset and the line times of recent ones (R511, R512). -/
structure UpsetRec where
  kind : UnitKind
  unit : Nat
  count : Nat
  times : List Nat
  deriving DecidableEq, Repr

/-- Fault records, upsets and retirement. -/
structure Faults where
  crlog : FaultLog := {}
  plog : FaultLog := {}
  /-- the active table, newest first (R507, R508) -/
  table : List FaultRec := []
  upsets : List UpsetRec := []
  totalUpsets : Nat := 0
  enginesRetired : Nat := 0
  portsRetired : Nat := 0
  fbRetired : Nat := 0
  migrations : Nat := 0
  lastRetire : Nat := 0
  /-- when a fault code of a unit was last raised, for the rules 'at most once per 100 ms': key, line time -/
  lastRaise : List (Nat × Nat) := []
  /-- faults found in the axis-control cycle that is being run, which takes them in order at its end (R505); none between cycles -/
  cycle : Option (List FaultArg) := none
  deriving DecidableEq, Repr

/-- Debug access (R514 to R517). -/
structure Debug where
  /-- fused lifecycle state (Table 17.7) -/
  lifecycle : Nat := 0x30
  /-- debug policy fuse: 0 closed, else bit fields: level fused for key slot k in bits [8k+1:8k] with [8k+7] debug-capable -/
  policy : Nat := 0
  level : Nat := 0
  /-- number of nonces issued and whether the last is valid -/
  nonces : Nat := 0
  nonceValid : Bool := false
  nonceTime : Nat := 0
  /-- `TMUX` selection per pin: signal and instance -/
  tmux : Vector (Nat × Nat) 16 := Vector.replicate 16 (0, 0)
  /-- tick of the last event of the selected signal, per pin -/
  strobes : Vector (Option Nat) 16 := Vector.replicate 16 none
  /-- key slots whose fuse revokes them -/
  revoked : BitVec 4 := 0
  /-- cells that `EXTEST` drives (R514) -/
  extest : List (JPin × Bool) := []
  /-- what the last read through the JTAG port returned -/
  jtag : List Byte := []
  /-- route cores halted for debug -/
  rcHalted : BitVec 4 := 0
  temp : Rat := 0
  deriving DecidableEq, Repr

end Sys2Proof.Machine
end

