-- ==== Sys2Proof/Machine/StateFb.lean ====
section
/-!
DEFINITION. State of the feedback units, probes and encoder emulation units (chapter 8). Default values are the reset values;
where the spec gives none, zero (log 5).
-/
namespace Sys2Proof.Machine

/-- One feedback unit. Stamps are rational nanoseconds of line time. -/
structure Feedback where
  a : Bool := false
  b : Bool := false
  z : Bool := false
  count : Int := 0
  /-- errors in the current `AX.QERRWIN` and the time at which that window began -/
  errs : Nat := 0
  errT0 : Nat := 0
  errTotal : Nat := 0
  quadErr : Bool := false
  index : Bool := false
  frameErr : Bool := false
  extrap : Bool := false
  resLock : Bool := false
  chatter : Bool := false
  dirNeg : Bool := false
  refLost : Bool := false
  hall : Nat := 0
  /-- the last Hall edge: stamp, code entered, whether in the negative direction (R195, R196) -/
  hallEdge : Option (Rat × Nat × Bool) := none
  /-- counted edges, newest first: stamp, count after the edge, sign (R270, R271) -/
  edges : List (Rat × Int × Int) := []
  idxCount : Int := 0
  idxStamp : Rat := 0
  /-- the SSI frame in progress: its extremum and the level of `FBB` then; end of the last frame -/
  frameOpen : Option (Nat × Bool) := none
  frameEnd : Nat := 0
  /-- the last accepted word, and accepted frames newest first: extremum, position -/
  word : Option Nat := none
  frames : List (Nat × Int) := []
  /-- consecutive refused frames -/
  refused : Nat := 0
  /-- resolver angle, 2³² per electrical turn, unwrapped; tracked speed in rad/s; centre of the last window -/
  th : Int := 0
  w : Rat := 0
  resT : Nat := 0
  /-- consecutive windows: amplitude outside, angle error small, angle error large -/
  ampOut : Nat := 0
  lockCnt : Nat := 0
  lossCnt : Nat := 0
  v : Rat := 0
  lastExt : Nat := 0
  /-- latched position and velocity, raw -/
  pk : Int := 0
  vk : Int := 0
  /-- homing or set-position offset, counts (R345) -/
  offset : Rat := 0
  /-- a switch-over has put the unit into service -/
  live : Bool := false
  /-- tick of the reset or switch-over from which its filters run (R259) -/
  since : Nat := 0
  /-- `FBSTAT` as last written -/
  stat : Nat := 0
  deriving DecidableEq, Repr

/-- A probe record (R273): stamp in units of 2⁻¹⁶ ns, rising, tick only. -/
structure ProbeRec where
  stamp : Nat
  rising : Bool
  tickOnly : Bool
  deriving DecidableEq, Repr

/-- One probe input. -/
structure Probe where
  level : Bool := false
  fifo : List ProbeRec := []
  lost : Nat := 0
  /-- stamp of the last recorded edge, 2⁻¹⁶ ns -/
  lastEdge : Option Nat := none
  deriving DecidableEq, Repr

/-- One encoder emulation unit. -/
structure Emu where
  cOut : Int := 0
  p0 : Int := 0
  c0 : Int := 0
  backlog : Int := 0
  /-- last direction of output edges: −1, 0, 1 -/
  dir : Int := 0
  /-- taps of the running interval that have passed, and the tap of the last count edge -/
  at_ : Nat := 0
  lastAt : Int := -1000000000
  /-- edges scheduled for the running interval: tap, output level A, B and the count shown after it -/
  edges : List (Nat × Bool × Bool × Int) := []
  /-- the count that the outputs show -/
  shown : Int := 0
  a : Bool := false
  b : Bool := false
  z : Bool := false
  /-- a live ratio write waits for the next update (R278) -/
  reseed : Bool := false
  deriving DecidableEq, Repr

/-- One excitation unit (R268): the level of `REXn`, and the part of a pulse that its modulator carries on. -/
structure Rex where
  level : Bool := false
  acc : Rat := 0
  deriving DecidableEq, Repr

end Sys2Proof.Machine
end

