-- ==== Sys2Proof/Machine/StateTime.lean ====
section
/-!
DEFINITION. State of line time (chapter 13). Default values are the reset values.
-/
namespace Sys2Proof.Machine

/-- States of the time servo (Table 13.2). -/
inductive Servo where
  | freeRun | acquire | locking | locked | holdover | grandmaster
  deriving DecidableEq, Repr

def Servo.code : Servo → Nat
  | .freeRun => 0 | .acquire => 1 | .locking => 2 | .locked => 3 | .holdover => 4 | .grandmaster => 5

/-- The device time counter and its addend (R414), and the time servo (R423 to R426). -/
structure TimeUnit where
  sec : Nat := 0
  ns : Nat := 0
  /-- sub-nanosecond fraction, 2⁻¹⁶ ns -/
  frac : Nat := 0
  /-- extension below the fraction, 2⁻⁴⁰ ns -/
  ext : Nat := 0
  addend : Nat := 2748779069440
  servo : Servo := .freeRun
  /-- I in s², y, and the last θ in 2⁻¹⁶ ns -/
  integ : Rat := 0
  y : Rat := 0
  theta : Int := 0
  /-- consecutive measurements inside and outside `DV.TSLOCKWIN`, and within `DV.TSJUMP` in `HOLDOVER` -/
  inWin : Nat := 0
  outWin : Nat := 0
  okCnt : Nat := 0
  /-- `gmTimeBaseIndicator` of the last Sync, and the device's own with its last phase change in ns -/
  tbi : Option Nat := none
  ownTbi : Nat := 0
  ownPhase : Int := 0
  /-- the grandmaster that the servo follows, or followed last, its distance, and the slave port -/
  gm : Nat := 0
  steps : Nat := 0
  slave : Option (Fin 4) := none
  /-- carrier tick at which the present servo state was entered -/
  since : Nat := 0
  /-- `DV.TSHOLDMAX` has been reported in this stay in `HOLDOVER` (R426) -/
  limited : Bool := false
  /-- Sync from a grandmaster is being received, and the carrier tick of the last one -/
  synced : Bool := false
  syncAt : Nat := 0
  /-- level of `PPS_OUT`, and the stamp of the last `PPS_IN` edge in 2⁻¹⁶ ns -/
  pps : Bool := false
  ppsIn : Nat := 0
  deriving DecidableEq, Repr

end Sys2Proof.Machine
end

