-- ==== Sys2Proof/Machine/StateNet.lean ====
section
/-!
DEFINITION. State of the Ethernet ports, Jalut rings and junctions (chapter 13). Default values are the reset values; where the
spec gives none, zero (log 5).
-/
namespace Sys2Proof.Machine

/-- A transmit stamp record (Table 13.1). -/
structure StampRec where
  ident : Nat
  kind : Nat
  frac : Nat
  time : Nat
  deriving DecidableEq, Repr

/-- State of the preemption verification (Table 13.13). -/
inductive Preempt where
  | off | verifying | active | failed
  deriving DecidableEq, Repr

def Preempt.code : Preempt → Nat
  | .off => 0 | .verifying => 1 | .active => 2 | .failed => 3

/-- An Ethernet port. -/
structure EthPort where
  link : Bool := false
  /-- time tag of the last link change -/
  change : Nat := 0
  /-- IEEE 1588 `portState`, 0 when the port does not run -/
  ptp : Nat := 0
  asCapable : Bool := false
  delay : Nat := 0
  /-- the last Announce: grandmaster identity, its priorities, `stepsRemoved` -/
  announce : Option (Nat × Nat × Nat × Nat) := none
  rx : Nat := 0
  tx : Nat := 0
  fcs : Nat := 0
  dup : Nat := 0
  lost : Nat := 0
  overrun : Nat := 0
  /-- fallback queue of stamps, oldest first, its overflow flag and its losses (R422) -/
  tsq : List StampRec := []
  tsqOvf : Bool := false
  tsqLost : Nat := 0
  /-- the last record written into a descriptor -/
  desc : Option StampRec := none
  preempt : Preempt := .off
  /-- `correctionField` of the last PTP event forwarded for another domain (R421) -/
  corr : Nat := 0
  /-- consecutive Jalut cycles in which this direction delivered nothing, and whether it did in this one (R437) -/
  silent : Nat := 0
  got : Bool := false
  /-- the last cyclic frame forwarded here ended with an inverted FCS (R435) -/
  inverted : Bool := false
  deriving DecidableEq, Repr

/-- States of a member index (Table 13.12). -/
inductive MemberState where
  | absent | joining | member | lost
  deriving DecidableEq, Repr

/-- A member index as the leader holds it. -/
structure Member where
  st : MemberState := .absent
  serial : Nat := 0
  /-- lowest and highest protocol version (R442), highest Jalut version -/
  lo : Nat := 1
  hi : Nat := 3
  jalut : Nat := 2
  /-- back in `JOINING` with another `DV.CFGGEN`, until the next junction commit (Table 13.12) -/
  stale : Bool := false
  /-- consecutive valid and lost cycles -/
  okRun : Nat := 0
  lostRun : Nat := 0
  /-- a valid copy of its upstream section has been taken in this cycle -/
  got : Bool := false
  /-- data of its downstream section (Table 13.8) -/
  down : List Byte := []
  deriving DecidableEq, Repr

/-- A forwarded command that awaits its reply or completion from a member (R439). -/
structure Fwd where
  member : Nat
  ref : CmdRef
  /-- the member has answered `ACCEPTED`: the command awaits its completion (R85) -/
  accepted : Bool := false
  deriving DecidableEq, Repr

/-- Fragments of a packet received so far (R435): whom from (0 the leader), identifier, count, fragments with their index. -/
structure Frag where
  src : Nat
  ident : Nat
  count : Nat
  parts : List (Nat × List Byte)
  deriving DecidableEq, Repr

/-- Networks and junctions. -/
structure Net where
  ports : Vector EthPort 4 := Vector.replicate 4 {}
  /-- HSR: per pair and source address the sequence numbers of the last 256 frames, newest first (R433) -/
  hsr : List ((Nat × Nat) × List Nat) := []
  members : Vector Member 15 := Vector.replicate 15 {}
  /-- devices that have answered the last discovery -/
  found : List Found := []
  /-- the reaction of `SESSION_LOST` passed on to members, with its class (R106) -/
  lossSent : List (Nat × Nat) := []
  /-- the go signal sent to members, with S (R143) -/
  goSent : List (Nat × Nat) := []
  /-- open `DISCOVER`s, and open `FORM`s with the indices they name, oldest first, each with the carrier tick of its start -/
  discover : List (CmdRef × Nat) := []
  form : List (CmdRef × List Nat × Nat) := []
  fwd : List Fwd := []
  /-- packets on their way to members, oldest first: member and packet -/
  sent : List (Nat × Packet) := []
  frags : List Frag := []
  /-- cycle number n -/
  cycle : Nat := 0
  /-- this device's member index, 0 none; consecutive cycles without a valid frame of its leader; one came in this cycle -/
  index : Nat := 0
  missed : Nat := 0
  got : Bool := false
  /-- data of the upstream section latched at S_n, and whether it was written into a passing frame -/
  up : List Byte := []
  written : Bool := false
  /-- T_J in ns as the cyclic frames of the leader show it, 0 before the first (R434) -/
  tj : Nat := 0
  /-- axes that a committed `NET` axis elsewhere names (R443) -/
  owned : List Nat := []
  /-- axes whose image this device publishes, with the path of the image (R444), and images to relay in the next cycle with the member
  they came from, 0 for the leader above -/
  publish : List (Nat × Nat) := []
  relay : List (Nat × MImg) := []
  /-- master images in a member's downstream and upstream sections (R435) -/
  images : List (Nat × Nat × Nat) := []
  /-- the cyclic frame of this cycle from its Jalut header on, as the leader sends it (Table 13.7) -/
  frame : List Byte := []
  /-- the last discovery reply sent -/
  answer : Option Found := none
  /-- `JALUT_VERSION` has been judged per pair: the ring's version, 0 when there is no ring -/
  version : Vector Nat 2 := Vector.replicate 2 0
  /-- the devices' `DV.CFGGEN` differ since the last junction commit (R445) -/
  split : Bool := false
  deriving DecidableEq, Repr

end Sys2Proof.Machine
end

