-- ==== Sys2Proof/Machine/StatePort.lean ====
section
/-!
DEFINITION. State of a bridge port and of a DC bus supervisor (chapter 7). Default values are the reset values; where the
spec gives none, zero (log 5).
-/
namespace Sys2Proof.Machine

/-- Trip states (Table 7.9). -/
inductive Trip where
  | armed | cbc | latched
  deriving DecidableEq, Repr

def Trip.code : Trip → Nat
  | .armed => 0 | .cbc => 1 | .latched => 2

/-- One bridge port. -/
structure Port where
  /-- shadow words 0x000–0x03C of the port slot (Table 7.3) -/
  shadow : Vector Word 16 := Vector.replicate 16 0
  /-- a store covering the arming word has completed since the previous setup instant (R225) -/
  armed : Bool := false
  armseq : Nat := 0
  /-- set captured at the last setup instant and waiting for the commit point, with its `ARMSEQ` -/
  captured : Option (Vector Word 16 × Nat) := none
  /-- set in force -/
  inForce : Vector Word 16 := Vector.replicate 16 0
  /-- no set is in force: the port waits for a store to its arming word (R223) -/
  waiting : Bool := true
  /-- sample record words 0x080–0x0DC -/
  record : Vector Word 24 := Vector.replicate 24 0
  samples : Nat := 0
  /-- time tag and fraction of the last commit point that applied a new set, its `ARMSEQ`, and whether it was a peak -/
  appliedT : Nat := 0
  appliedFrac : Nat := 0
  appliedSeq : Nat := 0
  appliedPeak : Bool := false
  /-- time tag of the last extremum and whether it was a peak -/
  extT : Nat := 0
  extPeak : Bool := false
  /-- as they stood at the last sampled extremum: `APPLIED` stamp and the duties in force (Table 7.3) -/
  latT : Nat := 0
  latFrac : Nat := 0
  latSeq : Nat := 0
  latPeak : Bool := false
  latDuty : Vector Word 4 := Vector.replicate 4 0
  prevExtT : Nat := 0
  /-- feedback latched at the last extremum for the record (R270) -/
  latPos : Int := 0
  latVel : Int := 0
  capped : Bool := false
  refresh : Bool := false
  overlap : Bool := false
  overlapRead : Bool := false
  overlapCount : Nat := 0
  /-- number of the present period in a run of full-on periods, per leg (R231) -/
  fullOn : Vector Nat 4 := Vector.replicate 4 0
  cappedAt : Nat := 0
  overlapAt : Nat := 0
  trip : Trip := .armed
  /-- `PORT_TRIP_CLEAR` accepted: `ARMED` at the next period start -/
  clearing : Bool := false
  cbcRun : Nat := 0
  /-- a new trip in the present period (Table 7.9) -/
  newTrip : Bool := false
  tripCount : Nat := 0
  cause : Nat := 0
  comps : Nat := 0
  drvflt : Bool := false
  /-- output levels, switch k in the order AH, AL, BH, BL, CH, CL, DH, DL, and taps since each went off -/
  gate : BitVec 8 := 0
  offT : Vector Nat 8 := Vector.replicate 8 262144
  /-- tick and tap of the last output edge, in taps (R240) -/
  lastEdge : Nat := 0
  /-- taps of the running tick at which the outputs have been evaluated -/
  tap : Nat := 0
  /-- edges of the last tick that fell on a fraction of it: the fraction in taps, the tap of the delay line that placed it, and the
  levels from then on (R227, R234) -/
  subEdges : List (Nat × Nat × BitVec 8) := []
  /-- legs of which both switches are requested on (R229) -/
  overlapNow : BitVec 4 := 0
  /-- a trip was active since the previous record -/
  tripSeen : Bool := false
  /-- force codes in force, and the session that set them (R239) -/
  force : Nat := 0
  /-- accepted codes: for the next commit point, or for an instant of line time (R92) and whether that is a tag -/
  forceNext : Option (Option (Nat × Bool) × Nat) := none
  forceBy : Option (Src × Nat) := none
  forceTimeout : Nat := 0
  /-- torque-off requests: of a fault reaction, of a reset or main-rail failure, of retirement (R18) -/
  offFault : Bool := false
  offReset : Bool := true
  offRetired : Bool := false
  /-- active short requested (R238), and the tick of the C5 reaction, t_dead after which it begins (R236) -/
  shorting : Bool := false
  shortAt : Nat := 0
  /-- debug halt: outputs frozen at these levels, or switched off until `DEBUG_HALT` is cleared (R245) -/
  frozen : Option (BitVec 8) := none
  /-- the frozen port's engine has resumed and a store to the arming word is awaited -/
  thaw : Bool := false
  haltOff : Bool := false
  /-- delay line: whole-tick fallback, last measured span, the table of R234 (tap of each fraction), and what takes effect at the next
  period start -/
  dlFallback : Bool := false
  dlTaps : Nat := 0
  dlTab : List Nat := []
  dlNext : Option (Bool × List Nat) := none
  dead : Nat := 200
  /-- a fault in the configuration registers turns the switches off for the rest of the period (Table 17.3) -/
  upsetOff : Bool := false
  /-- chopper state of windings 1 and 2 (Table 10.9) -/
  chop1 : Chop := {}
  chop2 : Chop := {}
  /-- high-side on-time accumulated since the last sampled extremum, taps per leg (R331) -/
  onAcc : Vector Nat 4 := Vector.replicate 4 0
  /-- taps for which each low side has been on without a break, and whether that has reached `PT.REFTIME` in this period
  (R330) -/
  lowRun : Vector Nat 4 := Vector.replicate 4 0
  lowSeen : BitVec 4 := 0
  deriving DecidableEq, Repr

/-- DC bus states (Table 7.15). -/
inductive BusState where
  | unused | charging | bypass | ready | lockout
  deriving DecidableEq, Repr

def BusState.code : BusState → Nat
  | .unused => 0 | .charging => 1 | .bypass => 2 | .ready => 3 | .lockout => 4

/-- One DC bus supervisor. -/
structure Bus where
  st : BusState := .unused
  v : Rat := 0
  pre : Bool := false
  chop : Bool := false
  chfb : Bool := false
  /-- `CHFB` has been active since the output switched on, so `CHOP_NOFB` does not apply (R252) -/
  chfbSeen : Bool := false
  regenOv2 : Bool := false
  full : Bool := false
  chen : Rat := 0
  chw : Rat := 0
  vmax : Rat := 0
  /-- recent values: time tag, V, chopper on; newest first, 1 s kept (R252, Table 7.15) -/
  recent : List (Nat × Rat × Bool) := []
  /-- the chopper has been on without a break since this time tag -/
  onSince : Option Nat := none
  /-- consecutive values at 0 or N³ -/
  stuck : Nat := 0
  lastStuck : Bool := false
  /-- precharge time runs (V has exceeded 0.1 × `DCB_PREV`) -/
  preTimer : Bool := false
  /-- it has run out; it restarts when V falls below 0.1 × `DCB_PREV` -/
  preFailed : Bool := false
  deriving DecidableEq, Repr

end Sys2Proof.Machine
end

