-- ==== Sys2Proof/Machine/StateTg.lean ====
section
/-!
DEFINITION. State of the Tollgate safety unit (chapter 12). Default values are the reset values. Times inside Tollgate are
counts of 2.5 ns since the cold reset (log 24).
-/
namespace Sys2Proof.Machine

/-- Tollgate states (Table 12.14). -/
inductive TgState where
  | selftest | waitCfg | run | confirming | safeHalt
  deriving DecidableEq, Repr

def TgState.code : TgState → Nat
  | .selftest => 0 | .waitCfg => 1 | .run => 2 | .confirming => 3 | .safeHalt => 4

/-- Function states (Table 12.4). -/
inductive FnState where
  | clear | demand | awaitReset | fault
  deriving DecidableEq, Repr

/-- Port states (Tables 12.5, 12.15). -/
inductive TgPortState where
  | permit | ss1 | sto | lockout
  deriving DecidableEq, Repr

def TgPortState.code : TgPortState → Nat
  | .permit => 0 | .ss1 => 1 | .sto => 2 | .lockout => 3

/-- One safety function. -/
structure TgFn where
  st : FnState := .clear
  /-- a channel has gone inactive, and both have not yet been inactive together and returned (R389) -/
  need : Bool := false
  /-- since then both channels have been inactive at the same time -/
  together : Bool := false
  /-- both hands have been released together since the last actuation (R391) -/
  released : Bool := false
  /-- Tollgate times at which the hands were actuated, while they are -/
  left : Option Nat := none
  right : Option Nat := none
  /-- a valid actuation is in force -/
  valid : Bool := false
  /-- the unlock sequence runs (R392) -/
  unlocking : Bool := false
  /-- the unlock request has been inactive since it was armed (R261) -/
  reqSeen : Bool := false
  /-- the lock is commanded locked -/
  locked : Bool := false
  /-- within 1 s of relocking -/
  fbWait : Bool := false
  /-- Tollgate time of the last relocking -/
  relockAt : Nat := 0
  /-- Tollgate time since which the condition that `SF.FN_DISC` times has held -/
  diffSince : Option Nat := none
  /-- Tollgate time since which every port of the function has been in `STO` or `LOCKOUT` -/
  stopSince : Option Nat := none
  deriving DecidableEq, Repr

/-- Phases of a brake test (Table 12.7). -/
inductive BtPhase where
  /-- `BRK` is low and `BRKFB` has to confirm -/
  | confirm
  /-- 100 ms before p0 is recorded -/
  | settle
  /-- i_q is driven -/
  | drive
  deriving DecidableEq, Repr

/-- A running brake test. -/
structure BrakeTest where
  ref : Option CmdRef
  both : Bool
  phase : BtPhase := .confirm
  neg : Bool := false
  /-- Tollgate time at which the phase began -/
  since : Nat := 0
  p0 : Int := 0
  /-- largest |Δ| so far, in counts -/
  maxD : Nat := 0
  deriving DecidableEq, Repr

/-- One port as Tollgate sees it. -/
structure TgPort where
  st : TgPortState := .sto
  /-- `CAUSE` of its lockout and the cycle in which it began -/
  cause : Nat := 0
  since : Nat := 0
  /-- after a change of `BRK`: `BRKFB` is awaited, then watched (R397) -/
  brkWait : Bool := false
  /-- Tollgate time of the last change of `BRK` -/
  brkAt : Nat := 0
  brkMon : Bool := false
  /-- `BRKFB` does not show the state of `BRK` -/
  brkBad : Bool := false
  /-- cycles in a row in which the `GEN` pad read high while commanded low (R395) -/
  genRun : Nat := 0
  /-- taps of the last cycles in `SS1`, newest first (R394) -/
  taps : List Int := []
  /-- Tollgate time at which the port entered `SS1` -/
  ss1At : Nat := 0
  /-- Tollgate time of the last passed brake test; the cold reset where none has passed (R405) -/
  passAt : Nat := 0
  test : Option BrakeTest := none
  deriving DecidableEq, Repr

/-- One safe output. -/
structure TgSo where
  on : Bool := false
  lockout : Bool := false
  /-- its last readback check failed -/
  bad : Bool := false
  /-- `EDM` has to follow the last switching -/
  edmWait : Bool := false
  /-- Tollgate time of that switching -/
  edmAt : Nat := 0
  /-- `CAUSE` of its lockout and the cycle in which it began -/
  cause : Nat := 0
  since : Nat := 0
  deriving DecidableEq, Repr

/-- The sealed configuration copies of the boot flash (Table 2.6), as far as the device has written them; none: as the board
delivered the copy. -/
structure TgFlash where
  copy0 : Option (List Byte) := none
  copy1 : Option (List Byte) := none
  deriving DecidableEq, Repr

/-- An accepted configuration; `values` holds the `SF` parameters that differ from their default, by key. -/
structure TgCfg where
  id : Nat
  seq : Nat
  /-- flash copy that holds it -/
  copy : Fin 2
  values : List (Nat × Nat)
  deriving DecidableEq, Repr

/-- A confirmation in progress (R409). -/
structure Confirm where
  ref : Option CmdRef
  /-- Tollgate time at which `timeout_s` ends -/
  due : Nat := 0
  /-- the sealed image, once a valid press has occurred -/
  image : Option (List Byte) := none
  deriving DecidableEq, Repr

/-- The reset input (R401 to R403). -/
structure ResetIn where
  armed : Bool := false
  /-- Tollgate time since which it has been filtered inactive, counted from acceptance -/
  idle : Option Nat := none
  /-- Tollgate time at which the present press began, and whether the input was armed then -/
  press : Option (Nat × Bool) := none
  stuck : Bool := false
  /-- a valid press waits for the next cycle -/
  due : Bool := false
  /-- time since which the condition of `RESET_STUCK` and of `RESET_INPUT` has been absent -/
  stuckGone : Option Nat := none
  inputGone : Option Nat := none
  deriving DecidableEq, Repr

/-- The status mirror (Table 3.22). -/
structure Mirror where
  seq : Nat := 0
  state : Nat := 0
  gen : BitVec 64 := 0
  brk : BitVec 64 := 0
  si : BitVec 32 := 0
  soedm : Nat := 0
  cfgId : Nat := 0
  /-- `seq` when `TG_SILENT` was raised -/
  silent : Nat := 0
  /-- Tollgate time of the last update -/
  since : Nat := 0
  deriving DecidableEq, Repr

structure Tollgate where
  flash : TgFlash := {}
  st : TgState := .selftest
  /-- the output-stage watchdog has acted (R383) -/
  watchdog : Bool := false
  /-- Tollgate time -/
  clk : Nat := 0
  /-- Tollgate time at which the cores last toggled the output-stage watchdog (R383) -/
  toggled : Nat := 0
  cycles : Nat := 0
  cfg : Option TgCfg := none
  /-- image that has passed its check and waits for a confirmation -/
  pending : Option (List Byte) := none
  /-- open `SAFE_CFG_LOAD`: total and bytes received -/
  load : Option (Nat × List Byte) := none
  checking : List (List Byte × Option CmdRef) := []
  confirm : Option Confirm := none
  /-- filtered inputs -/
  si : BitVec 32 := 0
  edm : BitVec 8 := 0
  brkfb : BitVec 64 := 0
  /-- open windows of the test pulses -/
  tpoWin : BitVec 8 := 0
  /-- inputs whose last test-pulse check found the pulse missing, and a cross circuit -/
  tpBad : BitVec 32 := 0
  crossBad : BitVec 32 := 0
  fns : Vector TgFn 16 := Vector.replicate 16 {}
  ports : Vector TgPort 64 := Vector.replicate 64 {}
  sos : Vector TgSo 16 := Vector.replicate 16 {}
  /-- outputs per port -/
  gen : BitVec 64 := 0
  brk : BitVec 64 := 0
  pad : BitVec 64 := BitVec.allOnes 64
  /-- torque-off requests seen by the previous 10 µs sample (R382) -/
  torSample : BitVec 64 := 0
  /-- `SF.OTESO` is off after `GEN_READBACK` -/
  oteOff : Bool := false
  /-- ports whose brake test is due -/
  btDue : BitVec 64 := 0
  reset : ResetIn := {}
  mirror : Mirror := {}
  /-- the fields of `SAFE_STATUS` as last seen and the line time of their last change -/
  status : List Byte := []
  lastChange : Nat := 0
  deriving DecidableEq, Repr

end Sys2Proof.Machine
end

