-- ==== Sys2Proof/Machine/StateWm.lean ====
section
/-!
DEFINITION. State of Waymark (chapter 16). Default values are the reset values (R498).
-/
namespace Sys2Proof.Machine

/-- Waymark states (Table 16.5). -/
inductive WmState where
  | idle | running | post | stopped
  deriving DecidableEq, Repr

def WmState.code : WmState → Nat
  | .idle => 0 | .running => 1 | .post => 2 | .stopped => 3

/-- A channel descriptor (Table 16.1); the deadband as its FP32 pattern. -/
structure WmChan where
  src : Nat
  qty : Nat
  inst : Nat
  dead : Nat
  deriving DecidableEq, Repr

/-- A mask header (Table 16.7) and its points: index, x, FP32 `lo` and `hi`. -/
structure WmMask where
  chan : Nat := 0
  xkind : Nat := 0
  action : Nat := 0
  xaxis : Nat := 0
  xsrc : Nat := 0
  count : Nat := 0
  cls : Nat := 0
  npoints : Nat := 0
  period : Int := 0
  points : List (Nat × Int × Nat × Nat) := []
  deriving DecidableEq, Repr

/-- The setup (Tables 16.1, 16.6, 16.7): general settings, used channels by number, masks. -/
structure WmSetup where
  mode : Nat := 0
  trig : Nat := 0
  trigChan : Nat := 0
  cond : Nat := 0
  level : Nat := 0
  nPre : Nat := 0
  nPost : Nat := 0
  refresh : Nat := 0
  notify : Nat := 0
  chans : List (Nat × WmChan) := []
  masks : Vector WmMask 8 := Vector.replicate 8 {}
  deriving DecidableEq, Repr

/-- Records lost in a row: their number, and the times of the first and the last in units of 2.5 ns. -/
structure WmGap where
  n : Nat
  first : Nat
  last : Nat
  deriving DecidableEq, Repr

/-- What the FIFO holds: a record with its channel, kind, `sub`, time in units of 2.5 ns and `value` (Tables 16.3, 16.4), or the place
of samples that found it full. -/
inductive WmItem where
  | record (chan kind sub t value : Nat)
  | gap (g : WmGap)
  deriving DecidableEq, Repr

/-- A record of the buffer (Table 16.3). -/
structure WmRec where
  chan : Nat
  kind : Nat
  sub : Nat
  dt : Int
  value : Nat
  deriving DecidableEq, Repr

/-- What Waymark remembers of a channel in a run: the last sample, the last recorded value and the time of the last record in units
of 2.5 ns, and a `RESYNC` owed. -/
structure WmLast where
  prev : Option Nat := none
  recd : Nat := 0
  at_ : Nat := 0
  resync : Bool := true
  deriving DecidableEq, Repr

/-- Waymark. -/
structure Wm where
  st : WmState := .idle
  /-- as written by `TRACE_SETUP`, and as in force since the last `TRACE_START` -/
  setup : WmSetup := {}
  run : WmSetup := {}
  /-- S_w, and E once a stop waits (R493), ns -/
  start : Nat := 0
  stopAt : Option Nat := none
  fifo : List WmItem := []
  /-- the buffer, oldest record first -/
  buf : List WmRec := []
  /-- records written since the start of the run -/
  wrote : Nat := 0
  /-- B of the last `BASE` record, ns; none before the first -/
  base : Option Nat := none
  lost : Nat := 0
  /-- samples that found the FIFO full since the last one that did not, and the gap not yet written -/
  gapIn : Option WmGap := none
  gap : Option WmGap := none
  last : List (Nat × WmLast) := []
  /-- per mask: consecutive violating samples, and declared -/
  viol : Vector (Nat × Bool) 8 := Vector.replicate 8 (0, false)
  /-- a trigger has acted in this run -/
  trigged : Bool := false
  /-- records written since the `TRIGGER` record, once it has been written -/
  postCount : Option Nat := none
  /-- records read with `TRACE_READ` in `RING` -/
  cursor : Nat := 0
  /-- a step of line time asks for a `BASE` record with `STEPPED` -/
  stepped : Bool := false
  notified : Bool := false
  deriving DecidableEq, Repr

end Sys2Proof.Machine
end

