-- ==== Sys2Proof/Machine/StateXr.lean ====
section
/-!
DEFINITION. State of Crossroads shared memory (chapter 15). Default values are the reset values.
-/
namespace Sys2Proof.Machine

/-- A bank relocation in progress (R479). -/
structure Relocation where
  bank : Nat
  t0 : Nat
  /-- words already written to their detour word by step 1 -/
  written : List Nat := []
  /-- the copy of step 2 is done -/
  copied : Bool := false
  /-- words that could not be corrected -/
  listed : List Nat := []
  deriving DecidableEq, Repr

/-- Crossroads. -/
structure Xr where
  /-- stored bytes by physical offset; unlisted bytes are zero -/
  mem : Memory := []
  /-- region registers of masters 0–41: the +0 word in [31:0], the +4 word in [63:32] (Table 15.3) -/
  regions : Vector (Vector (BitVec 64) 16) 42 := Vector.replicate 42 (Vector.replicate 16 0)
  coll : Vector Nat 16 := Vector.replicate 16 0
  ecc : Vector Nat 64 := Vector.replicate 64 0
  weak : Vector Nat 64 := Vector.replicate 64 0
  repair : Vector Nat 64 := Vector.replicate 64 0
  retired : Option (Fin 64) := none
  /-- `DV.CRVIOL`: master, write, offset, time tag -/
  viol : Nat × Bool × Nat × Nat := (0, false, 0, 0)
  /-- the scrubber's write-back queue: words -/
  writeBack : List Nat := []
  weakWords : List Nat := []
  /-- words that hold an uncorrectable error -/
  bad : List Nat := []
  reloc : Option Relocation := none
  poolUsed : Nat := 0
  /-- units of 4 KiB that the image of each engine takes from the start of the pool on (R482) -/
  images : List Nat := []
  /-- sample histories: axis and offset; receive queues: 4 × controller + queue, offset and bytes; cam store and Waymark buffer: offset
  and bytes (R482) -/
  hists : List (Nat × Nat) := []
  queues : List (Nat × Nat × Nat) := []
  cams : Nat × Nat := (0, 0)
  trace : Nat × Nat := (0, 0)
  /-- response of the last `PORT_L_ACCESS` and `PORT_S_ACCESS`: data of a read, and the collision flag of a port-S write (R472) -/
  respL : BitVec 64 := 0
  respS : BitVec 64 := 0
  collFlag : Bool := false
  deriving DecidableEq, Repr

end Sys2Proof.Machine
end

