-- ==== Sys2Proof/Machine/State.lean ====
section
/-!
DEFINITION. The state of the whole block, its reset value, and the reasons a step can stop.
-/
namespace Sys2Proof.Machine

/-- One axis channel. -/
structure Axis where
  st : AxState := .disabled
  stopForFault : Bool := false
  stop : StopKind := .none
  /-- a stop command of the generator waits for its takeover (R314, R320) -/
  stopNew : Bool := false
  /-- the quick stop of SS1 holds the axis in `STOPPING` (R30, R393) -/
  ss1 : Bool := false
  /-- highest class of the reaction being handled, 0 when none (R503) -/
  handling : Nat := 0
  stopCmd : Option MotionCmd := none
  disableRefs : List CmdRef := []
  disabling : Bool := false
  /-- an accepted `AXIS_DISABLE` turns the switches off once it has been answered -/
  dropNow : Bool := false
  enable : Option EnableOp := none
  energ : Energise := .off
  net : NetAxis := {}
  prof : Profile := {}
  home : Homing := {}
  step : Stepper := {}
  coord : Coord := {}
  latches : Vector Latch 4 := Vector.replicate 4 {}
  compares : Vector Compare 4 := Vector.replicate 4 {}
  cur : CurLoop := {}
  pos : PosLoop := {}
  coef : CoefSet := {}
  /-- law state before the last release, which a migration restores when a checkpoint was still queued (R177) -/
  curOld : CurLoop := {}
  posOld : PosLoop := {}
  /-- the last 64 actual positions and the last 64 setpoints, newest first: ns, raw position, raw velocity (R307, R371) -/
  hist : List (Nat × Int × Int) := []
  spHist : List (Nat × Int × Int) := []
  deriving DecidableEq, Repr

/-- The state of the SX5120: everything the spec gives it, and the queue of commands that wait. -/
structure State where
  /-- commands waiting, first in first out -/
  pending : List Instr := []
  /-- PWMCLK ticks since the carrier epoch (R222) -/
  ticks : Nat := 0
  /-- free values drawn so far: the model's own field (log 6) -/
  free : Nat := 0
  time : TimeUnit := {}
  boot : Boot := {}
  tg : Tollgate := {}
  host : HostIf := {}
  cfg : Cfg := {}
  faults : Faults := {}
  dbg : Debug := {}
  /-- the two highest-numbered engines are hard shoulders from a reset on (R145) -/
  eng : Vector Engine 24 := Vector.ofFn fun e => { role := if 22 ≤ e.val then .shoulder else .service }
  xr : Xr := {}
  axes : Vector Axis 512 := Vector.replicate 512 {}
  ports : Vector Port 64 := Vector.replicate 64 {}
  buses : Vector Bus 8 := Vector.replicate 8 {}
  fb : Vector Feedback 64 := Vector.replicate 64 {}
  probes : Vector Probe 32 := Vector.replicate 32 {}
  emus : Vector Emu 8 := Vector.replicate 8 {}
  rex : Vector Rex 8 := Vector.replicate 8 {}
  net : Net := {}
  can : Vector Can 4 := Vector.replicate 4 {}
  wm : Wm := {}
  /-- filtered levels of the GPIO inputs -/
  gpio : BitVec 32 := 0
  outs : Vector CmpOut 56 := Vector.replicate 56 {}
  tables : Tables := {}
  deriving DecidableEq, Repr

/-- Why a step faults. The model has no fault: every command has a next state, and an access that the spec forbids is
discarded and reported by the device itself (R475). -/
inductive Fault where
  deriving DecidableEq, Repr

/-- Why a step is refused. -/
inductive Refusal where
  /-- `exec`, for a row whose meaning has not been written; safe -/
  | notModelled (mnemonic : String)
  deriving DecidableEq, Repr

/-- The state right after reset: every field at its default, which is its reset value; no command waits. -/
def State.reset : State := {}

end Sys2Proof.Machine
end

