-- ==== Sys2Proof/Machine/Ops.lean ====
section
/-!
DEFINITION. The named operations over the state: field updates, line time, parameters, interrupts, packets to the host,
sessions, completions and events.
-/
namespace Sys2Proof.Machine

abbrev Out := Host.Outcome State Fault Refusal

/-- A row of the main domain: none takes effect while that domain is in reset (R48, R54). -/
def State.main (s t : State) : Out := .next (if s.boot.inReset then s else t)

/-! ### Field updates -/

def State.updAxis (s : State) (i : Fin 512) (f : Axis → Axis) : State := { s with axes := upd s.axes i f }
def State.updPort (s : State) (p : Fin 64) (f : Port → Port) : State := { s with ports := upd s.ports p f }
def State.updBus (s : State) (b : Fin 8) (f : Bus → Bus) : State := { s with buses := upd s.buses b f }
def State.updEng (s : State) (e : Fin 24) (f : Engine → Engine) : State := { s with eng := upd s.eng e f }
def State.updFb (s : State) (p : Fin 64) (f : Feedback → Feedback) : State := { s with fb := upd s.fb p f }
def State.updProbe (s : State) (p : Fin 32) (f : Probe → Probe) : State := { s with probes := upd s.probes p f }
def State.updEmu (s : State) (n : Fin 8) (f : Emu → Emu) : State := { s with emus := upd s.emus n f }
def State.updHost (s : State) (f : HostIf → HostIf) : State := { s with host := f s.host }
def State.updCfg (s : State) (f : Cfg → Cfg) : State := { s with cfg := f s.cfg }
def State.updFaults (s : State) (f : Faults → Faults) : State := { s with faults := f s.faults }
def State.updNet (s : State) (f : Net → Net) : State := { s with net := f s.net }
def State.updCan (s : State) (c : Fin 4) (f : Can → Can) : State := { s with can := upd s.can c f }
def State.updWm (s : State) (f : Wm → Wm) : State := { s with wm := f s.wm }
def State.updTg (s : State) (f : Tollgate → Tollgate) : State := { s with tg := f s.tg }
def State.updQueue (s : State) (q : Fin 16) (f : Queue → Queue) : State :=
  s.updHost fun h => { h with queues := upd h.queues q f }

/-- Update the profile of an axis. -/
def State.updProf (s : State) (i : Fin 512) (f : Profile → Profile) : State :=
  s.updAxis i fun a => { a with prof := f a.prof }

def allAxes : List (Fin 512) := List.finRange 512
def allPorts : List (Fin 64) := List.finRange 64
def allBuses : List (Fin 8) := List.finRange 8
def allEngines : List (Fin 24) := List.finRange 24

/-- A free value: the counter moves on (log 6). -/
def State.draw (s : State) : Nat × State := (Config.freeNat s.free, { s with free := s.free + 1 })

/-! ### Line time (R6) -/

/-- Line time in nanoseconds: the time tag of now (R6). -/
def State.now (s : State) : Nat := s.time.sec * 1000000000 + s.time.ns

/-- Line time with its fraction, in nanoseconds. -/
def State.nowRat (s : State) : Rat := (s.now : Rat) + mkRat s.time.frac 65536

/-- The tick since which a condition has held, from its present value. -/
def State.heldSince (s : State) (on : Bool) (since : Option Nat) : Option Nat := if on then some (since.getD s.ticks) else none

/-- A condition has held for `ns` nanoseconds without a break; a tick has 2.5 ns. -/
def State.heldFor (s : State) (since : Option Nat) (ns : Nat) : Bool :=
  match since with
  | some t => decide (2 * ns ≤ 5 * (s.ticks - t))
  | none => false

/-- An event that the test multiplexer can show for one tick: every `TMUX` pin that selects it takes note of the tick (R517). -/
def State.strobe (s : State) (signal inst : Nat) : State :=
  if s.dbg.tmux.toList.contains (signal, inst) then
    { s with dbg := { s.dbg with
        strobes := Vector.ofFn fun n => if s.dbg.tmux[n] = (signal, inst) then some s.ticks else s.dbg.strobes[n] } }
  else s

/-! ### Parameters -/

/-- A parameter of the committed configuration, as the number its bytes spell. -/
def State.param (s : State) (d : PDef) (inst : Nat := 0) (n : Nat := 0) : Nat :=
  let i := d.idx + d.stride * n
  (assocGet? s.cfg.params (pkey d.fam inst i)).getD (d.dfltAt i)

/-- Store a value; a default value is not listed, so that equal configurations are equal lists. -/
def storeParam (m : List (Nat × Nat)) (d : PDef) (inst i v : Nat) : List (Nat × Nat) :=
  if v = d.dfltAt i then assocErase m (pkey d.fam inst i) else assocSet m (pkey d.fam inst i) v

def State.setParam (s : State) (d : PDef) (inst n v : Nat) : State :=
  s.updCfg fun c => { c with params := storeParam c.params d inst (d.idx + d.stride * n) v }

/-- Catalogue row, instance and index of a key of the parameter store. -/
def keyDef (k : Nat) : Option (PDef × Nat × Nat) :=
  (PFam.ofCode (k / 2 ^ 32)).bind fun f => (findParam f (k % 2 ^ 16)).map fun d => (d, k / 2 ^ 16 % 2 ^ 16, k % 2 ^ 16)

/-- List a value under a key, in canonical form. -/
def putKey (m : List (Nat × Nat)) (kv : Nat × Nat) : List (Nat × Nat) :=
  match keyDef kv.1 with | some (d, i, x) => storeParam m d i x kv.2 | none => m

/-- The state as it is once every value written has been taken (R127). -/
def State.written (s : State) : State := s.updCfg fun c => { c with params := c.late.foldl putKey c.params, late := [] }

/-- The unit of a family and instance comes to its next cycle and takes the values written for it (R127). -/
def State.takeLate (s : State) (f : PFam) (inst : Nat) : State :=
  if s.cfg.late.isEmpty then s
  else
    let mine (kv : Nat × Nat) : Bool := kv.1 / 2 ^ 16 == pkey f inst 0 / 2 ^ 16
    s.updCfg fun c => { c with params := (c.late.filter mine).foldl putKey c.params, late := c.late.filter fun kv => !mine kv }

def State.ax (s : State) (d : PDef) (i : Fin 512) : Nat := s.param d i.val
def State.axF (s : State) (d : PDef) (i : Fin 512) : Rat := fpToRat (BitVec.ofNat 32 (s.param d i.val))
def State.axPos (s : State) (d : PDef) (i : Fin 512) : Rat := ofPos64 (signed 64 (s.param d i.val))
def State.axVel (s : State) (d : PDef) (i : Fin 512) : Rat := ofVel64 (signed 64 (s.param d i.val))
def State.pt (s : State) (d : PDef) (p : Fin 64) : Nat := s.param d p.val
def State.dv (s : State) (d : PDef) (n : Nat := 0) : Nat := s.param d 0 n
def State.dvF (s : State) (d : PDef) (n : Nat := 0) : Rat := fpToRat (BitVec.ofNat 32 (s.param d 0 n))

/-- An `SF` parameter of the configuration Tollgate holds; the default without one (R126, chapter 12). -/
def State.sf (s : State) (d : PDef) (n : Nat := 0) : Nat :=
  let i := d.idx + d.stride * n
  ((s.tg.cfg.bind (fun c => assocGet? c.values (pkey .sf 0 i)))).getD (d.dfltAt i)

/-- T_J in ns: members take it from the cyclic frames and ignore their own setting (R434). -/
def State.tj (s : State) : Nat := if s.net.index ≠ 0 ∧ s.net.tj ≠ 0 then s.net.tj else s.dv P.dvJalutcycle

/-! ### Bindings (Table 1.6) -/

def State.kind (s : State) (i : Fin 512) : Nat := s.ax P.axBindkind i
def State.bound (s : State) (i : Fin 512) : Bool := s.kind i != 0
def State.isServo (s : State) (i : Fin 512) : Bool := s.kind i == 1
def State.isStep (s : State) (i : Fin 512) : Bool := s.kind i == 2
def State.isLocal (s : State) (i : Fin 512) : Bool := s.isServo i || s.isStep i
def State.isNet (s : State) (i : Fin 512) : Bool := s.kind i == 3
def State.isVirtual (s : State) (i : Fin 512) : Bool := s.kind i == 4

/-- The port of a local axis. -/
def State.portOf (s : State) (i : Fin 512) : Option (Fin 64) :=
  if s.isLocal i then fin? 64 (s.ax P.axPort i) else none

/-- The axis bound to a port (R23). -/
def State.axisOf (s : State) (p : Fin 64) : Option (Fin 512) :=
  allAxes.find? (fun i => s.portOf i == some p)

/-- The DC bus of a port (R248). -/
def State.busOf (s : State) (p : Fin 64) : Fin 8 :=
  ⟨(s.dv P.dvPortbus / 256 ^ p.val) % 8, Nat.mod_lt _ (by decide)⟩

/-- The DC bus of a local axis (R24). -/
def State.axisBus (s : State) (i : Fin 512) : Option (Fin 8) := (s.portOf i).map s.busOf

/-- Ports of a bus group (R500). -/
def State.busPorts (s : State) (b : Fin 8) : List (Fin 64) := allPorts.filter (fun p => s.busOf p == b)

/-! ### Interrupts (R117) -/

/-- A vector is masked, by the Function Mask or by its own entry of the MSI-X table (log 36). -/
def HostIf.vecMasked (h : HostIf) (vec : Fin 32) : Bool :=
  h.msixMask || (h.msixTable[(⟨4 * vec.val + 3, by omega⟩ : Fin 128)]).getLsbD 0

/-- Send a vector, or note it in the pending-bit array while it is masked (R110). -/
def HostIf.sendVector (h : HostIf) (vec : Fin 32) : HostIf :=
  if h.vecMasked vec then { h with msixPba := h.msixPba ||| 1#32 <<< vec.val } else { h with msix := upd h.msix vec (· + 1) }

/-- Send the pending vectors that are not masked any more. -/
def HostIf.sendPending (h : HostIf) : HostIf :=
  if !h.msixEnabled then h
  else (List.finRange 32).foldl (fun h v =>
    if h.msixPba.getLsbD v.val && !h.vecMasked v then
      { h with msixPba := h.msixPba &&& ~~~(1#32 <<< v.val), msix := upd h.msix v (· + 1) }
    else h) h

/-- Set a bit of `INTSTAT`; when it goes from 0 to 1 unmasked with MSI-X enabled, its vector is sent. -/
def State.setInt (s : State) (b : Fin 32) (vec : Fin 32) : State :=
  s.updHost fun h =>
    let m : Word := 1#32 <<< b.val
    let fresh := (h.intstat &&& m) == 0#32
    let u := { h with intstat := h.intstat ||| m }
    if fresh && h.msixEnabled && (h.intmask &&& m) != 0#32 then u.sendVector vec else u

/-- Vector of a queue (Table 3.17). -/
def Queue.vec (q : Queue) : Fin 32 := ⟨q.qcfg.toNat / 256 % 32, Nat.mod_lt _ (by decide)⟩

def intBit (n : Nat) : Fin 32 := ⟨n % 32, Nat.mod_lt _ (by decide)⟩

/-! ### Packets to the host -/

/-- Size of an outgoing packet in bytes (R78). -/
def OutPkt.size (o : OutPkt) : Nat := 16 + o.payload.length + (if o.crc then 4 else 0)

/-- Header and payload of an outgoing packet (Table 3.1). -/
def OutPkt.body (o : OutPkt) : List Byte :=
  leBytes 2 0x5358 ++ leBytes 1 o.version ++ [0#8] ++ leBytes 2 o.opcode ++ leBytes 2 o.tag.toNat
    ++ leBytes 2 o.payload.length ++ leBytes 2 o.axis.toNat ++ leBytes 4 o.path.toNat ++ o.payload

/-- The bytes of an outgoing packet, with its CRC when one is in use (R78, R79). -/
def OutPkt.bytes (o : OutPkt) : List Byte :=
  if o.crc then o.body ++ leBytes 4 (crc32c o.body).toNat else o.body

/-- Entries of 60 packet bytes each (R111); fuel bounds the number of entries. -/
def chunk60 : Nat → List Byte → List (List Byte)
  | 0, _ => []
  | f + 1, bs => if bs.length ≤ 60 then [bs] else bs.take 60 :: chunk60 f (bs.drop 60)

def cqSize (q : Queue) : Nat := 2 ^ q.smpCqSz

/-- Entries a packet needs. -/
def OutPkt.entries (o : OutPkt) : Nat := ceilDiv o.size 60

/-- Free entries of the CQ: one entry always stays empty, so that HEAD = TAIL means empty (log 9). -/
def Queue.cqFree (q : Queue) : Nat := cqSize q - 1 - q.cq.length

def Queue.fits (q : Queue) (o : OutPkt) : Bool := decide (o.entries ≤ q.cqFree)

/-- Put entry after entry into the CQ: the entry bytes, then `PHASE`, which inverts on each wrap (R112). -/
def Queue.putEntries (q : Queue) : List (List Byte) → Bool → Queue
  | [], _ => q
  | c :: cs, first =>
    let ctl := b2n q.phase + 2 * b2n first + 4 * b2n cs.isEmpty
    let e : RingEntry := ⟨BitVec.ofNat 8 ctl, BitVec.ofNat 16 c.length, c ++ zeros (60 - c.length)⟩
    let t := q.cqTail + 1
    let wrap := decide (cqSize q ≤ t)
    { q with cq := q.cq ++ [e], cqTail := if wrap then 0 else t, phase := q.phase != wrap }.putEntries cs false

/-- Write one packet into the CQ. -/
def Queue.write (q : Queue) (o : OutPkt) : Queue :=
  { q.putEntries (chunk60 70 o.bytes) true with unsignalled := q.unsignalled + 1 }

/-- Signal the queue's interrupt when `COAL_CNT` + 1 complete packets are unsignalled (Table 3.17). -/
def State.coalesce (s : State) (q : Fin 16) : State :=
  let k := s.host.queues[q]
  if k.qcfg.toNat / 2 ^ 16 % 16 + 1 ≤ k.unsignalled then
    (s.updQueue q fun k => { k with unsignalled := 0 }).setInt (intBit q.val) k.vec
  else s

/-- Bytes of events and replies a queue holds (R115). -/
def Queue.heldBytes (q : Queue) : Nat := (q.held.map OutPkt.size).foldl (· + ·) 0

/-- Send a packet through a queue: into the CQ if it fits and nothing waits before it, otherwise held with `CQ_STALL` set
(R115). A queue that is not active is owed no replies (R113); events wait for it (R88). -/
def State.toQueue (s : State) (q : Fin 16) (o : OutPkt) : State :=
  let k := s.host.queues[q]
  if !k.active then (if o.event then s.updQueue q fun k => { k with held := k.held ++ [o] } else s)
  else if k.held.isEmpty && k.fits o then (s.updQueue q (·.write o)).coalesce q
  else s.updQueue q fun k => { k with held := k.held ++ [o], cqStall := true }

/-- Write the held packets that fit, oldest first; the queue fetches again once none waits (R115). -/
def State.writeHeld (s : State) (q : Fin 16) : Nat → State
  | 0 => s
  | n + 1 =>
    let k := s.host.queues[q]
    match k.held with
    | [] => s.updQueue q fun k => { k with cqStall := false }
    | o :: rest =>
      if k.active && k.fits o then (((s.updQueue q fun k => { k.write o with held := rest }).coalesce q)).writeHeld q n
      else s.updQueue q fun k => { k with cqStall := k.active }

/-- What waits for a queue that begins to run is written. -/
def State.flushHeld (s : State) (q : Fin 16) : State := s.writeHeld q ((s.host.queues[q]).held.length + 1)

/-- Send a packet towards its receiver: a CQ, the QSPI outgoing list, or the leader. -/
def State.emit (s : State) (src : Src) (o : OutPkt) : State :=
  match src with
  | .pcie q => s.toQueue q o
  | .qspi => s.updHost fun h => { h with qspi := { h.qspi with tx := h.qspi.tx ++ [o] } }
  | .leader => s.updHost fun h => { h with leaderTx := h.leaderTx ++ [o] }

/-! ### Sessions -/

/-- The open session of a transport. -/
def State.session (s : State) : Src → Option Session
  | .pcie _ => s.host.pcie
  | .qspi => s.host.qspiSes
  | .leader => s.host.leader

def State.setSession (s : State) (src : Src) (x : Option Session) : State :=
  s.updHost fun h =>
    match src with
    | .pcie _ => { h with pcie := x }
    | .qspi => { h with qspiSes := x }
    | .leader => { h with leader := x }

/-- A feature bit of Table 3.7 is granted. -/
def Session.has (x : Session) (b : Nat) : Bool := bit x.features b

def featEvents := 0
def featCrc := 1
def featJunction := 2
def featGroup := 3
def featTimed := 4

/-- CRC is in use towards a receiver (R80). -/
def State.crcUse (s : State) (src : Src) : Bool :=
  match src with
  | .pcie _ => match s.host.pcie with | some x => x.has featCrc | none => false
  | _ => true

/-- Status codes (Table 3.11). -/
inductive Status where
  | ok | accepted | done | badMagic | badOpcode | badLength | badCrc | badVersion | badTarget | noSession | busy
  | queueFull | range | state | spinning | lockedOut | retired | clearRefused | denied | admitRefused | noDraft
  | draftConflict | aborted | homeFailed | timeout | internal
  deriving DecidableEq, Repr

def Status.code : Status → Nat
  | .ok => 0x0000 | .accepted => 0x0001 | .done => 0x0002 | .badMagic => 0x0010 | .badOpcode => 0x0011
  | .badLength => 0x0012 | .badCrc => 0x0013 | .badVersion => 0x0014 | .badTarget => 0x0015 | .noSession => 0x0020
  | .busy => 0x0021 | .queueFull => 0x0022 | .range => 0x0030 | .state => 0x0031 | .spinning => 0x0032
  | .lockedOut => 0x0033 | .retired => 0x0034 | .clearRefused => 0x0035 | .denied => 0x0036
  | .admitRefused => 0x0040 | .noDraft => 0x0041 | .draftConflict => 0x0042 | .aborted => 0x0050
  | .homeFailed => 0x0051 | .timeout => 0x0052 | .internal => 0x00F0

/-- OK, ACCEPTED or DONE. -/
def Status.good : Status → Bool
  | .ok | .accepted | .done => true
  | _ => false

/-- The status word of a reply (R82). -/
def statusWord (st : Status) (det : Nat) : List Byte := leBytes 2 st.code ++ leBytes 2 det

/-- Remove the first occurrence of a tag. -/
def dropTag (t : BitVec 16) (l : List (BitVec 16)) : List (BitVec 16) := l.erase t

/-- Replies are still owed to this command: its queue has not been disabled since it arrived (R113). -/
def State.owed (s : State) (r : CmdRef) : Bool :=
  match r.src with
  | .pcie q => (s.host.queues[q]).gen == r.gen
  | _ => true

/-- Send what is owed to a command. -/
def State.emitTo (s : State) (r : CmdRef) (o : OutPkt) : State := if s.owed r then s.emit r.src o else s

/-- Complete an accepted command (R84): the completion goes to its session if that session is still open (R104), and in
version 3 `DONE` carries the time tag of effect. -/
def State.complete (s : State) (r : CmdRef) (st : Status) (det : Nat) (effect : Nat) (extra : List Byte := []) : State :=
  match s.session r.src with
  | none => s
  | some x =>
    if x.sid ≠ r.sid then s
    else
      let s := s.setSession r.src (some { x with awaiting := dropTag r.tag x.awaiting })
      let eff := if st = .done ∧ r.version = 3 then leBytes 8 effect else []
      s.emitTo r { event := false, version := x.version, opcode := r.opcode + 0x8000, tag := r.tag, axis := r.axis,
                     path := r.path, crc := s.crcUse r.src, payload := statusWord st det ++ eff ++ extra }

/-- The completion of a command that may have no issuer. -/
def State.complete? (s : State) (r : Option CmdRef) (st : Status) (det : Nat) (effect : Nat) : State :=
  match r with
  | none => s
  | some r => s.complete r st det effect

/-- The same for several commands. -/
def State.completeAll (s : State) (l : List CmdRef) (st : Status) (det : Nat) : State :=
  l.foldl (fun s r => s.complete r st det s.now) s

/-! ### Events (R87, R88) -/

/-- Events a session has not been delivered yet. -/
def State.undelivered (s : State) (src : Src) : List OutPkt :=
  match src with
  | .pcie _ => (s.host.pcie.map (fun x => s.host.queues[x.evq].held)).getD []
  | .qspi => s.host.qspi.tx
  | .leader => s.host.leaderTx

/-- An event of `n` bytes would have to wait with 256 KiB of packets held already on the queues of the PCIe session (R115, R116). -/
def State.heldFull (s : State) (src : Src) (x : Session) (o : OutPkt) : Bool :=
  match src with
  | .pcie _ =>
    let k := s.host.queues[x.evq]
    let waits := !(k.active && k.held.isEmpty && k.fits o)
    waits && decide (262144 < (s.host.queues.toList.map Queue.heldBytes).foldl (· + ·) 0 + o.size)
  | _ => false

/-- Deliver an event to one session: numbered, with the count of events discarded before it; beyond 1,024 undelivered
events, or 256 KiB of held packets on PCIe, it is discarded and counted (R87, R88, R115). -/
def State.eventTo (s : State) (src : Src) (opcode : Nat) (axis : Nat) (body : List Byte) (path : BitVec 32 := 0) : State :=
  match s.session src with
  | none => s
  | some x =>
    if !x.has featEvents then s
    else
      let o : OutPkt :=
        { event := true, version := x.version, opcode := opcode, tag := 0, axis := BitVec.ofNat 16 axis, path := path,
          crc := s.crcUse src, payload := leBytes 2 x.evSeq ++ leBytes 2 x.evDiscarded ++ body }
      let full := decide (1024 ≤ ((s.undelivered src).filter (·.event)).length) || s.heldFull src x o
      if full then s.setSession src (some { x with evDiscarded := satInc 16 x.evDiscarded })
      else
        let s := s.setSession src (some { x with evSeq := (x.evSeq + 1) % 65536, evDiscarded := 0 })
        let dst : Src := match src with | .pcie _ => .pcie x.evq | y => y
        s.emit dst o

/-- Send an event to every session that was granted `EVENTS` (R87); none between a restart of Byway and the next `HELLO` (R77). -/
def State.event (s : State) (opcode : Nat) (axis : Nat) (body : List Byte) : State :=
  if s.boot.quiet then s else
  ((s.eventTo (.pcie 0) opcode axis body).eventTo .qspi opcode axis body).eventTo .leader opcode axis body

def evMotionDone := 0xE001
def evFault := 0xE002
def evLatch := 0xE003
def evSafety := 0xE004
def evTime := 0xE005
def evTrace := 0xE006
def evRetire := 0xE007

/-! ### Results of host opcodes -/

/-- Outcome of step 12 of Table 3.3: a status, a detail, the reply fields after the status word, and the state with the
command's effects, the reply not yet sent. -/
structure HRes where
  st : Status
  det : Nat := 0
  body : List Byte := []
  s : State
  /-- the command is synchronous and its one reply follows later (R438, and `TRACE_STOP`) -/
  later : Bool := false

def HRes.fail (s : State) (st : Status) (det : Nat) : HRes := { st := st, det := det, s := s }
def HRes.ok (s : State) : HRes := { st := .ok, s := s }
def HRes.okBody (s : State) (b : List Byte) : HRes := { st := .ok, body := b, s := s }
def HRes.accepted (s : State) : HRes := { st := .accepted, s := s }

/-- A synchronous command whose one reply comes later (R438); what arrives behind it on its queue waits (R86). -/
def HRes.replyLater (s : State) : HRes := { st := .accepted, s := s, later := true }

/-- The instant T of a command (R92), and whether a time tag gives it; none for a command that is neither timed nor in a group. -/
abbrev Instant := Option (Nat × Bool)

/-- A check of step 12: refuse with a status and detail, or go on. -/
abbrev Check (α : Type) := Except (Status × Nat) α

/-- Refuse unless the condition holds. -/
def need (c : Bool) (st : Status) (det : Nat := 0) : Check Unit := if c then .ok () else .error (st, det)

/-- The result of checks followed by an effect; a failing check leaves the state unchanged. -/
def HRes.ofCheck (s : State) (c : Check HRes) : HRes :=
  match c with
  | .ok r => r
  | .error (st, det) => .fail s st det

/-- Whom the completion of a packet goes to. -/
def State.refOf (s : State) (p : Packet) : CmdRef :=
  { src := p.src, sid := ((s.session p.src).map (·.sid)).getD 0, version := ((s.session p.src).map (·.version)).getD 1,
    opcode := p.opcode.toNat, tag := p.tag, axis := p.axis, path := p.path,
    hostId := ((s.session p.src).map (·.hostId)).getD 0
    gen := match p.src with | .pcie q => (s.host.queues[q]).gen | _ => 0 }

/-- The negotiated version of the packet's session, 1 outside one. -/
def State.versionOf (s : State) (p : Packet) : Nat := ((s.session p.src).map (·.version)).getD 1

/-- The session that sent the packet holds control (R99). -/
def State.hasControl (s : State) (p : Packet) : Bool := ((s.session p.src).map (·.control)).getD false

end Sys2Proof.Machine

namespace Sys2Proof

/-- The opcode's own payload: behind the time tag of a `TIMED` packet (R93). -/
def Packet.args (p : Packet) : List Byte := if p.flags.getLsbD 2 then p.payload.drop 8 else p.payload

/-- The target axis of the header, if it is 0 to 511. -/
def Packet.axis? (p : Packet) : Option (Fin 512) := Machine.fin? 512 p.axis.toNat

end Sys2Proof
end

