-- ==== Sys2Proof/Machine/AxisOps.lean ====
section
/-!
DEFINITION. Operations on the axis state machine (R28 to R32): enable prerequisites, the end of motions and of open enable and
disable commands, and the transitions that other chapters use. And which axes and ports an active fault reaches (Table 17.1).
-/
namespace Sys2Proof.Machine

/-! ### Reach of a fault (R500, R501) -/

/-- The fault acts on the axis (Table 17.1). -/
def State.reachesAxis (s : State) (r : FaultRec) (i : Fin 512) : Bool :=
  s.bound i &&
  (if 6 ≤ r.cls then true
   else
     match r.scope with
     | .axis => r.axis == i.val ||
        (r.cls == 5 && (s.axisBus i).isSome && s.axisBus i == (fin? 512 r.axis).bind s.axisBus)
     | .port => s.portOf i == fin? 64 r.unit && (s.portOf i).isSome ||
        (r.cls == 5 && (s.axisBus i).isSome && s.axisBus i == (fin? 64 r.unit).map s.busOf)
     | .bus => (s.axisBus i).isSome && s.axisBus i == fin? 8 r.unit
     | _ => r.reach.isEmpty || r.reach.contains i.val ||
        (r.cls == 5 && r.reach.any (fun j =>
          (s.axisBus i).isSome && s.axisBus i == (fin? 512 j).bind s.axisBus)))

/-- A fault of class C4 or above asserts a torque-off request for the port (R17, R500). -/
def State.reachesPort (s : State) (r : FaultRec) (p : Fin 64) : Bool :=
  decide (4 ≤ r.cls) &&
  (if 6 ≤ r.cls then true
   else if r.cls == 5 then
     match r.scope with
     | .axis => (fin? 512 r.axis).bind s.axisBus == some (s.busOf p)
     | .port => (fin? 64 r.unit).map s.busOf == some (s.busOf p)
     | .bus => r.unit == (s.busOf p).val
     | _ => r.reach.isEmpty || r.reach.any (fun j => (fin? 512 j).bind s.axisBus == some (s.busOf p))
   else
     match r.scope with
     | .axis => (fin? 512 r.axis).bind s.portOf == some p
     | .port => r.unit == p.val
     | .bus => r.unit == (s.busOf p).val
     | _ => match s.axisOf p with
        | some i => r.reach.isEmpty || r.reach.contains i.val
        | none => false)

/-- An active fault of class C2 or above reaches the axis (R506). -/
def State.faulted (s : State) (i : Fin 512) : Bool :=
  s.faults.table.any (fun r => decide (2 ≤ r.cls) && s.reachesAxis r i)

/-- The device is in its safe state (R501): a C6 fault with a reaction is active. -/
def State.safeState (s : State) : Bool := s.faults.table.any (fun r => decide (6 ≤ r.cls) && !r.prior)

/-- A fault of this code is active in this scope and unit. -/
def State.activeFault (s : State) (code : Nat) (sc : Scope) (unit : Nat) : Bool :=
  s.faults.table.any (fun r => r.code == code && r.scope == sc && r.unit == unit)

/-- A fault of this code is active on this axis. -/
def State.activeAxisFault (s : State) (code : Nat) (i : Fin 512) : Bool :=
  s.faults.table.any (fun r => r.code == code && r.axis == i.val)

/-- Members of the group of an axis (R293). -/
def State.groupMembers (s : State) (i : Fin 512) : List (Fin 512) :=
  let g := s.ax P.axGroup i
  if g = 0 then [i] else allAxes.filter fun j => s.bound j && s.ax P.axGroup j == g

/-! ### Positions -/

/-- Actual position of an axis, raw `pos64`: that of its feedback unit, of the remote drive, or the commanded one
(Table 1.4). -/
def State.actPos (s : State) (i : Fin 512) : Int :=
  if s.isLocal i then
    match s.portOf i with
    | some p => if s.ax P.axFbmode i = 0 then s.axes[i].prof.cmdPos else s.fb[p].pk
    | none => s.axes[i].prof.cmdPos
  else if s.isNet i then toPos64 (ofPos64 s.axes[i].net.pos + s.axes[i].net.offset)
  else s.axes[i].prof.cmdPos

/-- Actual velocity of an axis, raw `vel64`. -/
def State.actVel (s : State) (i : Fin 512) : Int :=
  if s.isLocal i then
    match s.portOf i with
    | some p => if s.ax P.axFbmode i = 0 then s.axes[i].prof.cmdVel else s.fb[p].vk
    | none => s.axes[i].prof.cmdVel
  else if s.isNet i then s.axes[i].net.vel
  else s.axes[i].prof.cmdVel

/-! ### Enable prerequisites (R29, R272) -/

/-- `VALID` of a feedback unit that decodes mode `m` for an axis (R272). -/
def State.unitValid (s : State) (i : Fin 512) (p : Fin 64) (m : Nat) : Bool :=
  let f := s.fb[p]
  let base :=
    if m = 0 then true
    else if m = 1 ∨ m = 2 ∨ m = 5 then f.live
    else if m = 3 then f.live && f.hall != 0 && f.hall != 7
    else if m = 4 then !f.frames.isEmpty
    else f.resLock
  base && !s.faults.table.any (fun r => r.code / 256 == 2 && decide (2 ≤ r.cls) && s.reachesAxis r i)

/-- `VALID` of the feedback unit of a local axis (R272). -/
def State.fbValid (s : State) (i : Fin 512) (p : Fin 64) : Bool := s.unitValid i p (s.ax P.axFbmode i)

/-- The bus allows enabling: `READY`, and its voltage known (Table 7.13, note to R256). -/
def State.busReady (s : State) (b : Fin 8) : Bool :=
  s.buses[b].st == .ready && !s.activeFault 0x0609 .bus b.val

/-- `STO_ACTIVE`: Tollgate holds `GEN` low for the axis's port (R29). -/
def State.stoActive (s : State) (i : Fin 512) : Bool :=
  match s.portOf i with
  | some p => !s.tg.gen.getLsbD p.val
  | none => false

/-- The first missing enable prerequisite in the order of Table 1.12, as its detail. -/
def State.missing (s : State) (i : Fin 512) : Option Nat :=
  if s.isLocal i then
    match s.portOf i with
    | none => some 0x0001
    | some p =>
      if !s.fbValid i p then some 0x0001
      else if !s.busReady (s.busOf p) then some 0x0002
      else if s.ports[p].trip != .armed then some 0x0003
      else if s.ports[p].drvflt then some 0x0014
      else if s.stoActive i then some 0x0004
      else none
  else if s.isNet i then (if s.axes[i].net.ready then none else some 0x0015)
  else none

/-- `READY`, or `DISABLED` when a prerequisite is missing (Table 1.9). -/
def State.restState (s : State) (i : Fin 512) : AxState :=
  if (s.missing i).isNone then .ready else .disabled

/-! ### Ends of commands -/

/-- Flags word of `MOTION_DONE` (Table 10.6). -/
def Profile.doneFlags (p : Profile) : Nat :=
  b2n p.switchback + 2 * b2n p.regenScaled + 4 * b2n p.caught + 8 * b2n p.refSet

/-- Body of `MOTION_DONE` (Table 10.6). -/
def State.motionBody (s : State) (i : Fin 512) (m : MotionCmd) (st : Status) (det : Nat) : List Byte :=
  let p := s.axes[i].prof
  statusWord st det ++ leBytes 2 m.opcode ++ leBytes 2 m.tag.toNat ++ leBytes 8 s.now ++ leInt 8 p.cmdPos
    ++ leInt 8 (s.actPos i) ++ leInt 8 (if p.switchback then p.overshoot else 0) ++ leBytes 4 p.doneFlags ++ zeros 4

/-- Completion and `MOTION_DONE` of a motion command, once (R323). -/
def State.finishMotion (s : State) (i : Fin 512) (m : MotionCmd) (st : Status) (det : Nat) : State :=
  if m.done then s
  else (s.complete? m.ref st det m.tookOver).event evMotionDone i.val (s.motionBody i m st det)

def State.finishMotion? (s : State) (i : Fin 512) (m : Option MotionCmd) (st : Status) (det : Nat) : State :=
  match m with
  | none => s
  | some m => s.finishMotion i m st det

/-- End the motion commands of an axis: the one the generator runs and one that waits for its takeover. -/
def State.endMotion (s : State) (i : Fin 512) (st : Status) (det : Nat) : State :=
  let p := s.axes[i].prof
  let s := (s.finishMotion? i p.cur st det).finishMotion? i p.next st det
  s.updProf i fun p => { p with cur := none, next := none, positioning := false, locked := false }

/-- End an open `STOP`. -/
def State.endStop (s : State) (i : Fin 512) (st : Status) (det : Nat) : State :=
  let m := s.axes[i].stopCmd
  (s.finishMotion? i m st det).updAxis i fun a => { a with stopCmd := none }

/-- End an open `AXIS_ENABLE`; every switch of the port is off again. -/
def State.endEnable (s : State) (i : Fin 512) (st : Status) (det : Nat) : State :=
  match s.axes[i].enable with
  | none => s
  | some e => (s.completeAll e.refs st det).updAxis i fun a => { a with enable := none, energ := .off }

/-- End an open `AXIS_DISABLE`. -/
def State.endDisable (s : State) (i : Fin 512) (st : Status) (det : Nat) : State :=
  let r := s.axes[i].disableRefs
  (s.completeAll r st det).updAxis i fun a => { a with disableRefs := [], disabling := false }

/-- The generator's plan and source are dropped; the commanded position stays. -/
def Axis.clearMotion (a : Axis) : Axis :=
  { a with
    prof := { a.prof with
      source := .none, plan := {}, positioning := false, locked := false, idle := false, cmdVel := 0, cmdAcc := 0 }
    coord := { a.coord with wait := none, gear := none, cam := none, pathLeader := none }
    home := { a.home with phase := .none, after := none, reversed := false }
    stop := .none, stopNew := false, ss1 := false, stopForFault := false, handling := 0 }

/-- `AX.HOLDMODE` := 0 (R327). -/
def State.clearHold (s : State) (i : Fin 512) : State :=
  (s.setParam P.axHoldmode i.val 0 0).updAxis i fun a =>
    { a with step := { a.step with coasting := false, holdReduced := false } }

/-- Enter `FAULT` (Table 1.9): motions end `ABORTED` `FAULT`, an enable or disable in progress ends (Table 1.12). -/
def State.enterFault (s : State) (i : Fin 512) : State :=
  let s := (s.endMotion i .aborted 0x0103).endStop i .aborted 0x0103
  let s := (s.endEnable i .aborted 0).endDisable i .aborted 0x0103
  (s.clearHold i).updAxis i fun a => { a.clearMotion with st := .fault, energ := .off }

/-- Enter `RETIRED` (Table 1.9, R511). -/
def State.enterRetired (s : State) (i : Fin 512) : State :=
  let s := (s.endMotion i .aborted 0x0105).endStop i .aborted 0x0105
  let s := (s.endEnable i .aborted 0).endDisable i .aborted 0x0105
  s.updAxis i fun a => { a.clearMotion with st := .retired, energ := .off }

/-- Enter `READY` or `DISABLED`; what still moved ends `ABORTED` with `det` (Table 10.5). An open disable is done. -/
def State.enterRest (s : State) (i : Fin 512) (det : Nat := 0x0104) : State :=
  let s := (s.endMotion i .aborted det).endStop i .aborted det
  let s := s.endEnable i .aborted 0
  let s := s.updAxis i fun a => { a.clearMotion with st := s.restState i, energ := .off }
  s.endDisable i .done 0

/-- A running commit holds an enable that reaches an axis whose tasks it has not pinned (R553): on a group it reaches every member
(R296). -/
def State.commitHolds (s : State) (i : Fin 512) : Bool :=
  match s.cfg.commit with
  | some c => !c.checkOnly && (s.groupMembers i).any fun j => !c.pinned.any (fun p => p.1 == j.val)
  | none => false

/-- An enable of the axis energises it, or its remote drive. -/
def Axis.energising (a : Axis) : Bool :=
  a.energ != .off || (match a.enable with | some e => e.phase == .energising | none => false)

/-- From the loading of a commit to S the tasks of an axis in `DISABLED` or `READY` that it has not pinned are not released (R144; DEDUCED,
log 97). -/
def State.loadHolds (s : State) (i : Fin 512) : Bool :=
  match s.cfg.commit with
  | some c =>
    (c.phase == .loading || c.phase == .waiting) && !c.pinned.any (fun p => p.1 == i.val) && !s.axes[i].energising &&
      (match s.axes[i].st with | .disabled | .ready => true | _ => false)
  | none => false

/-- The forces of a port are released (R239). -/
def Port.releaseForce (x : Port) : Port := { x with force := 0, forceNext := none, forceBy := none, forceTimeout := 0 }

/-- An open enable waits for prerequisites. -/
def Axis.waits (a : Axis) : Bool := match a.enable with | some e => e.phase == .waiting | none => false

/-- Energising starts: the forces of the axis's port are released (R239). -/
def State.energiseStart (s : State) (i : Fin 512) : State :=
  match s.portOf i with
  | some p => s.updPort p Port.releaseForce
  | none => s

/-- An enable that waited for prerequisites, now that they hold: it starts energising, or a commit holds it (R553). -/
def EnableOp.met (e : EnableOp) (held : Bool) : EnableOp :=
  if e.phase = .waiting then { e with phase := if held then .commit else .energising } else e

/-- Gain or loss of prerequisites (R29): an axis moves between `DISABLED` and `READY`; an enable that waited for them starts
energising, unless a commit holds it, and one under way is aborted when the axis leaves `READY` (Table 1.12). -/
def State.prereqChange (s : State) (i : Fin 512) : State :=
  let a := s.axes[i]
  if !s.bound i then s
  else
    match a.st, (s.missing i).isNone with
    | .disabled, true =>
      let held := s.commitHolds i
      let go := !held && s.isLocal i && a.waits
      (if go then s.energiseStart i else s).updAxis i fun a =>
        { a with st := .ready, enable := a.enable.map fun e => e.met held, energ := if go then .start else a.energ }
    | .ready, false =>
      let keep : Bool := match a.enable with | some e => e.phase == .commit | none => false
      let s := if keep then s else s.endEnable i .aborted 0
      s.updAxis i fun a => { a with st := .disabled, energ := .off }
    | _, _ => s

/-- The same for every axis of a list. -/
def State.prereqChanges (s : State) (l : List (Fin 512)) : State := l.foldl State.prereqChange s

/-- The same for every axis of the device. -/
def State.prereqAll (s : State) : State := s.prereqChanges allAxes

/-- Put an axis into `STOPPING` for a stop of the given kind; the generator takes it over at its next release (R314, R320).
A controlled stop never replaces a quick stop. -/
def State.startStop (s : State) (i : Fin 512) (k : StopKind) (det : Nat) : State :=
  let a := s.axes[i]
  let s := if a.st = .stopping then s else s.endMotion i .aborted det
  s.updAxis i fun a =>
    { a with
      st := .stopping
      home := { a.home with phase := .none, after := none }
      stop := if a.st = .stopping ∧ a.stop = .quick then .quick else k
      stopNew := true }

/-- The quick stop that Tollgate requests under SS1 (R393, Table 1.9): it takes over from an open `STOP` that is slower. -/
def State.ss1Stop (s : State) (i : Fin 512) : State :=
  match s.axes[i].st with
  | .enabledIdle | .moving | .homing | .stopping =>
    let s := if s.axes[i].stop = .quick then s else s.endStop i .aborted 0x0104
    (s.startStop i .quick 0x0104).updAxis i fun a => { a with ss1 := true, stopForFault := true }
  | _ => s

/-- `STO_ACTIVE` sets (Table 1.9): an enabled axis enters `DISABLED`, or `FAULT` when a fault of class C2 or above reaches
it; one that waits for enabling loses a prerequisite. -/
def State.stoSet (s : State) (i : Fin 512) : State :=
  match s.axes[i].st with
  | .enabledIdle | .moving | .homing | .stopping => if s.faulted i then s.enterFault i else s.enterRest i
  | .ready => s.prereqChange i
  | _ => s

/-- `STO_ACTIVE` clears. -/
def State.stoClear (s : State) (i : Fin 512) : State := s.prereqChange i

end Sys2Proof.Machine
end

