-- ==== Sys2Proof/Machine/Faults.lean ====
section
/-!
DEFINITION. Raising, recording, merging and clearing faults (R500 to R509), and upsets and retirement (R510 to R513).
-/
namespace Sys2Proof.Machine

/-- The record of a fault as its reach is judged. -/
def FaultArg.probe (a : FaultArg) (now : Nat) : FaultRec :=
  { code := a.code, cls := a.cls, axis := a.axis, scope := a.scope, unit := a.unit, time := now, detail := a.detail, reach := a.reach }

/-- Flags byte of a record (Table 17.2). -/
def FaultRec.flags (r : FaultRec) : Nat :=
  ofBools [r.active, r.merged, r.retried, r.permanent, r.consequential, r.prior, r.untracked]

/-- The 32 bytes of a record (Table 17.2). -/
def FaultRec.bytes (r : FaultRec) : List Byte :=
  leBytes 2 r.code ++ leBytes 1 r.cls ++ leBytes 1 r.flags ++ leBytes 2 r.axis ++ leBytes 1 r.scope.code
    ++ leBytes 1 r.unit ++ leBytes 8 r.time ++ leBytes 4 r.detail ++ leBytes 2 r.repeats ++ leBytes 2 r.seq
    ++ leBytes 4 r.hostId ++ leBytes 4 r.clearMs

/-- Add a record to a log of `cap` records: numbered, the oldest overwritten and counted when full (R507). -/
def FaultLog.add (l : FaultLog) (cap : Nat) (r : FaultRec) : FaultLog :=
  { recs := ({ r with seq := l.next } :: l.recs).take cap
    overflow := if cap ≤ l.recs.length then (l.overflow + 1) % 2 ^ 32 else l.overflow
    next := (l.next + 1) % 65536 }

/-- The record belongs into the persistent log (R507). -/
def FaultRec.persistent (r : FaultRec) : Bool :=
  decide (4 ≤ r.cls) || (r.code / 256 == 0x0B) || (r.code / 256 == 0x0C) || (r.code / 256 == 0x0D) || r.permanent
    || r.code == 0x0A05

/-- Write a record into the logs (R507) and send `FAULT_EVENT` (R509). -/
def State.logRec (s : State) (r : FaultRec) : State :=
  let n := s.faults.crlog.next
  let s := s.updFaults fun f =>
    { f with
      crlog := f.crlog.add 256 r
      plog := if r.persistent then f.plog.add 64 r else f.plog }
  s.event evFault r.axis { r with seq := n }.bytes

/-- The oldest active record of the lowest class below `c` (R508); the table is newest first. -/
def displaced (t : List FaultRec) (c : Nat) : Option FaultRec :=
  let low := t.foldl (fun m r => if r.cls < m then r.cls else m) c
  if low < c then (t.reverse.find? (fun r => r.cls == low)) else none

/-- Clear one active record: its clear is logged and sent as an event (R507, R509). -/
def State.clearRec (s : State) (r : FaultRec) : State :=
  let s := s.updFaults fun f => { f with table := f.table.erase r }
  s.logRec { r with active := false, clearMs := min ((s.now - r.time) / 1000000) (2 ^ 32 - 1) }

/-- Make room for a record of class `c` in the full active table: the displaced record counts as cleared (R508). -/
def State.makeRoom (s : State) (c : Nat) : State :=
  if s.faults.table.length < 2048 then s
  else match displaced s.faults.table c with | some d => s.clearRec d | none => s

/-- Enter a record in the active table of 2,048 records (R508). -/
def State.enterActive (s : State) (r : FaultRec) : State × FaultRec :=
  let s := s.makeRoom r.cls
  if s.faults.table.length < 2048 then
    (s.updFaults fun f => { f with table := { r with seq := f.crlog.next } :: f.table }, r)
  else (s, { r with untracked := true, active := false })

/-- Same code, scope and unit, and for scope axis the same axis (R504). -/
def FaultRec.same (r : FaultRec) (a : FaultArg) : Bool :=
  r.code == a.code && r.scope == a.scope && r.unit == a.unit && (r.scope != .axis || r.axis == a.axis)

/-- Record a fault that has no reaction to start. -/
def State.record (s : State) (a : FaultArg) (merged : Bool) : State :=
  let r : FaultRec :=
    { code := a.code, cls := a.cls, axis := a.axis, scope := a.scope, unit := a.unit, time := s.now, detail := a.detail,
      hostId := a.hostId, reach := a.reach, merged := merged, retried := a.retried, permanent := a.permanent,
      consequential := a.consequential }
  let (s, r) := s.enterActive r
  s.logRec r

/-- The axis merges a fault of this class (R503): it handles one of at least that class, or it is in `FAULT`. -/
def State.merges (s : State) (i : Fin 512) (cls : Nat) : Bool :=
  decide (2 ≤ cls) &&
    (s.axes[i].st == .fault || (decide (0 < s.axes[i].handling) && decide (cls ≤ s.axes[i].handling)))

/-- Reaction of a class on one axis (Table 1.9, R503). -/
def State.reactAxis (s : State) (cls : Nat) (i : Fin 512) : State :=
  let a := s.axes[i]
  if cls < 2 ∨ s.merges i cls then s
  else
    match a.st with
    | .fault | .retired => s
    | .disabled | .ready | .enabledIdle => s.enterFault i
    | .moving | .homing =>
      if 4 ≤ cls then s.enterFault i
      else
        (s.startStop i (if cls = 3 then .quick else .controlled) 0x0103).updAxis i fun a =>
          { a with stopForFault := true, handling := cls }
    | .stopping =>
      if 4 ≤ cls then s.enterFault i
      else
        let s := if a.stop = .quick then s else s.endStop i .aborted 0x0103
        (s.startStop i (if cls = 3 then .quick else .controlled) 0x0103).updAxis i fun a =>
          { a with stopForFault := true, handling := cls }

/-- Torque-off request of a fault reaction: switches off at once, forces released (R17, R239). -/
def Port.torqueOff (p : Port) : Port :=
  { p.releaseForce with offFault := true }

/-- Torque-off requests of a fault of class C4 or above. -/
def State.requestOff (s : State) (r : FaultRec) : State :=
  if r.cls < 4 then s
  else allPorts.foldl (fun s p => if s.reachesPort r p then s.updPort p Port.torqueOff else s) s

/-- The outputs that are on go off, from now on (R17, R223, R236). -/
def Port.allOff (x : Port) (ticks : Nat) : Port :=
  { x with
    gate := 0
    offT := Vector.ofFn fun k => if x.gate.getLsbD k.val then 0 else x.offT[k]
    lastEdge := if x.gate = 0 then x.lastEdge else 32 * ticks + x.tap }

/-- The port's C5 action (Table 7.1): all switches off, and from t_dead later the active short where it is available (R236); a
`SERVO3` port without it reports `SHORT_UNAVAILABLE`, or counts it again (R504). -/
def State.c5Port (s : State) (p : Fin 64) : State :=
  if s.pt P.ptKind p = 1 then
    if s.pt P.ptActshort p = 1 then
      s.updPort p fun x => if x.shorting then x else { x.allOff s.ticks with shorting := true, shortAt := s.ticks }
    else
      let a : FaultArg :=
        { code := 0x0109, cls := 0, scope := .port, unit := p.val, axis := ((s.axisOf p).map (·.val)).getD 0xFFFF }
      if s.faults.table.any (·.same a) then
        s.updFaults fun f => { f with table := f.table.map fun r => if r.same a then { r with repeats := satInc 16 r.repeats } else r }
      else s.record a false
  else s

/-- Buses whose group a C5 fault reaches (Table 17.1). -/
def State.c5Buses (s : State) (r : FaultRec) : List (Fin 8) :=
  if r.cls ≠ 5 then []
  else
    match r.scope with
    | .axis => ((fin? 512 r.axis).bind s.axisBus).toList
    | .port => ((fin? 64 r.unit).map s.busOf).toList
    | .bus => (fin? 8 r.unit).toList
    | _ => if r.reach.isEmpty then allBuses
           else allBuses.filter (fun b => r.reach.any (fun j => (fin? 512 j).bind s.axisBus == some b))

/-- A C5 reaction on a bus group (R500): active short or all off on each port, the bus into `LOCKOUT`. While `DCB_SD_FAULT` is active
the bus keeps the state it had (note to R256). -/
def State.c5Group (s : State) (b : Fin 8) : State :=
  let s := (s.busPorts b).foldl State.c5Port s
  s.updBus b fun x =>
    if x.st = .unused ∨ s.activeFault 0x0609 .bus b.val = true then x
    else { x with st := .lockout, pre := false, preTimer := false }

/-- Start the reaction of a recorded fault (R500, R501, R503): torque-off requests, the bus groups of C5, and every axis it
reaches. Axes that merge it keep their own reaction. -/
def State.react (s : State) (r : FaultRec) : State :=
  let s := s.requestOff r
  let s := (s.c5Buses r).foldl State.c5Group s
  allAxes.foldl (fun s i => if s.reachesAxis r i then s.reactAxis r.cls i else s) s

/-- Withdraw the torque-off requests that no active fault of class C4 or above asserts any more (R18, R506), end active shorts whose
C5 fault is cleared (R238) and the `SAFE` halts whose `DEBUG_HALT` is cleared (R245). An active prior record (R519) counts as any
active record of its class, here as in `State.faulted` (DESIGN CHOICE, log 104). -/
def State.withdrawOff (s : State) : State :=
  allPorts.foldl (fun s p =>
    let off := s.faults.table.any (fun r => s.reachesPort r p)
    let c5 := s.faults.table.any (fun r => r.cls == 5 && s.reachesPort r p)
    let halt := s.activeFault 0x0108 .port p.val
    s.updPort p fun x =>
      { x with offFault := x.offFault && off, shorting := x.shorting && c5, haltOff := x.haltOff && halt }) s

/-- Axes in `FAULT` that no active fault of class C2 or above reaches leave it (Table 1.9, R506). -/
def State.leaveFaults (s : State) : State :=
  allAxes.foldl (fun s i =>
    if s.axes[i].st = .fault ∧ s.faulted i = false then s.updAxis i fun a => { a with st := s.restState i } else s) s

/-- A bus in `LOCKOUT` charges again when every fault whose C5 reaction reaches it is cleared (Table 7.13). -/
def State.leaveLockouts (s : State) : State :=
  allBuses.foldl (fun s b =>
    if s.buses[b].st = .lockout ∧
       s.faults.table.any (fun r => r.cls == 5 && (s.c5Buses r).contains b) = false
    then s.updBus b fun x => { x with st := .charging, pre := false, preTimer := false } else s) s

/-- What follows the clear of faults (R18, R506): torque-off requests and active shorts that nothing asserts any more end, axes
leave `FAULT` and buses `LOCKOUT`, and prerequisites return. -/
def State.afterClear (s : State) : State := ((s.withdrawOff.leaveFaults).leaveLockouts).prereqAll

/-- The table is full: a record of class C2 or above makes room for one of class `c`, or none does and the new one counts as cleared
(R508). -/
def State.displacesReaction (s : State) (c : Nat) : Bool :=
  decide (2048 ≤ s.faults.table.length) && (match displaced s.faults.table c with | some d => decide (2 ≤ d.cls) | none => true)

/-- Raise a fault (R503, R504), without the group rule of R296. -/
def State.raiseOne (s : State) (a : FaultArg) : State :=
  match s.faults.table.find? (·.same a) with
  | some r =>
    let r' := { r with repeats := satInc 16 r.repeats, cls := max r.cls a.cls }
    let s := s.updFaults fun f => { f with table := f.table.map fun x => if x.same a then r' else x }
    if r.cls < a.cls then s.react r' else s
  | none =>
    let probe := a.probe s.now
    let merged := allAxes.any (fun i => s.reachesAxis probe i && s.merges i a.cls)
    let u := (s.record a merged).react probe
    if s.displacesReaction a.cls then u.afterClear else u

/-- Axes on which `GROUP_FAULT` follows a fault, with the axis it originates on (R296): the other members of the group of an axis
on which a reaction of class C2 or above starts. -/
def State.groupVictims (s : State) (a : FaultArg) : List (Fin 512 × Fin 512) :=
  if a.cls < 2 ∨ a.code = 0x040C ∨ s.faults.table.any (fun r => r.same a && decide (a.cls ≤ r.cls)) = true then []
  else
    let r := a.probe s.now
    (allAxes.filter fun i => s.reachesAxis r i && s.ax P.axGroup i != 0 && !s.merges i a.cls).flatMap fun i =>
      ((s.groupMembers i).filter fun j => j != i && !s.reachesAxis r j).map fun j => (i, j)

/-- Raise a fault (R503, R504), and `GROUP_FAULT` with its class on the other members of a group (R296), now. -/
def State.raiseNow (s : State) (a : FaultArg) : State :=
  (s.groupVictims a).foldl (fun s v =>
    s.raiseOne { code := 0x040C, cls := a.cls, scope := .axis, axis := v.2.val, detail := v.1.val }) (s.raiseOne a)

/-- Raise a fault: at the end of the axis-control cycle that is being run, or now (R505). -/
def State.raise (s : State) (a : FaultArg) : State :=
  match s.faults.cycle with
  | some l => s.updFaults fun f => { f with cycle := some (l ++ [a]) }
  | none => s.raiseNow a

/-- `a` is taken before `b` (R505): the higher class first, then the lower code. -/
def FaultArg.before (a b : FaultArg) : Bool := decide (b.cls < a.cls) || (a.cls == b.cls && decide (a.code ≤ b.code))

/-- Put a fault among others in the order of R505. -/
def insertFault (a : FaultArg) : List FaultArg → List FaultArg
  | [] => [a]
  | b :: l => if a.before b then a :: b :: l else b :: insertFault a l

/-- The faults of a cycle in the order of R505. -/
def sortFaults (l : List FaultArg) : List FaultArg := l.foldr insertFault []

/-- Run a part of an axis-control cycle: the faults it finds are taken after it in descending class and ascending code (R31, R505; log
94). -/
def State.axisCycle (s : State) (f : State → State) : State :=
  match s.faults.cycle with
  | some _ => f s
  | none =>
    let u := f (s.updFaults fun x => { x with cycle := some [] })
    (sortFaults (u.faults.cycle.getD [])).foldl State.raiseNow (u.updFaults fun x => { x with cycle := none })

/-- Raise a fault on one axis. -/
def State.raiseAxis (s : State) (i : Fin 512) (code cls : Nat) (detail : Nat := 0) : State :=
  s.raise { code := code, cls := cls, scope := .axis, axis := i.val, detail := detail }

/-- Raise a fault of a port, which acts on its bound axis (R256). -/
def State.raisePort (s : State) (p : Fin 64) (code cls : Nat) (detail : Nat := 0) : State :=
  s.raise { code := code, cls := cls, scope := .port, unit := p.val,
            axis := ((s.axisOf p).map (·.val)).getD 0xFFFF, detail := detail }

/-- Raise a fault of a DC bus. -/
def State.raiseBus (s : State) (b : Fin 8) (code cls : Nat) (detail : Nat := 0) : State :=
  s.raise { code := code, cls := cls, scope := .bus, unit := b.val, detail := detail }

/-- Raise a device fault. -/
def State.raiseDev (s : State) (code cls : Nat) (detail : Nat := 0) : State :=
  s.raise { code := code, cls := cls, scope := .device, detail := detail }

/-- Raise a fault of an Ethernet port (R446); the detail is the port. -/
def State.raiseEth (s : State) (e : Fin 4) (code : Nat) : State :=
  s.raise { code := code, cls := 1, scope := .eth, unit := e.val, detail := e.val }

/-- Raise a fault of a CAN controller (R468). -/
def State.raiseCan (s : State) (c : Fin 4) (code cls detail : Nat) : State :=
  s.raise { code := code, cls := cls, scope := .can, unit := c.val, detail := detail }

/-- The rule 'at most once per 100 ms' for a code and a unit: true when the fault may be raised now. -/
def State.mayRaise (s : State) (code unit : Nat) : Bool :=
  match assocGet? s.faults.lastRaise (code * 65536 + unit) with
  | none => true
  | some t => decide (t + 100000000 ≤ s.now)

/-- Note the raise for that rule. -/
def State.noteRaise (s : State) (code unit : Nat) : State :=
  s.updFaults fun f => { f with lastRaise := assocSet f.lastRaise (code * 65536 + unit) s.now }

/-! ### Upsets (R511, R512) -/

def UnitKind.code : UnitKind → Nat
  | .engine => 4 | .port => 2 | .feedback => 9 | .bank => 5

/-- Count an upset of a unit (R512); true when it is the third within 1 s (R511). -/
def State.upset (s : State) (k : UnitKind) (u : Nat) : State × Bool :=
  let old := (s.faults.upsets.find? (fun r => r.kind == k && r.unit == u)).getD { kind := k, unit := u, count := 0, times := [] }
  let recent := old.times.filter (fun t => decide (s.now < t + 1000000000))
  let new : UpsetRec := { old with count := satInc 32 old.count, times := (s.now :: recent).take 3 }
  (s.updFaults fun f =>
    { f with
      upsets := new :: f.upsets.filter (fun r => !(r.kind == k && r.unit == u))
      totalUpsets := satInc 32 f.totalUpsets },
   decide (2 ≤ recent.length))

/-- Upsets of a unit since the cold reset. -/
def State.upsetCount (s : State) (k : UnitKind) (u : Nat) : Nat :=
  ((s.faults.upsets.find? (fun r => r.kind == k && r.unit == u)).map (·.count)).getD 0

/-- `RETIRE_EVENT` (Table 17.4) and the time of the last retirement. -/
def State.retireEvent (s : State) (k : UnitKind) (u target : Nat) (t0 : Nat) (entries : List (List Byte)) : State :=
  let s := s.updFaults fun f => { f with lastRetire := s.now }
  s.event evRetire 0xFFFF
    (leBytes 1 k.code ++ leBytes 1 u ++ leBytes 1 target ++ leBytes 1 entries.length ++ leBytes 4 (s.now - t0)
      ++ leBytes 8 t0 ++ entries.flatten)

/-- Entry of a task in `RETIRE_EVENT` (Table 17.4). -/
def retireEntry (t : Task) (outcome without age : Nat) : List Byte :=
  leBytes 2 t.axis ++ leBytes 1 t.kind ++ leBytes 1 outcome ++ leBytes 2 without ++ leBytes 1 age ++ zeros 1

/-- The device withdraws tasks without placing the others anew (R148): they leave the committed record and are not released again. -/
def State.withdrawTasks (s : State) (f : Task → Bool) : State :=
  allEngines.foldl (fun s e =>
    s.updEng e fun x => { x with table := x.table.map fun t => if f t then { t with withdrawn := true } else t })
    (s.updCfg fun c => { c with tasks := c.tasks.filter fun t => !f t })

/-- Retire a port or feedback unit with its axis (R511): the port stays under a torque-off request until a cold reset. User tasks that
need a retired port are withdrawn with the axis's tasks (R148). -/
def State.retirePort (s : State) (k : UnitKind) (p : Fin 64) : State :=
  let s := s.updFaults fun f =>
    if k = .feedback then { f with fbRetired := f.fbRetired ||| 2 ^ p.val }
    else { f with portsRetired := f.portsRetired ||| 2 ^ p.val }
  let s := s.updPort p fun x => { x.torqueOff with offRetired := true }
  let s := s.raise { code := 0x0B05, cls := 4, scope := .port, unit := p.val, permanent := true,
                     axis := ((s.axisOf p).map (·.val)).getD 0xFFFF,
                     detail := p.val + (if k = .feedback then 256 else 0) }
  let axis := s.axisOf p
  let s := match axis with | some i => s.enterRetired i | none => s
  let gone (t : Task) : Bool := axis.map (·.val) == some t.axis || (t.kind == 3 && k == .port && t.slots.any fun x => x.1 == p.val)
  let entries := ((s.cfg.tasks.filter gone).take 32).map fun t => retireEntry t 2 0 0
  (s.withdrawTasks gone).retireEvent k p.val 0xFF s.now entries

/-- Bits of the ports retired. -/
def State.portRetired (s : State) (p : Fin 64) : Bool := bit s.faults.portsRetired p.val
def State.fbRetired (s : State) (p : Fin 64) : Bool := bit s.faults.fbRetired p.val
def State.engRetired (s : State) (e : Fin 24) : Bool := bit s.faults.enginesRetired e.val

end Sys2Proof.Machine
end

