-- ==== Sys2Proof/Machine/Xr.lean ====
section
/-!
DEFINITION. Crossroads: words, banks, regions, the detour of a retired bank, and accesses to it (R469 to R483).
-/
namespace Sys2Proof.Machine

def xrSize : Nat := 0x2800000
def detourBase : Nat := 0x275C000

/-- Base of an axis block (Table 15.4). -/
def axisBlock (i : Nat) : Nat := 0x940000 + 0x200 * i

/-- Pool of Crossroads (Table 15.4). -/
def poolBase : Nat := 0xF00000
def poolBytes : Nat := detourBase - poolBase

/-- Bank of the word at an offset (R469). -/
def xrBank (off : Nat) : Nat := off / 8 % 64

/-- Row of the word at an offset (R469). -/
def xrRow (off : Nat) : Nat := off / 512

/-- Offset of the detour word of row `i` of bank `b` (R479). -/
def detourWord (b i : Nat) : Nat :=
  let k := i % 63
  (80608 + i / 63) * 512 + (if k < b then k else k + 1) * 8

/-- Where a byte is stored: words of the retired bank lie in the detour area once the map has switched (R479). -/
def Xr.phys (x : Xr) (off : Nat) : Nat :=
  match x.retired with
  | some b => if xrBank off = b.val ∧ off < detourBase then detourWord b.val (xrRow off) + off % 8 else off
  | none => off

/-- Read bytes. -/
def Xr.read (x : Xr) (off : Nat) : Nat → List Byte
  | 0 => []
  | n + 1 => x.mem.read (x.phys off) :: x.read (off + 1) n

/-- Copy `n` bytes of a memory. -/
def Memory.copy (m : Memory) (src dst : Nat) : Nat → Memory
  | 0 => m
  | n + 1 => Memory.copy (m.write dst (m.read src)) (src + 1) (dst + 1) n

/-- Write one byte; while a relocation copies its bank, the word as it then stands is also written to the detour word (R470; R479,
step 1). -/
def Xr.writeByte (x : Xr) (off : Nat) (b : Byte) : Xr :=
  let x := { x with mem := x.mem.write (x.phys off) b }
  match x.reloc with
  | some r =>
    if xrBank off = r.bank ∧ off < detourBase then
      { x with
        mem := x.mem.copy (off / 8 * 8) (detourWord r.bank (xrRow off)) 8
        reloc := some { r with written := if r.written.contains (off / 8) then r.written else off / 8 :: r.written } }
    else x
  | none => x

/-- Write bytes. -/
def Xr.write (x : Xr) (off : Nat) : List Byte → Xr
  | [] => x
  | b :: bs => (x.writeByte off b).write (off + 1) bs

/-- Logical offset of a byte of the detour area, for retired bank `b`: the inverse of `detourWord`. -/
def detourOff (b d : Nat) : Nat :=
  let k := d % 512 / 8
  (63 * (d / 512 - 80608) + (if k < b then k else k - 1)) * 512 + b * 8 + d % 8

/-- Logical offset of the byte stored at a physical one. -/
def Xr.logical (x : Xr) (a : Nat) : Nat :=
  match x.retired with
  | some b => if detourBase ≤ a then detourOff b.val a else a
  | none => a

/-- Every byte of `[lo, hi)` below the detour area reads zero. -/
def Xr.clearRange (x : Xr) (lo hi : Nat) : Xr :=
  { x with mem := x.mem.filter fun c => !(decide (lo ≤ x.logical c.1) && decide (x.logical c.1 < hi)) }

/-- A word rewritten whole loses its uncorrectable error (R476). -/
def Xr.clearBad (x : Xr) (off n : Nat) : Xr :=
  { x with bad := x.bad.filter (fun w => !(decide (off ≤ w * 8) && decide (w * 8 + 8 ≤ off + n))) }

/-- One region register grants the access (Table 15.3). -/
def regionGrants (r : BitVec 64) (off n : Nat) (wr : Bool) : Bool :=
  let lo := r.toNat % 2 ^ 32
  let hi := r.toNat / 2 ^ 32
  bit lo 0 && (if wr then bit lo 2 else bit lo 1)
    && decide (lo / 4096 * 4096 ≤ off) && decide (off + n ≤ (hi / 4096 + 1) * 4096)

/-- The access is permitted (R475): one region of the master covers it and grants its operation, and it stays below the
detour area; Turnpike (40) has its fixed grant of everything below it (Table 15.1). -/
def Xr.permitted (x : Xr) (m : Nat) (off n : Nat) (wr : Bool) : Bool :=
  decide (off + n ≤ detourBase) &&
    (if m = 40 then true
     else match fin? 42 m with
       | some i => x.regions[i].toList.any (fun r => regionGrants r off n wr)
       | none => false)

/-! ### Areas whose contents other units keep (R371, R462, R482, R489) -/

/-- A record as its 16 bytes (Table 16.3). -/
def WmRec.bytes (r : WmRec) : List Byte :=
  leBytes 2 r.chan ++ leBytes 1 r.kind ++ leBytes 1 r.sub ++ leInt 4 r.dt ++ leBytes 8 r.value

/-- Bytes of a queue that the host owns. -/
def CanRx.used (x : CanRx) : Nat := (x.entries.map (·.2.length)).foldl (· + ·) 0

/-- The samples that positions of an axis are taken from: published setpoints for `COMMANDED`, for `VIRTUAL` axes and where no
feedback is decoded, otherwise actual positions. -/
def State.samples (s : State) (i : Fin 512) (commanded : Bool) : List (Nat × Int × Int) :=
  if commanded || s.isVirtual i || (s.isLocal i && s.ax P.axFbmode i == 0) then s.axes[i].spHist else s.axes[i].hist

/-- A sample of a history: time tag, position, velocity (R482). -/
def sampleBytes (x : Nat × Int × Int) : List Byte := leBytes 8 x.1 ++ leInt 8 x.2.1 ++ leInt 8 x.2.2

/-- Byte `o` of the sample history of an axis, the oldest sample first. -/
def State.histByte (s : State) (i o : Nat) : Option Byte :=
  (fin? 512 i).bind fun i => ((s.samples i false).reverse[o / 24]?).bind fun x => (sampleBytes x)[o % 24]?

/-- Byte `o` of the ring of a receive queue of `n` bytes. -/
def CanRx.byte (x : CanRx) (n o : Nat) : Option Byte := (x.entries.flatMap (·.2))[(o + n - (x.wrote - x.used) % n) % n]?

def State.queueByte (s : State) (q n o : Nat) : Option Byte :=
  ((s.can[(⟨q / 4 % 4, Nat.mod_lt _ (by decide)⟩ : Fin 4)]).rx[(⟨q % 4, Nat.mod_lt _ (by decide)⟩ : Fin 4)]).byte n o

/-- Byte `o` of a Waymark buffer of `n` bytes, written cyclically. -/
def Wm.byte (w : Wm) (n o : Nat) : Option Byte :=
  let c := n / 16
  (w.buf[(o / 16 + c - (w.wrote - w.buf.length) % c) % c]?).bind fun r => r.bytes[o % 16]?

/-- A byte that another unit keeps in Crossroads (log 55). -/
def State.heldByte (s : State) (off : Nat) : Option Byte :=
  let x := s.xr
  if off < x.trace.1 + x.trace.2 ∧ x.trace.1 ≤ off then s.wm.byte x.trace.2 (off - x.trace.1)
  else match x.hists.find? fun h => decide (h.2 ≤ off) && decide (off < h.2 + 1536) with
    | some h => s.histByte h.1 (off - h.2)
    | none => match x.queues.find? fun q => decide (q.2.1 ≤ off) && decide (off < q.2.1 + q.2.2) with
      | some q => s.queueByte q.1 q.2.2 (off - q.2.1)
      | none => none

/-- Bytes as a master reads them. -/
def State.xrBytes (s : State) (off : Nat) : Nat → List Byte
  | 0 => []
  | n + 1 => (s.heldByte off).getD (s.xr.mem.read (s.xr.phys off)) :: s.xrBytes (off + 1) n

/-! ### Regions that Turnpike programs (Tables 2.9, 15.1, 15.3) -/

/-- A region register over `[lo, hi)`, whole pages; disabled where it is empty. -/
def regionReg (rd wr : Bool) (lo hi : Nat) : BitVec 64 :=
  if hi ≤ lo then 0
  else BitVec.ofNat 64 (lo / 4096 * 4096 + 1 + 2 * b2n rd + 4 * b2n wr + 2 ^ 32 * ((hi - 1) / 4096 * 4096))

/-- The span of a list of areas, each an offset and a length. -/
def spanOf (l : List (Nat × Nat)) : Nat × Nat :=
  match l with
  | [] => (0, 0)
  | x :: r => r.foldl (fun a y => (min a.1 y.1, max a.2 (y.1 + y.2))) (x.1, x.1 + x.2)

/-- Checkpoint areas of an engine's tasks. -/
def State.ckptSpan (s : State) (e : Nat) : Nat × Nat :=
  spanOf ((s.cfg.tasks.filter fun t => t.engine == e && t.stateLen != 0).map fun t => (t.ckpt, 16 + 2 * t.stateLen))

/-- Images and checkpoint areas lie at the start of the pool. -/
def State.imageSpan (s : State) : Nat × Nat :=
  spanOf ((poolBase, 4096 * s.xr.images.sum)
    :: (s.cfg.tasks.filter fun t => t.stateLen != 0).map fun t => (t.ckpt, 16 + 2 * t.stateLen))

/-- Default regions of a master (Table 15.1): read, write, first offset, offset behind the last. -/
def State.defaultRegions (s : State) (m : Nat) : List (BitVec 64) :=
  let blocks := (0x940000, 0x980000)
  let rw (p : Nat × Nat) := regionReg true true p.1 p.2
  let r (p : Nat × Nat) := regionReg true false p.1 p.2
  if m < 24 then
    [rw blocks, rw (s.ckptSpan m), r (0x980000, 0xB00000), r (s.xr.cams.1, s.xr.cams.1 + s.xr.cams.2), r (0xB00000, 0xF00000)]
  else if 32 ≤ m ∧ m ≤ 35 then [r (0, 0x800000), rw (0x800000, 0x900000), r (0x900000, 0x910000), rw (0x910000, detourBase)]
  else if m = 36 ∨ m = 37 then [rw (0x800000, 0x900000)]
  else if m = 38 then [rw (spanOf (s.xr.queues.map fun q => (q.2.1, q.2.2)))]
  else if m = 39 then [rw (s.xr.trace.1, s.xr.trace.1 + s.xr.trace.2), r blocks]
  else if m = 41 then [r s.imageSpan]
  else []

/-- Turnpike programs every region register: at step 8 of Table 2.9, and where the areas of a master change (log 115). -/
def State.programRegions (s : State) : State :=
  { s with xr := { s.xr with
      regions := Vector.ofFn fun m =>
        let l := s.defaultRegions m.val
        Vector.ofFn fun k => l.getD k.val 0 } }

/-- The axis of the task that runs on an engine. -/
def Engine.runTask (e : Engine) : Option Task := e.run.bind (fun r => e.table[r.rank]?)

def State.engineAxis (s : State) (m : Nat) : Option (Fin 512) :=
  (fin? 24 m).bind (fun e => (s.eng[e].runTask).bind (fun t => fin? 512 t.axis))

/-- A refused access (R475): the violation record is overwritten and `CR_REGION` raised. -/
def State.xrViolation (s : State) (m off : Nat) (wr : Bool) : State :=
  let s := { s with xr := { s.xr with viol := (m, wr, off, s.now) } }
  match s.engineAxis m with
  | some i => s.raise { code := 0x0A03, cls := 4, scope := .master, unit := m, axis := i.val, detail := m, reach := [i.val] }
  | none => s.raise { code := 0x0A03, cls := 1, scope := .master, unit := m, detail := m }

/-- The engine whose image holds a unit of the pool (R482). -/
def imageOf : List Nat → Nat → Option Nat
  | [], _ => none
  | n :: ns, u => if u < n then some 0 else (imageOf ns (u - n)).map (· + 1)

/-- An axis has a table in the table area. -/
def Tables.has (t : Tables) (i : Nat) : Bool :=
  (assocGet? t.fric i).isSome || (assocGet? t.cog i).isSome || (assocGet? t.group i).isSome

/-- The axis whose block, task or table holds a word (R480, Table 15.6). Within an engine image and the table area, which axis it
is stays free (log 37). -/
def State.wordOwner (s : State) (off : Nat) : Option (Fin 512) :=
  let named := fin? 512 (Config.wordAxis (off / 8)).toNat
  if 0x940000 ≤ off ∧ off < 0x980000 then fin? 512 ((off - 0x940000) / 0x200)
  else if 0x980000 ≤ off ∧ off < 0xB00000 then named.filter fun i => s.tables.has i.val
  else if off < poolBase ∨ detourBase ≤ off then none
  else
    match imageOf s.xr.images ((off - poolBase) / 4096) with
    | some e => named.filter fun i => s.cfg.tasks.any fun t => t.engine == e && t.axis == i.val
    | none =>
      (s.cfg.tasks.find? (fun t => decide (t.stateLen ≠ 0) && decide (t.ckpt ≤ off)
        && decide (off < t.ckpt + 2 * t.stateLen + 16))).bind fun t => fin? 512 t.axis

/-- An uncorrectable word (R476): a bank upset, and `CR_UNCORRECTABLE` on the axis that owns the word. The third upset of a bank
within 1 s starts its relocation (R479, R511); a second bank is `CR_SECOND_BANK` (R480). -/
def State.uncorrectable (s : State) (off : Nat) : State :=
  let b := xrBank off
  let w := off / 8
  let s := { s with xr := { s.xr with bad := if s.xr.bad.contains w then s.xr.bad else w :: s.xr.bad } }
  let r := s.upset .bank b
  let s := r.1
  let s := match s.wordOwner off with
    | some i =>
      s.raise { code := 0x0A02, cls := 4, scope := .bank, unit := b, axis := i.val, detail := b, reach := [i.val], permanent := r.2 }
    | none => s.raise { code := 0x0A02, cls := 1, scope := .bank, unit := b, detail := b, permanent := r.2 }
  let taken : Option Nat := (s.xr.retired.map (·.val)).orElse fun _ => s.xr.reloc.map (·.bank)
  if !r.2 then s
  else
    match taken with
    | none => { s with xr := { s.xr with reloc := some { bank := b, t0 := s.now } } }
    | some t => if t = b then s else s.raise { code := 0x0A06, cls := 6, scope := .bank, unit := b, detail := b }

/-- Words touched by `n` bytes from an offset. -/
def xrWords (off n : Nat) : List Nat := if n = 0 then [] else (List.range ((off + n - 1) / 8 - off / 8 + 1)).map (· + off / 8)

/-- A read by a master: zero with a violation when it is refused (R475), zero with a fault when a word is uncorrectable (R476). -/
def State.xrRead (s : State) (m off n : Nat) : List Byte × State :=
  if s.xr.permitted m off n false then
    (match (xrWords off n).find? (fun w => s.xr.bad.contains w) with
     | some w => (zeros n, s.uncorrectable (8 * w))
     | none => (s.xrBytes off n, s))
  else (zeros n, s.xrViolation m off false)

/-- The part of a write that falls into one word: discarded with a fault when it covers a bad word only in part (R476). -/
def State.xrWriteWord (s : State) (w : Nat) (off : Nat) (bs : List Byte) : State :=
  let lo := max off (8 * w)
  let hi := min (off + bs.length) (8 * w + 8)
  let part := (bs.drop (lo - off)).take (hi - lo)
  if s.xr.bad.contains w ∧ part.length < 8 then s.uncorrectable (8 * w)
  else { s with xr := (s.xr.write lo part).clearBad lo part.length }

/-- A write that is permitted. -/
def State.xrStore (s : State) (off : Nat) (bs : List Byte) : State :=
  (xrWords off bs.length).foldl (fun s w => s.xrWriteWord w off bs) s

/-- A write by a master: discarded with a violation when it is refused (R475). -/
def State.xrWrite (s : State) (m off : Nat) (bs : List Byte) : State :=
  if s.xr.permitted m off bs.length true then s.xrStore off bs else s.xrViolation m off true

end Sys2Proof.Machine
end

