-- ==== Sys2Proof/Machine/Mailbox.lean ====
section
/-!
DEFINITION. The mailboxes of an axis in Crossroads (R20 to R22, Tables 9.1, 15.4), its sample histories (R371), and the rates of
its tasks (R224, R280, Table 4.3).
-/
namespace Sys2Proof.Machine

/-! ### Mailboxes -/

/-- The sequence word and the published slot of a mailbox at `base` with slots of `n` bytes (R20). -/
def Xr.mboxRead (x : Xr) (base n : Nat) : Nat × List Byte :=
  let q := leNat (x.read base 4)
  (q, x.read (base + 16 + q % 2 * n) n)

/-- Publish: the slot not currently published, then the sequence word (R20). -/
def Xr.mboxWrite (x : Xr) (base n : Nat) (bs : List Byte) : Xr :=
  let q := (leNat (x.read base 4) + 1) % 2 ^ 32
  (x.write (base + 16 + q % 2 * n) bs).write base (leBytes 4 q)

def spBox (i : Nat) : Nat := axisBlock i
def curBox (i : Nat) : Nat := axisBlock i + 0x70

/-- A setpoint (Table 9.1), raw. -/
structure SetPoint where
  seq : Nat
  tSet : Nat
  p : Int
  v : Int
  a : Int
  noSource : Bool

/-- The setpoint mailbox of an axis. -/
def State.setpoint (s : State) (i : Fin 512) : SetPoint :=
  let r := s.xr.mboxRead (spBox i.val) 48
  { seq := r.1, tSet := u64 r.2 0, p := i64 r.2 8, v := i64 r.2 16, a := i64 r.2 24, noSource := bit (u32 r.2 32) 0 }

/-- Publish a setpoint. -/
def State.publish (s : State) (i : Fin 512) (t : Nat) (p v a : Int) (noSource : Bool) : State :=
  { s with
    xr := s.xr.mboxWrite (spBox i.val) 48
      (leBytes 8 t ++ leInt 8 p ++ leInt 8 v ++ leInt 8 a ++ leBytes 4 (b2n noSource) ++ zeros 12) }

/-- A publish of the position task (Table 9.1). -/
structure CurRef where
  seq : Nat
  u : Rat
  lPos : Rat
  lNeg : Rat
  vRef : Rat
  pRef : Int
  takeAt : Nat
  lawOff : Bool

/-- The current mailbox of an axis. -/
def State.curRef (s : State) (i : Fin 512) : CurRef :=
  let r := s.xr.mboxRead (curBox i.val) 32
  { seq := r.1, u := fpToRat (fp r.2 0), lPos := fpToRat (fp r.2 4), lNeg := fpToRat (fp r.2 8), vRef := fpToRat (fp r.2 12),
    pRef := i64 r.2 16, takeAt := u16 r.2 24, lawOff := bit (u16 r.2 26) 0 }

/-- Publish a current reference. -/
def State.publishCur (s : State) (i : Fin 512) (u lPos lNeg vRef : Rat) (pRef : Int) (takeAt : Nat) (lawOff : Bool) : State :=
  let f (q : Rat) := leBytes 4 (ratToFp q).toNat
  { s with
    xr := s.xr.mboxWrite (curBox i.val) 32
      (f u ++ f lPos ++ f lNeg ++ f vRef ++ leInt 8 pRef ++ leBytes 2 (takeAt % 65536) ++ leBytes 2 (b2n lawOff) ++ zeros 4) }

/-- R285: position and velocity of a setpoint carried on to instant `t` in ns. -/
def extrapolate (tSet : Nat) (p v a : Rat) (t : Rat) : Rat × Rat :=
  let dt := (t - (tSet : Rat)) / 1000000000
  (p + v * dt + a * dt * dt / 2, v + a * dt)

def SetPoint.at (x : SetPoint) (t : Rat) : Rat × Rat × Rat :=
  let r := extrapolate x.tSet (ofPos64 x.p) (ofVel64 x.v) (ofVel64 x.a) t
  (r.1, r.2, ofVel64 x.a)

/-- An FP32 value as the program keeps it (R286). -/
def fp32 (q : Rat) : Rat := fpToRat (ratToFp q)

/-! ### Rates -/

/-- Sample interval of a port in ns: half the period with double update (R224, R258). -/
def State.sampleNs (s : State) (p : Fin 64) : Rat :=
  let n : Rat := (s.pt P.ptPeriod p : Rat) * mkRat 5 2
  if s.pt P.ptUpdate p = 1 then n / 2 else n

/-- T_c of a local axis in ns. -/
def State.tc (s : State) (i : Fin 512) : Rat :=
  match s.portOf i with
  | some p => s.sampleNs p
  | none => 0

/-- T_p of a local axis in ns (R280). -/
def State.tp (s : State) (i : Fin 512) : Rat := (s.ax P.axPosdiv i : Rat) * s.tc i

/-- The placed task of an axis of a kind (Table 4.3): 0 current, 1 position, 2 setpoint. -/
def State.taskOf (s : State) (i : Fin 512) (kind : Nat) : Option Task :=
  s.cfg.tasks.find? (fun t => t.axis == i.val && t.kind == kind)

/-- Period of the setpoint task of an axis in ns: that of its placed task, otherwise `AX.SPPERIOD`. -/
def State.spPeriod (s : State) (i : Fin 512) : Nat :=
  match s.taskOf i 2 with
  | some t => t.tNs
  | none => s.ax P.axSpperiod i

/-! ### Sample histories (R371) -/

def keep64 (x : Nat × Int × Int) (l : List (Nat × Int × Int)) : List (Nat × Int × Int) := (x :: l).take 64

/-- Position, velocity and whether `OLD`, at instant `t` (R371): linear between the two samples that bracket it; none while the
first sample after it is awaited; extrapolated from the oldest kept. The list is newest first, `b` a sample after `t`. -/
def bracket (t : Rat) (b : Nat × Int × Int) : List (Nat × Int × Int) → Rat × Rat × Bool
  | [] => (ofPos64 b.2.1 - ofVel64 b.2.2 * (((b.1 : Rat) - t) / 1000000000), ofVel64 b.2.2, true)
  | a :: rest =>
    if (a.1 : Rat) ≤ t then
      let f := if b.1 = a.1 then 0 else (t - (a.1 : Rat)) / ((b.1 : Rat) - (a.1 : Rat))
      (ofPos64 a.2.1 + f * (ofPos64 b.2.1 - ofPos64 a.2.1), ofVel64 a.2.2 + f * (ofVel64 b.2.2 - ofVel64 a.2.2), false)
    else bracket t a rest

def posAt (l : List (Nat × Int × Int)) (t : Rat) : Option (Rat × Rat × Bool) :=
  match l with
  | [] => none
  | b :: rest => if t < (b.1 : Rat) then some (bracket t b rest) else none

end Sys2Proof.Machine
end

