-- ==== Sys2Proof/Machine/Latches.lean ====
section
/-!
DEFINITION. Latches, compares and their milestones (R370 to R377).
-/
namespace Sys2Proof.Machine

/-- Stamp unit: 2⁻¹⁶ ns. -/
def stampNs (n : Nat) : Rat := (n : Rat) / 65536
def nsStamp (q : Rat) : Nat := (q * 65536).floor.toNat

def State.updLatch (s : State) (i : Fin 512) (k : Fin 4) (f : Latch → Latch) : State :=
  s.updAxis i fun a => { a with latches := upd a.latches k f }

def State.updCompare (s : State) (i : Fin 512) (k : Fin 4) (f : Compare → Compare) : State :=
  s.updAxis i fun a => { a with compares := upd a.compares k f }

def fin4s : List (Fin 4) := List.finRange 4

/-- The 32 bytes of a milestone (Table 11.8). -/
def Milestone.bytes (m : Milestone) (axis : Nat) : List Byte :=
  leBytes 8 (m.stamp / 65536) ++ leBytes 2 (m.stamp % 65536) ++ leBytes 1 m.chan ++ leBytes 1 m.flags ++ leBytes 2 axis
    ++ leBytes 2 m.seq ++ leInt 8 m.pos ++ leInt 8 m.vel

/-! ### Latches -/

/-- Levels at which a source counts as active for a latch (R261): rising edges need it low before, falling edges high; with both
edges either level has been inactive. -/
def inactiveFor (edge : Nat) (level : Bool) : Bool := if edge = 1 then !level else if edge = 2 then level else true

/-- The level of a latch source: a probe, or the index input of the axis's feedback unit. -/
def State.sourceLevel (s : State) (i : Fin 512) (src : Nat) : Bool :=
  match fin? 32 src with
  | some n => s.probes[n].level
  | none => match s.portOf i with
    | some p => s.fb[p].z
    | none => false

/-- An accepted `LATCH_ARM` is taken over at a release (R314, R370): unread milestones are discarded. -/
def State.takeLatch (s : State) (i : Fin 512) (k : Fin 4) : State :=
  match s.axes[i].latches[k].arming with
  | none => s
  | some (t, c) =>
    if s.now < t then s
    else
      let quiet := inactiveFor c.edge (s.sourceLevel i c.source)
      s.updLatch i k fun l =>
        { l with
          cfg := c, arming := none, armed := c.source != 0xFF, since := s.now, seenInactive := quiet, wait := []
          stones := [] }

/-- Offer an edge of a source to a latch: it is taken when the latch names the source and the edge, is armed since before the
stamp, and its input has been inactive (R261, R370). -/
def Latch.offer (l : Latch) (src : Nat) (e : PendEdge) : Latch :=
  if !l.armed || l.cfg.source != src then l
  else
    let active := l.cfg.edge == 3 || (l.cfg.edge == 1) == e.rising
    if !active then { l with seenInactive := true }
    else if l.seenInactive && decide (l.since * 65536 ≤ e.stamp) then { l with wait := l.wait ++ [e] }
    else l

/-- Offer an edge to every armed latch of an axis. -/
def State.offerAxis (s : State) (i : Fin 512) (src : Nat) (e : PendEdge) : State :=
  s.updAxis i fun a => { a with latches := a.latches.map fun l => l.offer src e }

/-- The position lies in the window of the latch (Table 11.7). -/
def LatchCfg.accepts (c : LatchCfg) (p : Int) : Bool := !bit c.flags 2 || (decide (c.lo ≤ p) && decide (p ≤ c.hi))

/-- Make the milestone of an edge (R370 to R372). -/
def State.latchStone (s : State) (i : Fin 512) (k : Fin 4) (e : PendEdge) (p v : Rat) (old : Bool) : State :=
  let l := s.axes[i].latches[k]
  let pos := toPos64 p
  if !l.armed || !l.cfg.accepts pos then s
  else
    let commanded := bit l.cfg.flags 1
    let m : Milestone :=
      { stamp := e.stamp, chan := k.val, flags := ofBools [e.rising, e.tickOnly, old, commanded], seq := l.seq, pos := pos,
        vel := toVel64 v }
    let full := decide (16 ≤ l.stones.length)
    let single := !bit l.cfg.flags 0
    let s := s.updLatch i k fun l =>
      { l with
        seq := (l.seq + 1) % 65536
        armed := !single
        wait := if single then [] else l.wait
        stones := if full then l.stones else l.stones ++ [m]
        lost := if full then satInc 32 l.lost else l.lost
        lostRead := if full then satInc 16 l.lostRead else l.lostRead }
    if bit (s.ax P.axLatchevt i) k.val then s.event evLatch i.val (m.bytes i.val) else s

/-- Complete the milestones of a latch whose sample has come (R371), oldest edge first. -/
def State.latchStones (s : State) (i : Fin 512) (k : Fin 4) : State :=
  let l := s.axes[i].latches[k]
  let h := s.samples i (bit l.cfg.flags 1)
  let ready := l.wait.takeWhile (fun e => (posAt h (stampNs e.stamp)).isSome)
  let s := s.updLatch i k fun l => { l with wait := l.wait.drop ready.length }
  ready.foldl (fun s e =>
    match posAt h (stampNs e.stamp) with
    | some (p, v, old) => s.latchStone i k e p v old
    | none => s) s

/-! ### Compares -/

def CmpCfg.fireIfPassed (c : CmpCfg) : Bool := bit c.flags 2
def CmpCfg.commanded (c : CmpCfg) : Bool := bit c.flags 3
def CmpCfg.activeLow (c : CmpCfg) : Bool := bit c.flags 4

/-- Index of an output of Table 11.9: GPIO00 to GPIO31, then the `EMU` outputs. -/
def outIdx (n : Nat) : Option (Fin 56) := if n = 0xFF then none else fin? 56 n

/-- Level of the pin of an output (R377). -/
def CmpOut.pin (o : CmpOut) : Bool := (o.level || !o.pulses.isEmpty) != o.activeLow

/-- Act on an output at an instant (R377): pulses add up, each for its own width; of two level actions at one instant that of the
lower axis, then of the lower channel, wins. -/
def CmpOut.act (o : CmpOut) (c : CmpCfg) (t : Rat) (i k : Nat) : CmpOut :=
  let o := { o with used := true, activeLow := c.activeLow }
  if c.action = 0 then { o with pulses := (i, k, (t + (c.width : Rat)).floor.toNat) :: o.pulses }
  else
    let lower (j m : Nat) : Bool := decide (j < i) || (j == i && decide (m < k))
    match o.last with
    | some (t', j, m, before) =>
      if t' = t ∧ lower j m = true then o
      else
        let base := if t' = t then before else o.level
        { o with level := if c.action = 1 then true else if c.action = 2 then false else !base, last := some (t, i, k, base) }
    | none =>
      { o with level := if c.action = 1 then true else if c.action = 2 then false else !o.level
               last := some (t, i, k, o.level) }

def State.updOut (s : State) (n : Nat) (f : CmpOut → CmpOut) : State :=
  match outIdx n with
  | some m => { s with outs := upd s.outs m f }
  | none => s

/-- Placement of an output (R375): `EMU` outputs to 78.125 ps, GPIO outputs to whole PWMCLK ticks of 2.5 ns. -/
def placeOut (output : Nat) (t : Rat) : Rat :=
  let u : Rat := if 0x20 ≤ output ∧ output ≠ 0xFF then mkRat 5 64 else mkRat 5 2
  (roundAway (t / u) : Rat) * u

/-- A channel fires at an instant (R373, R376, R377). -/
def State.fireCompare (s : State) (i : Fin 512) (k : Fin 4) (t : Rat) (late passed : Bool) : State :=
  let x := s.axes[i].compares[k]
  let s := s.updOut x.cfg.output fun o => o.act x.cfg t i.val k.val
  let more := match x.left with
    | some n => decide (1 < n)
    | none => decide (x.cfg.pitch ≠ 0)
  s.updCompare i k fun x =>
    { x with
      fired := (x.fired + 1) % 2 ^ 32
      late := late
      sched := none
      armed := more
      finished := !more
      left := x.left.map (· - 1)
      pos := if more && !passed then x.pos + x.dir * x.cfg.pitch else x.pos
      wait := x.wait ++ [(t, ofBools [false, false, false, x.cfg.commanded, passed, true, late])] }

/-- Position and velocity that a channel watches now: of the latest sample or setpoint, raw. -/
def State.cmpNow (s : State) (i : Fin 512) (commanded : Bool) : Int × Int :=
  match s.samples i commanded with
  | (_, p, v) :: _ => (p, v)
  | [] => if commanded then (s.axes[i].prof.cmdPos, s.axes[i].prof.cmdVel) else (s.actPos i, s.actVel i)

/-- p_c lies at or behind position `p` in the qualified direction (R374). -/
def Compare.isBehind (x : Compare) (p : Int) : Bool := decide (x.dir ≠ 0) && decide (x.dir * (x.pos - p) ≤ 0)

/-- The first position of a periodic channel that lies ahead of `p` (R374). -/
def firstAhead (dir pos pitch p : Int) : Int :=
  let gap := dir * (p - pos)
  if gap < 0 then pos else pos + dir * pitch * (gap / pitch + 1)

/-- The effect instant of `COMPARE_CLEAR` (R377). -/
def State.takeClear (s : State) (i : Fin 512) (k : Fin 4) : State :=
  match s.axes[i].compares[k].clearing with
    | some (t, drive) =>
      if s.now < t then s
      else
        let x := s.axes[i].compares[k]
        let s := s.updCompare i k fun x => { x with armed := false, sched := none, clearing := none }
        if drive then
          s.updOut x.cfg.output fun o =>
            { o with level := false, pulses := o.pulses.filter fun e => !(e.1 == i.val && e.2.1 == k.val) }
        else s
    | none => s

/-- The effect instant of `COMPARE_SET` (R373, R374, R376, R377). -/
def State.takeSet (s : State) (i : Fin 512) (k : Fin 4) : State :=
  match s.axes[i].compares[k].setting with
  | none => s
  | some (t, c) =>
    if s.now < t then s
    else
      let (p, v) := s.cmpNow i c.commanded
      let d := c.flags % 4
      let moving := decide (s.axF P.axStandvel i < ratAbs (ofVel64 v))
      let dir : Int := if d = 1 then 1 else if d = 2 then -1 else if moving then (if v < 0 then -1 else 1) else 0
      let s := s.updOut c.output fun o => { o with used := true, activeLow := c.activeLow }
      let s := s.updCompare i k fun x =>
        { x with
          cfg := c, setting := none, armed := true, pos := c.pos, dir := dir, prev := p, sched := none
          left := if c.pitch ≠ 0 ∧ c.count ≠ 0 then some c.count else none
          behind := false, late := false, finished := false }
      let x := s.axes[i].compares[k]
      if x.isBehind p then
        let s := if c.fireIfPassed then s.fireCompare i k s.nowRat false true
                 else s.updCompare i k fun x => { x with behind := true }
        if c.pitch = 0 then s
        else s.updCompare i k fun x => { x with pos := firstAhead x.dir x.pos c.pitch p }
      else s

/-- What waits on a channel takes effect in the order of its instants (R373, R377). -/
def State.takeCompare (s : State) (i : Fin 512) (k : Fin 4) : State :=
  match s.axes[i].compares[k].clearing, s.axes[i].compares[k].setting with
  | some (tc, _), some (ts, _) => if ts < tc then (s.takeSet i k).takeClear i k else (s.takeClear i k).takeSet i k
  | _, _ => (s.takeClear i k).takeSet i k

/-- The sample shows that p_c has been crossed (R375): it lies between the evaluation before and this one. The position that a
periodic channel has armed lay ahead when it was armed, so the sample shows its crossing once it stands at or beyond it. -/
def Compare.crossed (x : Compare) (p : Int) : Bool :=
  (decide (x.cfg.pitch ≠ 0) && x.isBehind p) ||
  (decide (0 ≤ x.dir) && decide (x.prev < x.pos) && decide (x.pos ≤ p)) ||
  (decide (x.dir ≤ 0) && decide (x.pos < x.prev) && decide (p ≤ x.pos))

/-- Evaluate a channel (R375): `tExt` the instant of the sample, `tE` the evaluation instant, `next` the next one, in ns. -/
def State.evalCompare (s : State) (i : Fin 512) (k : Fin 4) (p v : Int) (tExt tE next : Rat) : State :=
  let x := s.axes[i].compares[k]
  if !x.armed || x.sched.isSome then s
  else
    let sched (t : Rat) (late : Bool) : State :=
      s.updCompare i k fun x => { x with prev := p, sched := some (placeOut x.cfg.output t, late) }
    if x.crossed p then sched (tE + 100) true
    else
      let vq := ofVel64 v
      let gap := ofPos64 x.pos - ofPos64 p
      let ahead := decide (v ≠ 0) && decide (0 < gap * vq) && (x.dir == 0 || decide (0 < x.dir * v))
      if ahead then
        let tOut := tExt + gap / vq * 1000000000 - (s.ax P.axCmplead i : Rat)
        if tOut < next then sched (ratMax tOut (tE + 100)) false
        else s.updCompare i k fun x => { x with prev := p }
      else s.updCompare i k fun x => { x with prev := p }

/-- Evaluate every channel of an axis that watches the kind of position just sampled. -/
def State.evalCompares (s : State) (i : Fin 512) (setpoints : Bool) (p v : Int) (tExt tE next : Rat) : State :=
  let onSetpoints (x : Compare) : Bool :=
    x.cfg.commanded || s.isVirtual i || s.isNet i || (s.isLocal i && s.ax P.axFbmode i == 0)
  fin4s.foldl (fun s k =>
    if onSetpoints (s.axes[i].compares[k]) == setpoints then s.evalCompare i k p v tExt tE next else s) s

/-- Complete the milestones of firings whose sample has come (R371, R377). -/
def State.compareStones (s : State) (i : Fin 512) (k : Fin 4) : State :=
  let x := s.axes[i].compares[k]
  let h := s.samples i x.cfg.commanded
  let ready := x.wait.takeWhile (fun e => (posAt h e.1).isSome)
  let s := s.updCompare i k fun x => { x with wait := x.wait.drop ready.length }
  ready.foldl (fun s e =>
    match posAt h e.1 with
    | some (p, v, old) =>
      let x := s.axes[i].compares[k]
      let m : Milestone :=
        { stamp := nsStamp e.1, chan := k.val, flags := e.2 + (if old then 4 else 0), seq := x.seq, pos := toPos64 p,
          vel := toVel64 v }
      let s := s.updCompare i k fun x => { x with seq := (x.seq + 1) % 65536 }
      if bit (s.ax P.axLatchevt i) (4 + k.val) then s.event evLatch i.val (m.bytes i.val) else s
    | none => s) s

/-- Complete what the newest sample of an axis completes. -/
def State.stones (s : State) (i : Fin 512) : State :=
  let s := fin4s.foldl (fun s k => s.latchStones i k) s
  fin4s.foldl (fun s k => s.compareStones i k) s

/-- A scheduled output acts (R375), not before the ns of its instant. -/
def execCompareOutputFire (i : Fin 512) (k : Fin 4) (s : State) : Out :=
  s.main
    (let x := s.axes[i].compares[k]
     match x.sched with
     | some (t, late) => if x.armed ∧ t.floor.toNat ≤ s.now then s.fireCompare i k t late false else s
     | none => s)

/-- The width of a pulse has elapsed (R377): the pulses of the channel that end by now. -/
def execComparePulseEnd (i : Fin 512) (k : Fin 4) (s : State) : Out :=
  s.main ({ s with outs := s.outs.map fun o =>
    { o with pulses := o.pulses.filter fun e => !(e.1 == i.val && e.2.1 == k.val && decide (e.2.2 ≤ s.now)) } })

/-! ### Commands -/

/-- The bound axis of a packet, not retired (R26, Table 1.7). -/
def State.target (s : State) (p : Packet) : Check (Fin 512) :=
  match p.axis? with
  | some i => do
    need (s.bound i) .badTarget 0
    return i
  | none => .error (.badTarget, 0)

def State.notRetired (s : State) (i : Fin 512) : Check Unit := need (s.axes[i].st != .retired) .retired 0

def channel (p : Packet) : Check (Fin 4) :=
  match fin? 4 (u8 p.args 0) with
  | some k => .ok k
  | none => .error (.range, 0)

/-- Effect instant of a command (R92, R314). -/
def State.effect (s : State) (t : Instant) : Nat := (t.map (·.1)).getD s.now

/-- `DV.PRBEDGE` records the edges a latch asks for (R370). -/
def State.probeRecords (s : State) (n edge : Nat) : Bool :=
  let e := s.dv P.dvPrbedge / 256 ^ n % 256
  e % 4 &&& edge == edge

/-- `LATCH_ARM` (R370, Table 11.7). -/
def opLatchArm (t : Instant) (p : Packet) (s : State) : HRes :=
  .ofCheck s do
    need (p.args.length == 24) .badLength 0x0004
    let i ← s.target p
    let k ← channel p
    let src := u8 p.args 1
    let edge := u8 p.args 2
    let fl := u8 p.args 3
    let off := src == 0xFF
    need (rsvZero p.args 4 4 && decide (fl < 8) && (decide (src < 32) || src == 0x40 || off)
      && decide (1 ≤ edge) && decide (edge ≤ 3)) .range 0
    need (off || src != 0x40 || edge == 1) .range 0
    need (off || !bit fl 2 || decide (i64 p.args 8 < i64 p.args 16)) .range 0
    s.notRetired i
    need (off || src == 0x40 || s.probeRecords src edge) .range 0x0101
    let c : LatchCfg := { source := src, edge := edge, flags := fl, lo := i64 p.args 8, hi := i64 p.args 16 }
    return .ok (s.updLatch i k fun l => { l with arming := some (s.effect t, c) })

/-- `LATCH_READ` (R372). -/
def opLatchRead (_ : Instant) (p : Packet) (s : State) : HRes :=
  .ofCheck s do
    need (p.args.length == 4) .badLength 0x0004
    let i ← s.target p
    let k ← channel p
    let n := u8 p.args 1
    need (rsvZero p.args 2 2 && decide (1 ≤ n) && decide (n ≤ 16)) .range 0
    let l := s.axes[i].latches[k]
    let out := l.stones.take n
    let s := s.updLatch i k fun l => { l with stones := l.stones.drop n, lostRead := 0 }
    return .okBody s (leBytes 1 k.val ++ leBytes 1 out.length ++ leBytes 2 l.lostRead
      ++ out.flatMap fun m => m.bytes i.val)

/-- Channels armed or about to be (R377), one left out. -/
def State.armedCompares (s : State) (i : Fin 512) (k : Fin 4) : Nat :=
  (allAxes.map fun j => (fin4s.filter fun m =>
    !(j == i && m == k) && (s.axes[j].compares[m].armed || s.axes[j].compares[m].setting.isSome)).length).foldl (· + ·) 0

/-- `COMPARE_SET` (R373 to R377, Table 11.9). -/
def opCompareSet (t : Instant) (p : Packet) (s : State) : HRes :=
  .ofCheck s do
    need (p.args.length == 32) .badLength 0x0004
    let i ← s.target p
    let k ← channel p
    let c : CmpCfg :=
      { output := u8 p.args 1, action := u8 p.args 2, flags := u8 p.args 3, width := u32 p.args 4, pos := i64 p.args 8,
        pitch := i64 p.args 16, count := u32 p.args 24 }
    need (rsvZero p.args 28 4 && decide (c.flags < 32) && c.flags % 4 != 3 && decide (c.action < 4)
      && (decide (c.output < 56) || c.output == 0xFF) && decide (0 ≤ c.pitch)
      && (decide (c.pitch ≠ 0) || c.count == 0)) .range 0
    need (if c.action = 0 then decide (20 ≤ c.width) && decide (c.width ≤ 1000000000) else c.width == 0) .range 0
    s.notRetired i
    let (_, v) := s.cmpNow i c.commanded
    let moving := decide (s.axF P.axStandvel i < ratAbs (ofVel64 v))
    need (decide (c.pitch = 0) || c.flags % 4 != 0 || moving) .range 0x0103
    need (decide (c.output < 0x20) || c.output == 0xFF || s.dv P.dvEmuMode ((c.output - 0x20) / 3) == 3) .state 0x000E
    need (decide (s.armedCompares i k < 32)) .busy 0x0101
    return .ok (s.updCompare i k fun x => { x with setting := some (s.effect t, c) })

/-- `COMPARE_CLEAR` (R377). -/
def opCompareClear (t : Instant) (p : Packet) (s : State) : HRes :=
  .ofCheck s do
    need (p.args.length == 4) .badLength 0x0004
    let i ← s.target p
    let ch := u8 p.args 0
    need ((decide (ch < 4) || ch == 0xFF) && decide (u8 p.args 1 < 2) && rsvZero p.args 2 2) .range 0
    s.notRetired i
    let drive := bit (u8 p.args 1) 0
    return .ok (fin4s.foldl (fun s k =>
      if ch = 0xFF ∨ k.val = ch then
        s.updCompare i k fun x =>
          { x with clearing := some (s.effect t, drive)
                   setting := x.setting.filter fun w => w.1 != s.effect t }
      else s) s)

end Sys2Proof.Machine
end

