-- ==== Sys2Proof/Machine/Coord.lean ====
section
/-!
DEFINITION. Motion sources evaluated at an instant: masters, gearing, cams, paths (R349 to R366) and following (R339).
Positions are in counts, instants in ns.
-/
namespace Sys2Proof.Machine

/-- A motion state: position, velocity, acceleration. -/
abbrev PVA := Rat × Rat × Rat

/-! ### Masters (R349 to R351) -/

/-- The master of an axis on this device. -/
def State.localMaster (s : State) (i : Fin 512) : Option (Fin 512) :=
  if s.ax P.axMasterpath i = 0 then fin? 512 (s.ax P.axMaster i) else none

/-- A master is configured (Table 11.6). -/
def State.hasMaster (s : State) (i : Fin 512) : Bool := s.ax P.axMaster i != 0xFFFF

/-- Commanded position of an axis at an instant (R350). -/
def State.commandedAt (s : State) (j : Fin 512) (t : Rat) : PVA := (s.setpoint j).at t

/-- Actual position of an axis at an instant (R308, R350). -/
def State.actualAt (s : State) (j : Fin 512) (t : Rat) : PVA :=
  if s.isLocal j && s.ax P.axFbmode j != 0 then
    match s.portOf j with
    | some p =>
      let f := s.fb[p]
      let v := ofVel64 f.vk
      (ofPos64 f.pk + v * ((t - (f.lastExt : Rat)) / 1000000000), v, 0)
    | none => s.commandedAt j t
  else if s.isNet j then
    let n := s.axes[j].net
    let v := ofVel64 n.vel
    (ofPos64 n.pos + n.offset + v * ((t - (n.t : Rat)) / 1000000000), v, 0)
  else s.commandedAt j t

/-- m, v_m and a_m at an instant (R350). A remote master is taken from its Jalut image. -/
def State.masterAt (s : State) (i : Fin 512) (t : Rat) : Option PVA :=
  if !s.hasMaster i then none
  else
    match s.localMaster i with
    | some j => some (if s.ax P.axMastersrc i = 1 then s.actualAt j t else s.commandedAt j t)
    | none => s.axes[i].coord.remote.map fun (ts, p, v, a, _) =>
        let r := extrapolate ts (ofPos64 p) (ofVel64 v) (ofVel64 a) t
        (r.1, r.2, ofVel64 a)

/-- The master's setpoints are overdue (R351, R292). -/
def State.masterOverdue (s : State) (i : Fin 512) : Bool :=
  match s.localMaster i with
  | some j => decide (s.axes[j].prof.relT + (((s.ax P.axStalemax i + 1) * s.spPeriod j : Nat) : Rat) < (s.now : Rat))
  | none => match s.axes[i].coord.remote with
    | some (_, _, _, _, arr) => decide (arr + (s.ax P.axStalemax i + 1) * s.tj < s.now)
    | none => s.hasMaster i

/-! ### Limits of a motion (R313, R318) -/

/-- `REGEN_LIMIT` as the axis sees it (R318). -/
def State.axisRegen (s : State) (i : Fin 512) : Bool :=
  match s.axisBus i with
  | some b => (s.buses[b]).regenOv2 || (s.buses[b]).full ||
      [0x0605, 0x0606, 0x0607, 0x0608].any (fun c => s.activeFault c .bus b.val)
  | none => s.isNet i && s.axes[i].net.regen

/-- The factor of R318. -/
def State.regenFactor (s : State) (i : Fin 512) : Rat :=
  if s.axisRegen i then
    match s.axisBus i with
    | some b => s.dvF P.dvDcbRegenlim b.val
    | none => s.dvF P.dvDcbRegenlim (Config.netRegenBus i.val).val
  else 1

/-- The bands of a motion with the overrides of its command; `vt` is the target velocity of `MOVE_VEL`, 0 for none (R313). -/
def State.bands (s : State) (i : Fin 512) (vt : Rat) : Bands :=
  let p := s.axes[i].prof
  let k := s.regenFactor i
  let vmax := if p.vmax = 0 then s.axVel P.axVmax i else ofVel64 p.vmax
  let cap := if vt = 0 then vmax else ratMin vmax (ratAbs vt)
  { vstart := ratMin (s.axVel P.axVstart i) cap
    vstop := ratMin (s.axVel P.axVstop i) cap
    v1 := s.axVel P.axV1 i
    a1 := s.axVel P.axA1 i
    amax := if p.amax = 0 then s.axVel P.axAmax i else ofVel64 p.amax
    dmax := k * (if p.dmax = 0 then s.axVel P.axDmax i else ofVel64 p.dmax)
    d1 := k * s.axVel P.axD1 i
    qstop := k * s.axVel P.axQstopdec i
    vmax := vmax }

/-- The bands of homing at speed `v` (R342, R318). -/
def State.homeBands (s : State) (i : Fin 512) (v : Rat) : Bands :=
  let a := s.axVel P.axHomeacc i
  let k := s.regenFactor i
  { vstart := ratMin (s.axVel P.axVstart i) v, vstop := ratMin (s.axVel P.axVstop i) v, v1 := 0, a1 := a, amax := a,
    dmax := k * a, d1 := k * a, qstop := k * a, vmax := v }

/-! ### Gearing (R353 to R358) -/

def clamp01 (q : Rat) : Rat := ratClamp 0 1 q

/-- s(u) = 3u² − 2u³ and its first two derivatives. -/
def blendS (u : Rat) : Rat := 3 * u * u - 2 * u * u * u
def blendS1 (u : Rat) : Rat := 6 * u - 6 * u * u
def blendS2 (u : Rat) : Rat := 6 - 12 * u

def Gear.ratio (g : Gear) : Rat := if g.den = 0 then 0 else (g.num : Rat) / (g.den : Rat)

/-- u of R356. -/
def blendU (m m0 l : Rat) : Rat := if l = 0 then 1 else clamp01 ((m - m0) / l)

/-- The offset that a mode 2 blend adds (R357): position, velocity, acceleration. -/
def Gear.offsetAt (g : Gear) (m : PVA) : PVA :=
  match g.blend with
  | none => (0, 0, 0)
  | some (d, m0, l) =>
    let u := blendU m.1 m0 l
    let k := m.2.1 / l
    if 0 < u ∧ u < 1 then
      (d * blendS u, d * blendS1 u * k, d * (blendS2 u * k * k + blendS1 u * m.2.2 / l))
    else (d * blendS u, 0, 0)

/-- A locked gearing, or the distance coupling of R356. -/
def Gear.at (g : Gear) (m : PVA) : PVA :=
  match g.phase with
  | .dist p0 m0 r0 r l =>
    let x := m.1 - m0
    let u := blendU m.1 m0 l
    let k := r0 + (r - r0) * u
    (p0 + r0 * x + (r - r0) * (x * u - l * u * u / 2), k * m.2.1,
      k * m.2.2 + (if 0 < u ∧ u < 1 then (r - r0) * m.2.1 * m.2.1 / l else 0))
  | _ =>
    let o := g.offsetAt m
    let r := g.ratio
    (g.pL + (m.1 - g.mL) * r + o.1, r * m.2.1 + o.2.1, r * m.2.2 + o.2.2)

/-! ### Cams (R359 to R362) -/

def camPoints (c : List Byte) : Nat := u32 c 0
def camPeriodic (c : List Byte) : Bool := bit (u32 c 4) 0
def camX (c : List Byte) (i : Nat) : Rat := ofPos64 (i64 c (16 + 24 * i))
def camY (c : List Byte) (i : Nat) : Rat := ofPos64 (i64 c (24 + 24 * i))
def camM (c : List Byte) (i : Nat) : Rat := fpToRat (fp c (32 + 24 * i))
def camCubic (c : List Byte) (i : Nat) : Bool := u8 c (36 + 24 * i) == 1

/-- The segment that holds x′: the last point at or before it, at most the last but one. -/
def camSeg (c : List Byte) (x : Rat) : Nat → Nat
  | 0 => 0
  | i + 1 => if camX c (i + 1) ≤ x ∧ i + 2 < camPoints c then i + 1 else camSeg c x i

/-- Hermite form of R360 on h, y_i, m_i, y_{i+1}, m_{i+1} at w: value and the first two derivatives by x. -/
def hermite (h y0 m0 y1 m1 w : Rat) : PVA :=
  let w2 := w * w
  let w3 := w2 * w
  ((2 * w3 - 3 * w2 + 1) * y0 + (w3 - 2 * w2 + w) * h * m0 + (-2 * w3 + 3 * w2) * y1 + (w3 - w2) * h * m1,
   ((6 * w2 - 6 * w) * y0 + (-6 * w2 + 6 * w) * y1) / h + (3 * w2 - 4 * w + 1) * m0 + (3 * w2 - 2 * w) * m1,
   ((12 * w - 6) * y0 + (-12 * w + 6) * y1) / (h * h) + ((6 * w - 4) * m0 + (6 * w - 2) * m1) / h)

/-- Y and its derivatives by x at master distance x (R360). -/
def camEval (c : List Byte) (x : Rat) : PVA :=
  let n := camPoints c
  let last := n - 1
  let xl := camX c last
  let j : Int := if camPeriodic c ∧ xl ≠ 0 then (x / xl).floor else 0
  let x' := if camPeriodic c then x - j * xl else ratClamp 0 xl x
  let i := camSeg c x' last
  let h := camX c (i + 1) - camX c i
  let w := if h = 0 then 0 else (x' - camX c i) / h
  let base := (j : Rat) * (camY c last - camY c 0)
  let r : PVA :=
    if camCubic c i then hermite h (camY c i) (camM c i) (camY c (i + 1)) (camM c (i + 1)) w
    else (camY c i + w * (camY c (i + 1) - camY c i), if h = 0 then 0 else (camY c (i + 1) - camY c i) / h, 0)
  let out := !camPeriodic c && (decide (x < 0) || decide (xl < x))
  (base + r.1, if out then 0 else r.2.1, if out then 0 else r.2.2)

/-- The cam table in use. -/
def State.camTable (s : State) (n : Fin 64) : List Byte := (assocGet? s.tables.cams n.val).getD []

/-- u of a cam blend (R361): `AX.CAMBLEND` = 0 makes it at once. -/
def camU (blend m m0 : Rat) : Rat := if blend = 0 then 1 else ratMin 1 (ratAbs (m - m0) / blend)

/-- φ and o in force at master position m (R361). -/
def CamRun.phiAt (c : CamRun) (blend m : Rat) : Rat :=
  c.phi + (match c.phaseShift with | some (d, m0) => d * blendS (camU blend m m0) | none => 0)

def CamRun.offAt (c : CamRun) (blend m : Rat) : Rat :=
  c.off + (match c.offShift with | some (d, m0) => d * blendS (camU blend m m0) | none => 0)

/-- The cam source at a master state (R360, R361). -/
def CamRun.at (c : CamRun) (tbl : List Byte) (blend : Rat) (m : PVA) : PVA :=
  let y := camEval tbl (m.1 - c.phiAt blend m.1)
  let g := match c.gap with
    | some (g, m0) => g * (1 - blendS (camU blend m.1 m0))
    | none => 0
  (y.1 + c.offAt blend m.1 + g, y.2.1 * m.2.1, y.2.2 * m.2.1 * m.2.1 + y.2.1 * m.2.2)

/-- A blend whose u is still below 1 at master position m. -/
def blendRuns (blend m : Rat) (x : Option (Rat × Rat)) : Bool :=
  match x with
  | some (_, m0) => decide (camU blend m m0 < 1)
  | none => false

/-- A blend of the cam is in progress. -/
def CamRun.blending (c : CamRun) (blend m : Rat) : Bool :=
  blendRuns blend m c.gap || blendRuns blend m c.phaseShift || blendRuns blend m c.offShift

/-- Merge the blends whose u has reached 1 (R361). -/
def CamRun.settle (c : CamRun) (blend m : Rat) : CamRun :=
  { c with
    gap := if blendRuns blend m c.gap then c.gap else none
    phi := if blendRuns blend m c.phaseShift then c.phi else c.phiAt blend m
    phaseShift := if blendRuns blend m c.phaseShift then c.phaseShift else none
    off := if blendRuns blend m c.offShift then c.off else c.offAt blend m
    offShift := if blendRuns blend m c.offShift then c.offShift else none }

/-- The blend that a `CAM_ENGAGE` of a mode waits for is over, and a `ONE_SHOT` cam has not its end to reach (R362). -/
def CamRun.settled (c : CamRun) (mode : Nat) : Bool :=
  if mode = 0 then c.gap.isNone && !c.oneShot else if mode = 1 then c.phaseShift.isNone else c.offShift.isNone

/-! ### Paths (R363 to R366) -/

/-- Position of member `j` on a path at instant `t`; whether the `END` segment has been passed, whether the path is starved
(R364, R366). -/
def pathSegs (j : Nat) (t : Rat) (tA : Nat) (pA vA : Rat) : List PathSeg → PVA × Bool × Bool
  | [] => ((pA, vA, 0), false, decide ((tA : Rat) < t))
  | g :: rest =>
    let e := g.ends.getD j (0, 0)
    let pB := ofPos64 e.1
    let h := ((g.tEnd : Rat) - (tA : Rat)) / 1000000000
    let vB := if g.cubic then ofVel64 e.2 else if h = 0 then 0 else (pB - pA) / h
    if t < (g.tEnd : Rat) then
      let w := if h = 0 then 0 else (t - (tA : Rat)) / 1000000000 / h
      ((if g.cubic then hermite h pA vA pB vB w
        else (pA + w * (pB - pA), if h = 0 then 0 else (pB - pA) / h, 0)), false, false)
    else if g.last then ((pB, 0, 0), true, false)
    else pathSegs j t g.tEnd pB vB rest

/-- The path at an instant, for member `j`. -/
def PathRun.at (r : PathRun) (j : Nat) (t : Rat) : PVA × Bool × Bool :=
  let p0 := r.start.getD j (0, 0)
  match r.tStart with
  | none => ((p0.1, 0, 0), false, false)
  | some t0 => if t < (t0 : Rat) then ((p0.1, 0, 0), false, false) else pathSegs j t t0 p0.1 p0.2 r.segs

/-- Drop the first segment, which every member has passed: its end is the start of the next. -/
def PathRun.drop (r : PathRun) : PathRun :=
  match r.segs, r.tStart with
  | g :: rest, some t0 =>
    let h : Rat := ((g.tEnd : Rat) - (t0 : Rat)) / 1000000000
    { r with
      tStart := some g.tEnd, segs := rest
      start := (r.start.zip g.ends).map fun (p, e) =>
        (ofPos64 e.1, if g.cubic then ofVel64 e.2 else if h = 0 then 0 else (ofPos64 e.1 - p.1) / h) }
  | _, _ => r

/-- Free entries of the queue of 1,024 segments (R363). -/
def PathRun.free (r : PathRun) : Nat := 1024 - r.segs.length

/-! ### Following (R339) -/

/-- The port whose unit decodes the step source of an axis. -/
def State.stepSource (s : State) (i : Fin 512) : Option (Fin 64) :=
  if s.isLocal i then fin? 64 (s.ax P.axStepsrcport i) else none

/-- r of R339. -/
def State.followRatio (s : State) (i : Fin 512) : Rat := (s.ax P.axStepfnum i : Rat) / (s.ax P.axStepfden i : Rat)

/-- Source count and velocity. -/
def State.sourceAt (s : State) (i : Fin 512) : Rat × Rat :=
  match s.stepSource i with
  | some p => ((s.fb[p].count : Rat), s.fb[p].v)
  | none => (0, 0)

/-! ### The present source -/

/-- A velocity ramp from the release before towards `w`, as it stands at instant `t` (R315, R339, R355): the state and whether the
ramp has reached `w`. -/
def State.rampAt (s : State) (i : Fin 512) (w t : Rat) : PVA × Bool :=
  let p := s.axes[i].prof
  let pl := (s.bands i w).velocity (.velocity w) p.relT p.relP p.relV w false
  (pl.at t, pl.ended t)

/-- Index of an axis in a path. -/
def PathRun.index (r : PathRun) (i : Fin 512) : Nat := r.members.idxOf i.val

/-- The path an axis moves on: its leader's. -/
def State.pathOf (s : State) (i : Fin 512) : Option (Fin 512 × PathRun) :=
  match s.axes[i].coord.pathLeader.bind (fin? 512) with
  | some l => s.axes[l].coord.path.map fun r => (l, r)
  | none => none

/-- The motion source of an axis at instant `t`. -/
def State.sourceState (s : State) (i : Fin 512) (t : Rat) : PVA :=
  let a := s.axes[i]
  let held : PVA := (ofPos64 a.prof.cmdPos, 0, 0)
  match a.prof.source with
  | .none => held
  | .profile | .homing => a.prof.plan.at t
  | .follow =>
    let (c, v) := s.sourceAt i
    let r := s.followRatio i
    if a.prof.locked then (a.prof.followP0 + (((c - a.prof.followC0) * r).floor : Rat), r * v, 0)
    else (s.rampAt i (r * v) t).1
  | .gear =>
    match a.coord.gear, s.masterAt i t with
    | some g, some m => match g.phase with
      | .ramp => (s.rampAt i (g.ratio * m.2.1) t).1
      | _ => g.at m
    | _, _ => held
  | .cam =>
    match a.coord.cam, s.masterAt i t with
    | some c, some m => c.at (s.camTable c.cam) (s.ax P.axCamblend i : Rat) m
    | _, _ => held
  | .path =>
    match s.pathOf i with
    | some (_, r) => (r.at (r.index i) t).1
    | none => held
  | .net =>
    match a.net.owned with
    | some (t0, p, v, ac) =>
      let r := extrapolate t0 (ofPos64 p) (ofVel64 v) (ofVel64 ac) t
      (r.1, r.2, ofVel64 ac)
    | none => held

end Sys2Proof.Machine
end

