-- ==== Sys2Proof/Machine/Motion.lean ====
section
/-!
DEFINITION. The setpoint task of an axis (R311 to R324, R339 to R347, R353 to R368): takeover of commands, the motion sources,
the homing sequencer, and standstill (R303).
-/
namespace Sys2Proof.Machine

/-! ### Supervision shared by all binding kinds (R305, R306) -/

/-- Overspeed at two consecutive releases (R305). -/
def State.superviseSpeed (s : State) (i : Fin 512) (v : Rat) : State :=
  let beyond := decide (s.axF P.axVmaxtrip i < ratAbs v)
  let n := if beyond then s.axes[i].pos.overspeed + 1 else 0
  let s := s.updAxis i fun a => { a with pos := { a.pos with overspeed := n } }
  if 2 ≤ n then s.raiseAxis i 0x0403 4 else s

/-- Software limits, on entry beyond one (R306). -/
def State.superviseSw (s : State) (i : Fin 512) (p : Rat) : State :=
  let side := if s.axPos P.axSwlimpos i < p then 1 else if p < s.axPos P.axSwlimneg i then 2 else 0
  let was := s.axes[i].pos.sw
  let s := s.updAxis i fun a => { a with pos := { a.pos with sw := side } }
  if side ≠ 0 ∧ was = 0 then s.raiseAxis i 0x0408 (s.ax P.axSwlimclass i) side else s

/-! ### Ends of motions -/

/-- Mark the command in progress complete (R323). -/
def State.motionDone (s : State) (i : Fin 512) (st : Status) (det : Nat) : State :=
  match s.axes[i].prof.cur with
  | none => s
  | some m => (s.finishMotion i m st det).updProf i fun p => { p with cur := some { m with done := true } }

/-- The command in progress completes; one that still waits for its engage instant (R354) does not. -/
def State.ownDone (s : State) (i : Fin 512) : State :=
  if s.axes[i].coord.wait.isSome then s else s.motionDone i .done 0

/-- The axis comes to rest in `ENABLED_IDLE`: the command in progress ends `DONE` (Table 1.9). -/
def State.motionIdle (s : State) (i : Fin 512) : State :=
  (s.motionDone i .done 0).updAxis i fun a =>
    { a with
      st := .enabledIdle
      prof := { a.prof with cur := none, source := .none, positioning := false, locked := false, idle := false, plan := {},
                            cmdVel := 0, cmdAcc := 0 }
      coord := { a.coord with wait := none, gear := none, cam := none, pathLeader := none }
      stop := .none, stopNew := false, stopForFault := false, handling := 0 }

/-- The axis stays `MOVING` on a stop plan and enters `ENABLED_IDLE` at standstill (R358, R351, R366). -/
def State.planStop (s : State) (i : Fin 512) (quick : Bool) (t : Rat) (x : PVA) : State :=
  let b := s.bands i 0
  let pl := b.stop (if quick then .quick else .controlled) quick t x.1 x.2.1 (s.axisRegen i)
  s.updAxis i fun a =>
    { a with
      prof := { a.prof with source := .profile, plan := pl, positioning := false, locked := false, idle := true }
      coord := { a.coord with wait := none, gear := none, cam := none, pathLeader := none } }

/-- End a path for every member (R366): the path's completion and every member's `MOTION_DONE` carry `det`; members other than
`i` that still move take a stop. -/
def State.endPath (s : State) (l i : Fin 512) (quick : Bool) (det : Nat) : State :=
  match s.axes[l].coord.path with
  | none => s
  | some r =>
    let t := s.nowRat
    let s := r.members.foldl (fun s m =>
      match fin? 512 m with
      | none => s
      | some j =>
        if s.axes[j].coord.pathLeader ≠ some l.val then s
        else
          let x := (r.at (r.index j) t).1
          let s := s.motionDone j .aborted det
          let s := s.updAxis j fun a => { a with coord := { a.coord with starved := a.coord.starved || det == 0x0106 } }
          if j = i ∨ s.axes[j].st ≠ .moving then
            s.updAxis j fun a => { a with coord := { a.coord with pathLeader := none } }
          else s.planStop j quick t x) s
    s.updAxis l fun a => { a with coord := { a.coord with path := none } }

/-- A path whose member has left it for another reason ends for the others too (R366). -/
def State.leavePath (s : State) (i : Fin 512) (det : Nat) : State :=
  match s.axes[i].coord.pathLeader.bind (fin? 512) with
  | some l => s.endPath l i true det
  | none => s

/-! ### Takeover (R314 to R321, R354 to R362) -/

/-- The generator starts a plan. -/
def State.setPlan (s : State) (i : Fin 512) (src : MSource) (pl : Plan) : State :=
  s.updProf i fun p => { p with source := src, plan := pl }

/-- The ratio in force of a gearing (R356, R358). -/
def State.presentRatio (s : State) (i : Fin 512) (m : PVA) (v : Rat) : Rat :=
  match s.axes[i].coord.gear with
  | none => 0
  | some g => match g.phase with
    | .locked => g.ratio
    | .dist _ m0 r0 r l => r0 + (r - r0) * blendU m.1 m0 l
    | .ramp => if m.2.1 = 0 then 0 else v / m.2.1

/-- Engage gearing at master state `m` and slave state `x` at instant `t` (R355 to R358). -/
def State.engageGear (s : State) (i : Fin 512) (g : GearCmd) (t : Rat) (m x : PVA) : State :=
  let r : Rat := if g.den = 0 then 0 else (g.num : Rat) / (g.den : Rat)
  match g.mode with
  | 0 =>
    s.updAxis i fun a =>
      { a with
        prof := { a.prof with source := .gear, relT := t, relP := x.1, relV := x.2.1 }
        coord := { a.coord with cam := none, gear := some { num := g.num, den := g.den, phase := .ramp } } }
  | 1 =>
    let r0 := s.presentRatio i m x.2.1
    s.updAxis i fun a =>
      { a with
        prof := { a.prof with source := .gear }
        coord := { a.coord with
          cam := none
          gear := some { num := g.num, den := g.den, phase := .dist x.1 m.1 r0 r g.len } } }
  | _ =>
    s.updAxis i fun a =>
      { a with coord := { a.coord with
          gear := a.coord.gear.map fun h =>
            { h with pL := h.pL + (h.offsetAt m).1, blend := some (ofPos64 g.offset, m.1, g.len) } } }

/-- Engage or shift a cam (R361). -/
def State.engageCam (s : State) (i : Fin 512) (c : CamCmd) (m x : PVA) : State :=
  let blend : Rat := s.ax P.axCamblend i
  match c.mode with
  | 0 =>
    let phi := ofPos64 c.phase
    let y := (camEval (s.camTable c.cam) (m.1 - phi)).1
    let off := if c.relative then x.1 - y else ofPos64 c.offset
    let gap := x.1 - (y + off)
    s.updAxis i fun a =>
      { a with
        prof := { a.prof with source := .cam }
        coord := { a.coord with
          gear := none
          cam := some { cam := c.cam, phi := phi, off := off, oneShot := c.oneShot
                        gap := if gap = 0 ∨ blend = 0 then none else some (gap, m.1) } } }
  | 1 =>
    s.updAxis i fun a => { a with coord := { a.coord with
      cam := a.coord.cam.map fun k => { k with phi := k.phiAt blend m.1, phaseShift := some (ofPos64 c.phase, m.1) } } }
  | _ =>
    s.updAxis i fun a => { a with coord := { a.coord with
      cam := a.coord.cam.map fun k => { k with off := k.offAt blend m.1, offShift := some (ofPos64 c.offset, m.1) } } }

/-- The part of a coordination command that acts at the engage instant (R354). -/
def State.engage (s : State) (i : Fin 512) (k : MotionKind) (t : Rat) (m x : PVA) : State :=
  let s := s.updAxis i fun a => { a with coord := { a.coord with wait := none } }
  match k with
  | .gear g => s.engageGear i g t m x
  | .release 3 _ len =>
    s.engageGear i { num := 0, den := 1, mode := 1, at_ := none, len := len, offset := 0 } t m x
  | .release 2 _ _ =>
    let b := s.bands i x.2.1
    (s.setPlan i .profile (b.velocity (.velocity x.2.1) t x.1 x.2.1 x.2.1 (s.axisRegen i))).updAxis i fun a =>
      { a with coord := { a.coord with gear := none, cam := none } }
  | .release n _ _ => s.planStop i (n == 1) t x
  | .cam c => s.engageCam i c m x
  | _ => s

/-- The master position a command waits for (R354); the shifts of a cam run from takeover (R361). -/
def MotionKind.atMaster : MotionKind → Option AtMaster
  | .gear g => g.at_
  | .release _ a _ => a
  | .cam c => if c.mode = 0 then c.at_ else none
  | _ => none

/-- A command leaves the gearing or cam in force untouched until it engages. -/
def MotionKind.coordinates : MotionKind → Bool
  | .gear _ | .release _ _ _ | .cam _ => true
  | _ => false

/-- Take a motion command over at instant `t` from motion state `x` (R314 to R321, R354). A command that waits for `m_start` on a
member of a path ends the path (R366), so the member stops like the others. -/
def State.takeOver (s : State) (i : Fin 512) (m : MotionCmd) (t : Rat) (x : PVA) : State :=
  let base := if s.axes[i].prof.positioning then ofPos64 s.axes[i].prof.target else x.1
  let s := if m.kind = .path then s else s.leavePath i 0x0101
  let s := s.finishMotion? i (s.axes[i].prof.cur) .aborted 0x0101
  let scaled := s.axisRegen i
  let m := { m with tookOver := if m.timed then m.at_ else s.now }
  let s := s.updAxis i fun a =>
    { a with
      prof := { a.prof with
        cur := some m, next := none, vmax := m.vmax, amax := m.amax, dmax := m.dmax, positioning := false
        locked := m.kind.coordinates && a.prof.locked
        switchback := false, regenScaled := scaled, caught := a.step.caught.isSome, refSet := false, idle := false }
      step := { a.step with caught := none, coasting := false }
      coord := { a.coord with
        wait := none, starved := false
        gear := if m.kind.coordinates then a.coord.gear else none
        cam := if m.kind.coordinates then a.coord.cam else none
        pathLeader := if m.kind = .path then a.coord.pathLeader else none } }
  let move (target : Rat) : State :=
    (s.setPlan i .profile ((s.bands i 0).move (.move target) t x.1 x.2.1 target scaled)).updProf i fun p =>
      { p with positioning := true, target := toPos64 target }
  match m.kind with
  | .absolute target => move (ofPos64 target)
  | .relative d fromCmd => move ((if fromCmd then x.1 else base) + ofPos64 d)
  | .velocity v =>
    let w := ofVel64 v
    s.setPlan i .profile ((s.bands i w).velocity (.velocity w) t x.1 x.2.1 w scaled)
  | .follow => s.updProf i fun p => { p with source := .follow, relT := t, relP := x.1, relV := x.2.1 }
  | .path =>
    s.updAxis i fun a => { a with
      prof := { a.prof with source := .path }
      coord := { a.coord with
        path := a.coord.path.map fun r => if r.tStart.isNone then { r with tStart := some t.floor.toNat } else r } }
  | .home _ _ | .stop _ => s
  | k =>
    match s.masterAt i t with
    | none => s.engage i k t (0, 0, 0) x
    | some mm =>
      if k.atMaster.isSome then
        let keep : State :=
          if s.axes[i].prof.source = .none then s.setPlan i .profile (Plan.holdAt t x.1)
          else if s.axes[i].prof.source = .path then
            s.setPlan i .profile ((s.bands i 0).stop .quick true t x.1 x.2.1 scaled)
          else s
        keep.updAxis i fun a => { a with coord := { a.coord with wait := some (m, mm.1) } }
      else s.engage i k t mm x

/-- A command that waits for `m_start` (R354): engages at the crossing between the release before and this one. -/
def State.checkWait (s : State) (i : Fin 512) (t : Rat) : State :=
  match s.axes[i].coord.wait, s.masterAt i t with
  | some (m, prev), some mm =>
    match m.kind.atMaster with
    | none => s
    | some at_ =>
      let ms := ofPos64 at_.pos
      let hit := if at_.negative then decide (ms < prev) && decide (mm.1 ≤ ms) else decide (prev < ms) && decide (ms ≤ mm.1)
      if hit then
        let x := s.sourceState i t
        let f := if mm.1 = prev then 0 else (ms - prev) / (mm.1 - prev)
        let p := s.axes[i].prof
        let tc := p.relT + f * (t - p.relT)
        let x0 : PVA := (p.relP + f * (x.1 - p.relP), p.relV + f * (x.2.1 - p.relV), x.2.2)
        s.engage i m.kind tc (ms, mm.2.1, mm.2.2) x0
      else s.updAxis i fun a => { a with coord := { a.coord with wait := some (m, mm.1) } }
  | _, _ => s

/-! ### Catching (R334, R336) -/

/-- The axis runs without an encoder. -/
def State.openLoop (s : State) (i : Fin 512) : Bool := s.isStep i && s.ax P.axFbmode i == 0

/-- The motion state a command starts from at instant `t` (R314, R334, R336). -/
def State.startState (s : State) (i : Fin 512) (t : Rat) : PVA :=
  match s.axes[i].step.caught with
  | some (p, v) => (p + v * ((t - (s.axes[i].step.catchT0 : Rat)) / 1000000000), v, 0)
  | none =>
    if s.axes[i].step.coasting then (ofPos64 (s.actPos i), ofVel64 (s.actVel i), 0) else s.sourceState i t

/-- The command that waits is taken over at this release, unless a catch must run first (R314, R335). -/
def State.takeNext (s : State) (i : Fin 512) : State :=
  match s.axes[i].prof.next with
  | none => s
  | some m =>
    let st := s.axes[i].step
    if s.now < m.at_ ∨ st.catching.isSome then s
    else if s.openLoop i && st.coasting && st.caught.isNone then
      s.updAxis i fun a => { a with step := { a.step with catching := some true, samples := [], catchT0 := s.now } }
    else
      let t : Rat := if m.timed then (m.at_ : Rat) else s.nowRat
      s.takeOver i m t (s.startState i t)

/-! ### `MOVING` -/

/-- Report a switchback at its reversal (R317, Table 10.2). -/
def State.checkReversal (s : State) (i : Fin 512) (t : Rat) : State :=
  let pl := s.axes[i].prof.plan
  match pl.revAt with
  | some r =>
    if pl.tau t < r then s
    else
      let s := s.updProf i fun p =>
        { p with plan := { p.plan with revAt := none }, switchback := true, overshoot := toPos64 pl.overshoot }
      s.raise { code := 0x0505, cls := 0, scope := .axis, axis := i.val
                detail := min (roundAway (ratAbs pl.overshoot)).toNat 0xFFFF
                hostId := ((s.axes[i].prof.cur.bind (·.ref)).map (·.hostId)).getD 0 }
  | none => s

/-- Following (R339): lock, reseed after a live ratio write, and `FOLLOW_LIMIT`. -/
def State.runFollow (s : State) (i : Fin 512) (t : Rat) : State :=
  let (c, vs) := s.sourceAt i
  let r := s.followRatio i
  let p := s.axes[i].prof
  let x := s.sourceState i t
  let s :=
    if p.locked then
      (if p.followReseed then s.updProf i fun p => { p with followP0 := x.1, followC0 := c, followReseed := false } else s)
    else if (s.rampAt i (r * vs) t).2 then
      (s.updProf i fun p => { p with locked := true, followP0 := x.1, followC0 := c }).ownDone i
    else s
  if s.axVel P.axVmax i < ratAbs (r * vs) then
    let fresh := match p.limitSince with
      | some t0 => decide (t0 + 100000000 ≤ s.now)
      | none => true
    let s := s.updProf i fun p => { p with limitSince := some s.now }
    if fresh then s.raiseAxis i 0x0503 3 else s
  else s

/-- Gearing (R355 to R358): lock, and the ends of couplings and blends. -/
def State.runGear (s : State) (i : Fin 512) (t : Rat) : State :=
  match s.axes[i].coord.gear, s.masterAt i t with
  | some g, some m =>
    let x := s.sourceState i t
    let put (g : Gear) : State := s.updAxis i fun a => { a with coord := { a.coord with gear := some g } }
    match g.phase with
    | .ramp =>
      if (s.rampAt i (g.ratio * m.2.1) t).2 then
        (put { g with phase := .locked, pL := x.1, mL := m.1 }).ownDone i
      else s
    | .dist _ m0 _ r l =>
      if blendU m.1 m0 l = 1 then
        (if r = 0 ∧ g.num = 0 then
          (s.updAxis i fun a =>
            { a with
              prof := { a.prof with source := .profile, plan := Plan.holdAt t x.1, idle := true }
              coord := { a.coord with gear := none } })
         else (put { g with phase := .locked, pL := x.1, mL := m.1 }).ownDone i)
      else s
    | .locked =>
      match g.blend with
      | some (d, m0, l) =>
        if blendU m.1 m0 l = 1 then (put { g with pL := g.pL + d, blend := none }).ownDone i else s
      | none => s
  | _, _ => s

/-- Cams (R361, R362): the ends of blends, and of a `ONE_SHOT` cam. -/
def State.runCam (s : State) (i : Fin 512) (t : Rat) : State :=
  match s.axes[i].coord.cam, s.masterAt i t with
  | some c, some m =>
    let blend : Rat := s.ax P.axCamblend i
    let tbl := s.camTable c.cam
    let xl := camX tbl (camPoints tbl - 1)
    if c.oneShot ∧ xl ≤ m.1 - c.phiAt blend m.1 then
      let y := (camEval tbl xl).1 + c.offAt blend m.1
      (s.updAxis i fun a =>
        { a with
          prof := { a.prof with source := .profile, plan := Plan.holdAt t y, idle := true }
          coord := { a.coord with cam := none } }).ownDone i
    else
      let k := c.settle blend m.1
      let s := s.updAxis i fun a => { a with coord := { a.coord with cam := some k } }
      match s.axes[i].prof.cur with
      | some { kind := .cam e, .. } => if k.settled e.mode then s.ownDone i else s
      | _ => s
  | _, _ => s

/-- Every member that still follows the path has passed instant `t0`. -/
def State.pathPassed (s : State) (l : Fin 512) (r : PathRun) (t0 : Nat) : Bool :=
  r.members.all fun m => match fin? 512 m with
    | some j => s.axes[j].coord.pathLeader != some l.val || decide ((t0 : Rat) ≤ s.axes[j].prof.relT)
    | none => true

/-- Drop the segments that every member has passed, never the last queued one. -/
def State.prunePath (s : State) (l : Fin 512) : Nat → State
  | 0 => s
  | n + 1 =>
    match s.axes[l].coord.path with
    | none => s
    | some r =>
      match r.segs with
      | g :: _ :: _ =>
        if s.pathPassed l r g.tEnd then
          (s.updAxis l fun a => { a with coord := { a.coord with path := some r.drop } }).prunePath l n
        else s
      | _ => s

/-- A member that has left a path before its end: the detail of Table 10.5 for its cause (R366). -/
def State.pathLeft (s : State) (l : Fin 512) (r : PathRun) : Option Nat :=
  (r.members.filterMap (fin? 512)).findSome? fun j =>
    if s.axes[j].coord.pathLeader = some l.val ∧ s.axes[j].st = .moving then none
    else match s.axes[j].st with
      | .fault => some 0x0103
      | .retired => some 0x0105
      | .disabled | .ready => some 0x0104
      | .stopping => some (if s.axes[j].stopForFault then 0x0103 else if s.axes[j].disabling then 0x0104 else 0x0102)
      | _ => some 0x0101

/-- Paths (R363, R366): the end, starvation, and the loss of a member. -/
def State.runPath (s : State) (i : Fin 512) (t : Rat) : State :=
  match s.pathOf i with
  | none => s
  | some (l, r) =>
    let (_, ended, starved) := r.at (r.index i) t
    if ended then
      let s := s.updAxis i fun a => { a with coord := { a.coord with pathLeader := none } }
      let left := r.members.any fun m => match fin? 512 m with
        | some j => s.axes[j].coord.pathLeader == some l.val
        | none => false
      let s := if left then s else s.updAxis l fun a => { a with coord := { a.coord with path := none } }
      s.motionIdle i
    else if starved then
      let x := (r.at (r.index i) t).1
      let s := s.endPath l i false 0x0106
      s.planStop i false t x
    else
      match s.pathLeft l r with
      | some det =>
        let x := (r.at (r.index i) t).1
        (s.endPath l i true det).planStop i true t x
      | none => s.prunePath l r.segs.length

/-- `LIMIT` (R352) and `MASTER_STALE` with its fault (R351) of a coordination source. -/
def State.coordFlags (s : State) (i : Fin 512) (x : PVA) : State :=
  let src := s.axes[i].prof.source
  let coord := src == .gear || src == .cam || src == .path
  let lim := coord && (decide (s.axVel P.axVmax i < ratAbs x.2.1) ||
    decide (ratMax (s.axVel P.axAmax i) (s.axVel P.axDmax i) < ratAbs x.2.2))
  let stale := (src == .gear || src == .cam) && s.masterOverdue i
  let was := s.axes[i].coord.masterStale
  let s := s.updAxis i fun a => { a with coord := { a.coord with limit := lim, masterStale := stale } }
  if stale && !was then s.raiseAxis i 0x0405 (s.ax P.axStaleclass i) 3 else s

/-- The master of a coupled slave has been retired (R351). -/
def State.checkMasterGone (s : State) (i : Fin 512) (t : Rat) : State :=
  let src := s.axes[i].prof.source
  let gone := match s.localMaster i with
    | some j => s.axes[j].st == .retired
    | none => false
  if gone && (src == .gear || src == .cam) then
    let x := s.sourceState i t
    (s.motionDone i .aborted 0x0107).planStop i false t x
  else s

/-- Make the plan again when `REGEN_LIMIT` has changed (R318). -/
def State.replan (s : State) (i : Fin 512) (t : Rat) : State :=
  let pl := s.axes[i].prof.plan
  let r := s.axisRegen i
  let x := pl.at t
  let set (q : Plan) : State := s.updProf i fun p => { p with plan := q, regenScaled := p.regenScaled || r }
  if pl.scaled = r ∨ pl.ended t then s
  else
    match pl.kind with
    | .hold => s
    | .move y => set ((s.bands i 0).move (.move y) t x.1 x.2.1 y r)
    | .velocity v => set ((s.bands i v).velocity (.velocity v) t x.1 x.2.1 v r)
    | .controlled => set ((s.bands i 0).stop .controlled false t x.1 x.2.1 r)
    | .quick => set ((s.bands i 0).stop .quick true t x.1 x.2.1 r)
    | .homing v => set ((s.homeBands i (ratAbs v)).velocity (.homing v) t x.1 x.2.1 v r)
    | .homeMove y => set ((s.homeBands i (s.axVel P.axHomevfast i)).move (.homeMove y) t x.1 x.2.1 y r)
    | .homeStop => set ((s.homeBands i (s.axVel P.axHomevfast i)).stop .homeStop false t x.1 x.2.1 r)

/-- The generator at a release in `MOVING`. -/
def State.runMoving (s : State) (i : Fin 512) : State :=
  let s := s.takeNext i
  let t := s.nowRat
  let s := ((s.checkMasterGone i t).replan i t).checkWait i t
  let x := s.sourceState i t
  let s := s.updProf i fun p =>
    { p with cmdPos := toPos64 x.1, cmdVel := toVel64 x.2.1, cmdAcc := toVel64 x.2.2, regenScaled := p.regenScaled || s.axisRegen i }
  let s := s.coordFlags i x
  let s :=
    match s.axes[i].prof.source with
    | .profile =>
      let s := s.checkReversal i t
      let pl := s.axes[i].prof.plan
      if s.axes[i].coord.wait.isNone && pl.ended t then
        (match pl.kind with
         | .move _ => s.motionIdle i
         | .velocity v =>
           let s := s.motionDone i .done 0
           if v = 0 then s.updProf i fun p => { p with idle := true } else s
         | _ => s)
      else s
    | .follow => s.runFollow i t
    | .gear => s.runGear i t
    | .cam => s.runCam i t
    | .path => s.runPath i t
    | _ => s
  s.updProf i fun p => { p with relT := t, relP := x.1, relV := x.2.1 }

/-! ### `STOPPING` (R320) -/

/-- The generator at a release in `STOPPING`: a stop that waits is taken over. -/
def State.runStopping (s : State) (i : Fin 512) : State :=
  let now := s.nowRat
  let a := s.axes[i]
  let due := match a.stopCmd with
    | some m => m.at_
    | none => 0
  let s :=
    if a.stopNew && decide (due ≤ s.now) then
      let t : Rat := match a.stopCmd with
        | some m => if m.timed then (m.at_ : Rat) else now
        | none => now
      let x := if a.step.coasting then s.startState i t else s.sourceState i t
      let s := s.leavePath i (if a.stopForFault then 0x0103 else if a.disabling then 0x0104 else 0x0102)
      let s := s.updProf i fun p => { p with vmax := 0, amax := 0, dmax := 0 }
      let quick := decide (a.stop = .quick)
      let pl := (s.bands i 0).stop (if quick then .quick else .controlled) quick t x.1 x.2.1 (s.axisRegen i)
      s.updAxis i fun a =>
        { a with
          stopNew := false
          prof := { a.prof with source := .profile, plan := pl, positioning := false, locked := false, switchback := false }
          coord := { a.coord with wait := none, gear := none, cam := none, path := none, pathLeader := none }
          stopCmd := a.stopCmd.map fun m => { m with tookOver := if m.timed then m.at_ else s.now } }
    else s
  let s := s.replan i now
  let x := s.sourceState i now
  s.updProf i fun p =>
    { p with
      cmdPos := toPos64 x.1, cmdVel := toVel64 x.2.1, cmdAcc := toVel64 x.2.2, relT := now, relP := x.1, relV := x.2.1
      regenScaled := p.regenScaled || s.axisRegen i }

end Sys2Proof.Machine
end

