-- ==== Sys2Proof/Machine/Homing.lean ====
section
/-!
DEFINITION. The homing sequencer (R340 to R347), the release of the setpoint task, and standstill (R303, Table 1.9).
-/
namespace Sys2Proof.Machine

def State.updHome (s : State) (i : Fin 512) (f : Homing → Homing) : State :=
  s.updAxis i fun a => { a with home := f a.home }

/-! ### Inputs -/

/-- A probe used as an input is active, under its polarity bit (Table 10.14). -/
def State.inputActive (s : State) (i : Fin 512) (probe polBit : Nat) : Bool :=
  match fin? 32 probe with
  | some n => s.probes[n].level != bit (s.ax P.axHomepol i) polBit
  | none => false

/-- +1 or −1: the direction of `AX.HOMEDIR`. -/
def State.homeDir (s : State) (i : Fin 512) : Rat := if s.ax P.axHomedir i = 0 then 1 else -1

/-- The reference input of a method: its probe and polarity bit (Table 10.10). -/
def State.refInput (s : State) (i : Fin 512) (method : Nat) : Nat × Nat :=
  if method = 4 then
    (if s.ax P.axHomedir i = 0 then (s.ax P.axLimposin i, 1) else (s.ax P.axLimnegin i, 2))
  else (s.ax P.axHomein i, 0)

def State.refActive (s : State) (i : Fin 512) : Bool :=
  let r := s.refInput i s.axes[i].home.method
  s.inputActive i r.1 r.2

/-- Level of the index input of an axis's feedback unit. -/
def State.indexLevel (s : State) (i : Fin 512) : Bool :=
  match s.portOf i with
  | some p => s.fb[p].z
  | none => false

/-- A limit input is active in direction `d`; in method 4 that of `AX.HOMEDIR` is no limit (R343). -/
def State.limitIn (s : State) (i : Fin 512) (d : Rat) : Bool :=
  if s.axes[i].home.method = 4 ∧ d = s.homeDir i then false
  else if 0 < d then s.inputActive i (s.ax P.axLimposin i) 1 else s.inputActive i (s.ax P.axLimnegin i) 2

/-! ### Phases (Table 10.12) -/

/-- Direction and speed of the present phase. -/
def State.homePass (s : State) (i : Fin 512) (ph : HomePhase) : Rat × Rat :=
  let d := s.homeDir i
  let back := s.axes[i].home.reversed
  match ph with
  | .search => (if back then -d else d, s.axVel P.axHomevfast i)
  | .backoff => (-d, s.axVel P.axHomevfast i)
  | .creep => (if back && s.axes[i].home.method == 3 then -d else d, s.axVel P.axHomevslow i)
  | _ => (d, s.axVel P.axHomevslow i)

/-- Begin a pass at instant `t` from motion state `x`. -/
def State.beginPass (s : State) (i : Fin 512) (ph : HomePhase) (t : Rat) (x : PVA) : State :=
  let (d, v) := s.homePass i ph
  let pl := (s.homeBands i v).velocity (.homing (d * v)) t x.1 x.2.1 (d * v) (s.axisRegen i)
  let quiet := !s.refActive i
  let low := !s.indexLevel i
  (s.setPlan i .homing pl).updHome i fun h =>
    { h with
      phase := ph, passStart := x.1, after := none, edges := [], indexes := [], mark := none, stall := false
      seenInactive := quiet, armT := s.ticks, idxT := if ph = .creep ∧ h.method = 3 then some s.ticks else none, idxQuiet := low
      transitions := if ph = .creep then 0 else h.transitions }

/-- Stop within homing, then go on with `k`. -/
def State.homeStop (s : State) (i : Fin 512) (k : HomeNext) (t : Rat) (x : PVA) : State :=
  let pl := (s.homeBands i (s.axVel P.axHomevfast i)).stop .homeStop false t x.1 x.2.1 (s.axisRegen i)
  (s.setPlan i .homing pl).updHome i fun h => { h with after := some k }

/-- Add Δ to the position frame (R345): the feedback position offset, p̂, p_r, the commanded position and the plan; on a `NET`
axis to the positions exchanged with the remote drive. -/
def State.shiftFrame (s : State) (i : Fin 512) (d : Rat) : State :=
  let add (r : Int) : Int := toPos64 (ofPos64 r + d)
  let s := match s.portOf i with
    | some p => s.updFb p fun f => { f with offset := f.offset + d }
    | none => s
  s.updAxis i fun a =>
    { a with
      net := if s.isNet i then { a.net with offset := a.net.offset + d } else a.net
      pos := { a.pos with pHat := add a.pos.pHat, pRef := add a.pos.pRef, pSet := add a.pos.pSet }
      prof := { a.prof with cmdPos := add a.prof.cmdPos, relP := a.prof.relP + d, plan := a.prof.plan.shift d } }

/-- `FINISH` with the reference found (R345): the frame moves, `REFERENCED` sets, and the axis stops. -/
def State.homeFinish (s : State) (i : Fin 512) (reference : Rat) (t : Rat) (x : PVA) : State :=
  let d := ofPos64 s.axes[i].home.homePos - reference
  let s := s.shiftFrame i d
  let s := s.updAxis i fun a =>
    { a with
      home := { a.home with phase := .finish, referenced := true, delta := d }
      prof := { a.prof with refSet := true } }
  s.homeStop i .final t (x.1 + d, x.2.1, x.2.2)

/-- Begin homing (R342): `BACKOFF` first when the reference input was active at acceptance. -/
def State.beginHoming (s : State) (i : Fin 512) (m : MotionCmd) (t : Rat) (x : PVA) : State :=
  let s := s.updAxis i fun a =>
    { a with
      home := { a.home with delta := 0 }
      prof := { a.prof with
        cur := some { m with tookOver := if m.timed then m.at_ else s.now }, next := none, switchback := false
        regenScaled := s.axisRegen i, caught := a.step.caught.isSome, refSet := false, vmax := 0, amax := 0, dmax := 0
        positioning := false, idle := false }
      step := { a.step with caught := none, coasting := false } }
  match s.axes[i].home.method with
  | 0 => s.homeFinish i (if s.isVirtual i then x.1 else ofPos64 (s.actPos i)) t x
  | 3 => s.beginPass i .creep t x
  | 5 => s.beginPass i .stall t x
  | _ => s.beginPass i (if s.axes[i].home.seenInactive then .search else .backoff) t x

/-- What follows a stop within homing. -/
def State.homeAfter (s : State) (i : Fin 512) (k : HomeNext) (t : Rat) (x : PVA) : State :=
  match k with
  | .search => s.beginPass i (if s.axes[i].home.method = 3 then .creep else .search) t x
  | .backoff => s.beginPass i .backoff t x
  | .creep => s.beginPass i .creep t x
  | .finish => s.homeFinish i (s.axes[i].home.mark.getD x.1) t x
  | .final =>
    if s.ax P.axHomemove i = 1 ∧ s.axes[i].prof.plan.kind = .homeStop then
      let y := ofPos64 s.axes[i].home.homePos
      (s.setPlan i .homing ((s.homeBands i (s.axVel P.axHomevfast i)).move (.homeMove y) t x.1 x.2.1 y
        (s.axisRegen i))).updHome i fun h => { h with after := none }
    else s.updHome i fun h => { h with after := none }
  | .failed _ => s

/-- Position of the axis at a stamp, once its sample has come (R344, R371). -/
def State.refAt (s : State) (i : Fin 512) (stamp : Rat) : Option Rat := (posAt (s.samples i false) stamp).map (·.1)

/-- c_rev as set by the device or the parameter (Table 8.1, R325). -/
def State.crev (s : State) (i : Fin 512) : Nat :=
  match s.ax P.axFbmode i with
  | 3 => 6 * s.ax P.axPolepairs i
  | 6 => 65536 * s.ax P.axRespp i
  | 0 => s.ax P.axStepsrev i * s.ax P.axMicrostep i
  | _ => s.ax P.axCrev i

/-- One release of the sequencer in a phase (Table 10.12, R343, R344). -/
def State.runPhase (s : State) (i : Fin 512) (t : Rat) (x : PVA) : State :=
  let h := s.axes[i].home
  let travelled := ratAbs (x.1 - h.passStart)
  let maxd : Rat := s.ax P.axHomemaxdist i
  let far := decide (maxd ≠ 0) && decide (maxd ≤ travelled)
  let d := (s.homePass i h.phase).1
  let fail (n : Nat) : State := s.homeStop i (.failed n) t x
  let reverse : State :=
    if h.reversed then fail 1 else (s.updHome i fun h => { h with reversed := true }).homeStop i .search t x
  if h.stuck then fail 5
  else
    match h.phase with
    | .search =>
      if !h.edges.isEmpty then (if h.reversed then s.beginPass i .backoff t x else s.homeStop i .backoff t x)
      else if s.limitIn i d then reverse
      else if far then fail 4
      else s
    | .backoff =>
      if s.limitIn i d then fail 8
      else
        match h.mark with
        | none =>
          if !s.refActive i then
            let s := s.updHome i fun h => { h with mark := some x.1 }
            if s.ax P.axHomebackoff i = 0 then s.homeStop i .creep t x else s
          else if far then fail 5 else s
        | some q =>
          if (s.ax P.axHomebackoff i : Rat) ≤ ratAbs (x.1 - q) then s.homeStop i .creep t x else s
    | .creep =>
      if s.ax P.axHomechatmax i < h.transitions then fail 2
      else if h.method = 3 then
        (match h.indexes.getLast? with
         | some st => match s.refAt i st with
           | some q => s.homeFinish i q t x
           | none => s
         | none => if s.limitIn i d then reverse else s)
      else if s.limitIn i d then fail 8
      else
        match h.edges.getLast? with
        | none => if (s.ax P.axHomecreepmax i : Rat) ≤ travelled then fail 3 else s
        | some st =>
          match s.refAt i st with
          | none => s
          | some q =>
            if h.method ≠ 2 then s.homeFinish i q t x
            else
              match (h.indexes.filter fun n => decide (st < n)).getLast? with
              | some n => match s.refAt i n with
                | some q => s.homeFinish i q t x
                | none => s
              | none => if (s.crev i : Rat) ≤ ratAbs (x.1 - q) then fail 7 else s
    | .stall =>
      if h.stall then
        let q := ofPos64 (s.actPos i)
        let x0 : PVA := if s.isServo i then (q, 0, 0) else (x.1, 0, 0)
        let y := x0.1 - s.homeDir i * (s.ax P.axHomebackoff i : Rat)
        (s.setPlan i .homing ((s.homeBands i (s.axVel P.axHomevslow i)).move (.homeMove y) t x0.1 0 y
          (s.axisRegen i))).updHome i fun h => { h with mark := some q, after := some .finish }
      else if s.limitIn i d then fail 8
      else if far then fail 6
      else s
    | .finish | .none => s

/-- Too many transitions until standstill in `FINISH` (R344). -/
def State.checkChatter (s : State) (i : Fin 512) (t : Rat) : State :=
  let h := s.axes[i].home
  let failed := match h.after with
    | some (.failed _) => true
    | _ => false
  if h.phase == HomePhase.finish && !failed && decide (s.ax P.axHomechatmax i < h.transitions) then
    s.homeStop i (.failed 2) t (s.sourceState i t)
  else s

/-- The homing sequencer at a release. -/
def State.runHoming (s : State) (i : Fin 512) : State :=
  let s := match s.axes[i].prof.next with
    | some m =>
      if s.now < m.at_ ∨ s.axes[i].step.catching.isSome then s
      else if s.openLoop i && s.axes[i].step.coasting && s.axes[i].step.caught.isNone then
        s.updAxis i fun a => { a with step := { a.step with catching := some true, samples := [], catchT0 := s.now } }
      else
        let t : Rat := if m.timed then (m.at_ : Rat) else s.nowRat
        s.beginHoming i m t (s.startState i t)
    | none => s
  let t := s.nowRat
  let s := s.replan i t
  let x := s.sourceState i t
  let s := match s.axes[i].home.after with
    | some k => if s.axes[i].prof.plan.ended t then s.homeAfter i k t x else s
    | none => if s.axes[i].home.phase == HomePhase.none then s else s.runPhase i t x
  let s := s.checkChatter i t
  let x := s.sourceState i t
  s.updProf i fun p =>
    { p with
      cmdPos := toPos64 x.1, cmdVel := toVel64 x.2.1, cmdAcc := toVel64 x.2.2, relT := t, relP := x.1, relV := x.2.1
      regenScaled := p.regenScaled || s.axisRegen i }

/-! ### Entering `ENABLED_IDLE` (R32, R296, R555) -/

/-- An open `AXIS_ENABLE` completes when every member of the group has reached `ENABLED_IDLE` (R296). -/
def State.enableDone (s : State) (i : Fin 512) : State :=
  let ms := s.groupMembers i
  if ms.all fun j => s.axes[j].st == .enabledIdle then
    ms.foldl (fun s j =>
      match s.axes[j].enable with
      | some e => (s.completeAll e.refs .done 0).updAxis j fun a => { a with enable := none }
      | none => s) s
  else s

/-- Energising is complete (Table 1.9): position `p` becomes the commanded position. -/
def State.enterEnabled (s : State) (i : Fin 512) (p : Int) : State :=
  let s := s.updAxis i fun a =>
    { a.clearMotion with
      st := .enabledIdle, energ := .off
      prof := { a.clearMotion.prof with cmdPos := p, relP := ofPos64 p, relV := 0, relT := s.nowRat } }
  s.enableDone i

/-- A `VIRTUAL` axis has nothing to energise: it is enabled at its next release. -/
def State.enableVirtual (s : State) (i : Fin 512) : State :=
  match s.axes[i].enable with
  | some e => if s.isVirtual i && e.phase == .energising then s.enterEnabled i s.axes[i].prof.cmdPos else s
  | none => s

/-! ### The release of the setpoint task -/

/-- The commanded position follows the actual one (Table 1.7). -/
def State.followActual (s : State) (i : Fin 512) : State :=
  let q := s.actPos i
  s.updProf i fun p =>
    { p with cmdPos := q, cmdVel := 0, cmdAcc := 0, relT := s.nowRat, relP := ofPos64 q, relV := 0, source := .none }

/-- Publish what the release has computed, keep it as a sample, and serve the channels that watch setpoints (R281, R371, R375). -/
def State.publishSetpoint (s : State) (i : Fin 512) : State :=
  let p := s.axes[i].prof
  let none_ := p.source == .none
  let s := s.publish i s.now p.cmdPos p.cmdVel p.cmdAcc none_
  let s := s.updAxis i fun a => { a with spHist := keep64 (s.now, p.cmdPos, p.cmdVel) a.spHist }
  let t := s.nowRat
  let s := s.evalCompares i true p.cmdPos p.cmdVel t t (t + (s.spPeriod i : Rat))
  s.stones i

/-- The condition of standstill (R303): the setpoint velocity is 0, and the actual one at most `AX.STANDVEL`. -/
def State.still (s : State) (i : Fin 512) : Bool :=
  decide (s.axes[i].prof.cmdVel = 0) &&
    (s.isVirtual i || s.openLoop i || decide (ratAbs (ofVel64 (s.actVel i)) ≤ s.axF P.axStandvel i))

/-- Standstill ends when its condition fails; while it holds, it has held since the tick it was first found (R303). -/
def State.keepStand (s : State) (i : Fin 512) : State :=
  let on := s.still i
  s.updAxis i fun a =>
    { a with pos := { a.pos with stand := a.pos.stand && on, standSince := s.heldSince on a.pos.standSince } }

/-- An axis owned by a `NET` axis elsewhere takes its setpoints from its record (R443). -/
def State.runOwned (s : State) (i : Fin 512) : State :=
  let s := s.updProf i fun p => { p with source := .net }
  let t := s.nowRat
  let x := s.sourceState i t
  s.updProf i fun p =>
    { p with cmdPos := toPos64 x.1, cmdVel := toVel64 x.2.1, cmdAcc := toVel64 x.2.2, relT := t, relP := x.1, relV := x.2.1 }

/-- The sample event of the port releases the position and setpoint tasks of a local axis: every `AX.POSDIV`-th, counted from
switch-over (R280, Table 4.3). -/
def State.posDue (s : State) (i : Fin 512) : Bool :=
  match s.portOf i with
  | some p => (s.ports[p]).samples != 0 && (s.ports[p]).samples % s.ax P.axPosdiv i == 0
  | none => true

/-- A release of a loop task of an axis runs: when its trigger is due, not in the safe state (R501), not while a commit may overwrite its memory (R144), and not
while the engine that holds the task has failed (R147, Table 4.10). -/
def State.releases (s : State) (i : Fin 512) (kind : Nat) : Bool :=
  (kind == 0 || s.posDue i) && !s.safeState && s.axes[i].st != .retired && !s.loadHolds i &&
  (match (s.taskOf i kind).bind (fun t => fin? 24 t.engine) with
   | some e => (s.eng[e]).role != .retired
   | none => true)

/-- A release of the setpoint task of an axis (R311). Probe records that every taker has seen leave their FIFOs (R370). -/
def State.setpointRelease (s : State) (i : Fin 512) : State :=
  if !s.bound i || !s.releases i 2 then s
  else
    let s : State := { s with probes := s.probes.map fun p => { p with fifo := [] } }
    let s := fin4s.foldl (fun s k => s.takeLatch i k) s
    let s := fin4s.foldl (fun s k => s.takeCompare i k) s
    let s := match s.axes[i].st with
      | .disabled | .fault | .retired => s.followActual i
      | .ready => (s.followActual i).enableVirtual i
      | .enabledIdle =>
        if s.net.owned.contains i.val && s.axes[i].net.owned.isSome && !s.axes[i].net.ownQuick then s.runOwned i
        else s.updProf i fun p => { p with cmdVel := 0, cmdAcc := 0, relT := s.nowRat, relP := ofPos64 p.cmdPos, relV := 0 }
      | .moving => s.runMoving i
      | .homing => s.runHoming i
      | .stopping => s.runStopping i
    let s := (s.publishSetpoint i).keepStand i
    if s.isVirtual i then
      (s.superviseSpeed i (ofVel64 s.axes[i].prof.cmdVel)).superviseSw i (ofPos64 s.axes[i].prof.cmdPos)
    else s

/-- The setpoint task of an axis without a position loop here is its axis-control cycle (R127). -/
def execSetpointRelease (i : Fin 512) (s : State) : Out :=
  s.main ((if s.isLocal i then s else s.takeLate .ax i.val).axisCycle fun s => s.setpointRelease i)

/-! ### Standstill (R303) -/

/-- Homing ends at standstill (R342, R347). -/
def State.homingStand (s : State) (i : Fin 512) : State :=
  let h := s.axes[i].home
  if s.axes[i].prof.next.isSome || !s.axes[i].prof.plan.ended s.nowRat then s
  else
    match h.after with
    | some (.failed n) =>
      let s := s.shiftFrame i (-h.delta)
      let s := s.updAxis i fun a =>
        { a with home := { a.home with referenced := false, delta := 0 }, prof := { a.prof with refSet := false } }
      let s := s.motionDone i .homeFailed n
      (s.motionIdle i).updHome i fun h => { h with phase := .none, after := none, reversed := false, stuck := false }
    | some _ => s
    | none =>
      if h.phase = .finish then
        let s := match s.portOf i with
          | some p => s.updFb p fun f => { f with refLost := false }
          | none => s
        (s.motionIdle i).updHome i fun h => { h with phase := .none, after := none, reversed := false, stuck := false }
      else s

/-- What standstill ends (Table 1.9, R323). -/
def State.standEnds (s : State) (i : Fin 512) : State :=
  let a := s.axes[i]
  match a.st with
  | .stopping =>
    if a.stopNew || !a.prof.plan.ended s.nowRat then s
    else if a.ss1 then s.endStop i .done 0
    else if a.stopForFault then
      (if s.faulted i then (s.endStop i .done 0).enterFault i else (s.endStop i .done 0).enterRest i)
    else if a.disabling then (s.endStop i .done 0).enterRest i
    else (s.endStop i .done 0).motionIdle i
  | .moving => if a.prof.idle && a.coord.wait.isNone && a.prof.next.isNone && a.prof.plan.ended s.nowRat then s.motionIdle i else s
  | .homing => s.homingStand i
  | _ => s

/-- The standstill condition has held for `AX.STANDTIME` without a break. -/
def State.stoodStill (s : State) (i : Fin 512) : Bool :=
  s.still i && (s.heldFor s.axes[i].pos.standSince (s.ax P.axStandtime i) || s.ax P.axStandtime i == 0)

/-- Standstill is reached (R303). -/
def State.standstill (s : State) (i : Fin 512) : State :=
  if !s.bound i || !s.stoodStill i then s
  else (s.updAxis i fun a => { a with pos := { a.pos with stand := true } }).standEnds i

def execStandstillReached (i : Fin 512) (s : State) : Out := s.main (s.standstill i)

end Sys2Proof.Machine
end

