-- ==== Sys2Proof/Machine/Flags.lean ====
section
/-!
DEFINITION. The arithmetic of the loop engines and the flags it sets: Q31 with saturation (R149), 72-bit accumulators, FP32
with flushed subnormals (R150).
-/
namespace Sys2Proof.Machine

/-- `FLAGS.SAT` and `FLAGS.ADDR` (Table 5.3). -/
def flagSat : Word := 0x10#32
def flagAddr : Word := 0x20#32

/-- Saturation to Q31, and whether it happened (R149). -/
def satQ31 (x : Int) : Word × Bool :=
  let y := satInt (-(2 ^ 31)) (2 ^ 31 - 1) x
  (BitVec.ofInt 32 y, y != x)

/-- Lane k of a vector register: bits [32k + 31:32k]. -/
def lane (x : BitVec 128) (k : Nat) : Word := x.extractLsb' (32 * k) 32

def lanes (x : BitVec 128) : List Word := [lane x 0, lane x 1, lane x 2, lane x 3]

/-- A vector register from its four lanes. -/
def ofLanes (a b c d : Word) : BitVec 128 := (d ++ c ++ b ++ a : BitVec 128)

/-- A register with lane `k` replaced. -/
def setLane (x : BitVec 128) (k : BitVec 2) (w : Word) : BitVec 128 :=
  let f (n : Nat) : Word := if k.toNat = n then w else lane x n
  ofLanes (f 0) (f 1) (f 2) (f 3)

/-- Apply a lane operation to two registers. -/
def mapLanes (f : Word → Word → Word) (a b : BitVec 128) : BitVec 128 :=
  ofLanes (f (lane a 0) (lane b 0)) (f (lane a 1) (lane b 1)) (f (lane a 2) (lane b 2)) (f (lane a 3) (lane b 3))

/-- Apply a saturating lane operation; the flag says whether a lane saturated. -/
def satLanes (f : Int → Int → Int) (a b : BitVec 128) : BitVec 128 × Bool :=
  let g (k : Nat) := satQ31 (f (lane a k).toInt (lane b k).toInt)
  (ofLanes (g 0).1 (g 1).1 (g 2).1 (g 3).1, (g 0).2 || (g 1).2 || (g 2).2 || (g 3).2)

/-- Rounded Q31 product, ties towards +∞ (R149). -/
def mulQ31 (a b : Int) : Int := (a * b + 2 ^ 30) / 2 ^ 31

/-- The accumulator value of `ACCRD`: round(acc >> (31 − s)), ties towards +∞. -/
def accRound (acc : BitVec 72) (s : Nat) : Int := (acc.toInt + 2 ^ (30 - s)) / 2 ^ (31 - s)

/-- Comparison codes of `VCMP` on Q31; code 3 is reserved. -/
def cmpInt (cc : Nat) (a b : Int) : Bool :=
  if cc = 0 then decide (b < a) else if cc = 1 then decide (b ≤ a) else decide (a = b)

/-- Four lane flags. -/
def laneFlags (f : Nat → Bool) : BitVec 4 := BitVec.ofNat 4 (b2f (f 0) + 2 * b2f (f 1) + 4 * b2f (f 2) + 8 * b2f (f 3))
where b2f (b : Bool) : Nat := if b then 1 else 0

/-! ### FP32 (R150) -/

/-- A subnormal operand or result becomes a zero of its sign. -/
def fpFlush (b : Word) : Word :=
  if fpExp b = 0 then b &&& 0x80000000#32 else b

def fpZero (neg : Bool) : Word := if neg then 0x80000000#32 else 0#32
def fpInf (neg : Bool) : Word := if neg then 0xFF800000#32 else 0x7F800000#32

/-- A quiet NaN (R150): its payload is free. -/
def fpQuiet (a b : Word) : Word := Config.qnan a b ||| 0x7FC00000#32

/-- Round an exact result; `neg` is the sign of a zero result. -/
def fpRound (neg : Bool) (q : Rat) : Word :=
  if q = 0 then fpZero neg else fpFlush (ratToFp q)

def fadd (x y : Word) : Word :=
  let a := fpFlush x
  let b := fpFlush y
  if fpIsNaN a || fpIsNaN b then fpQuiet x y
  else if fpIsInf a then (if fpIsInf b && fpSign a != fpSign b then fpQuiet x y else a)
  else if fpIsInf b then b
  else fpRound (fpSign a && fpSign b) (fpToRat a + fpToRat b)

def fneg (x : Word) : Word :=
  let a := fpFlush x
  if fpIsNaN a then fpQuiet x x else a ^^^ 0x80000000#32

def fabs (x : Word) : Word :=
  let a := fpFlush x
  if fpIsNaN a then fpQuiet x x else a &&& 0x7FFFFFFF#32

def fsub (x y : Word) : Word :=
  if fpIsNaN (fpFlush y) || fpIsNaN (fpFlush x) then fpQuiet x y else fadd x (fneg y)

def fmul (x y : Word) : Word :=
  let a := fpFlush x
  let b := fpFlush y
  let neg := fpSign a != fpSign b
  if fpIsNaN a || fpIsNaN b then fpQuiet x y
  else if fpIsInf a || fpIsInf b then
    (if fpToRat a = 0 ∧ fpIsInf a = false ∨ fpToRat b = 0 ∧ fpIsInf b = false then fpQuiet x y else fpInf neg)
  else fpRound neg (fpToRat a * fpToRat b)

/-- Fused multiply-add d + x × y, one rounding. -/
def fma (d x y : Word) : Word :=
  let c := fpFlush d
  let a := fpFlush x
  let b := fpFlush y
  let neg := fpSign a != fpSign b
  if fpIsNaN a || fpIsNaN b || fpIsNaN c then fpQuiet x y
  else if fpIsInf a || fpIsInf b then
    (if fpToRat a = 0 ∧ fpIsInf a = false ∨ fpToRat b = 0 ∧ fpIsInf b = false then fpQuiet x y
     else if fpIsInf c && fpSign c != neg then fpQuiet x y
     else fpInf neg)
  else if fpIsInf c then c
  else fpRound (neg && fpSign c) (fpToRat c + fpToRat a * fpToRat b)

/-- The order of two operands that are not NaN, −0 below +0. -/
def fpLess (a b : Word) : Bool :=
  let key (w : Word) : Int := if fpSign w then -((w &&& 0x7FFFFFFF#32).toNat : Int) - 1 else (w.toNat : Int)
  decide (key a < key b)

def fmin (x y : Word) : Word :=
  let a := fpFlush x
  let b := fpFlush y
  if fpIsNaN a || fpIsNaN b then fpQuiet x y else if fpLess b a then b else a

def fmax (x y : Word) : Word :=
  let a := fpFlush x
  let b := fpFlush y
  if fpIsNaN a || fpIsNaN b then fpQuiet x y else if fpLess a b then b else a

/-- Comparison codes of `FCMP`; a NaN compares false. -/
def fcmp (cc : Nat) (x y : Word) : Bool :=
  let a := fpFlush x
  let b := fpFlush y
  if fpIsNaN a || fpIsNaN b then false
  else
    let z (w : Word) : Bool := (w &&& 0x7FFFFFFF#32) == 0#32
    let eq := a == b || (z a && z b)
    if cc = 2 then eq
    else if cc = 1 then eq || fpLess b a
    else !eq && fpLess b a

/-- Q31 to FP32, scaled by 2^(−fx). -/
def fcvtQF (x : Word) (fx : Nat) : Word := fpRound false ((x.toInt : Rat) * pow2 (-31 - (fx : Int)))

/-- FP32 to Q31, scaled by 2^fx, saturating; a NaN gives 0. -/
def fcvtFQ (x : Word) (fx : Nat) : Word × Bool :=
  let a := fpFlush x
  if fpIsNaN a then (0#32, false)
  else if fpIsInf a then ((if fpSign a then 0x80000000#32 else 0x7FFFFFFF#32), true)
  else satQ31 (roundEven (fpToRat a * pow2 (31 + (fx : Int))))

/-- |r − 1| ≤ 2^−22, the bound of `FRCP`. -/
def within22 (r : Rat) : Bool := decide (ratAbs (r - 1) ≤ pow2 (-22))

/-- Reciprocal: a free pattern within the bound, otherwise the rounded value (log 20). -/
def frcp (x : Word) : Word :=
  let a := fpFlush x
  if fpIsNaN a then fpQuiet x x
  else if fpIsInf a then fpZero (fpSign a)
  else if fpToRat a = 0 then fpInf (fpSign a)
  else
    let r := Config.frcp a
    if fpFinite r && fpExp r != 0 && within22 (fpToRat r * fpToRat a) then r
    else fpRound (fpSign a) (1 / fpToRat a)

/-- Reciprocal square root: a free pattern within the bound, otherwise the rounded value (log 20). -/
def frsq (x : Word) : Word :=
  let a := fpFlush x
  if fpIsNaN a then fpQuiet x x
  else if fpToRat a = 0 ∧ fpIsInf a = false then fpInf (fpSign a)
  else if fpSign a then fpQuiet x x
  else if fpIsInf a then 0#32
  else
    let r := Config.frsq a
    let q := fpToRat r * fpToRat r * fpToRat a
    let lo := (1 - pow2 (-22)) * (1 - pow2 (-22))
    let hi := (1 + pow2 (-22)) * (1 + pow2 (-22))
    if fpFinite r && !fpSign r && fpExp r != 0 && decide (lo ≤ q) && decide (q ≤ hi) then r
    else fpRound false (1 / ratSqrt (fpToRat a))

/-- A value as Q31, saturating. -/
def toQ31 (q : Rat) : Word := (satQ31 (roundAway (q * pow2 31))).1

/-- A free Q31 value within 2^−24 of a real, otherwise that real rounded (log 20). -/
def within24 (free : Word) (x : Rat) : Word :=
  if ratAbs ((free.toInt : Rat) * pow2 (-31) - x) ≤ pow2 (-24) then free else toQ31 x

/-- `VSINCOS`: (sin, cos, −sin, cos) of an angle in 2^−32 turns, and whether −sin saturated. -/
def vsincos (a : Word) : BitVec 128 × Bool :=
  let x := 2 * Config.pi * (a.toNat : Rat) * pow2 (-32)
  let f := Config.sincos a
  let sn := within24 f.1 (Config.sin x)
  let cs := within24 f.2 (Config.cos x)
  let m := satQ31 (-sn.toInt)
  (ofLanes sn cs m.1 cs, m.2)

end Sys2Proof.Machine
end

