-- ==== Sys2Proof/Machine/Operands.lean ====
section
/-!
DEFINITION. Operand forms of the loop engines: the control block, the address modes of Table 5.4 and the data space of
Table 5.2.
-/
namespace Sys2Proof.Machine

/-- Update the context of an engine. -/
def State.updCtx (s : State) (e : Fin 24) (f : EngCtx → EngCtx) : State :=
  s.updEng e fun x => { x with ctx := f x.ctx }

def idx8 (n : Nat) : Fin 8 := ⟨n % 8, Nat.mod_lt _ (by decide)⟩
def idx16 (n : BitVec 4) : Fin 16 := n.toFin
def idx32 (n : BitVec 5) : Fin 32 := n.toFin
def idx4 (n : Nat) : Fin 4 := ⟨n % 4, Nat.mod_lt _ (by decide)⟩

def EngCtx.getA (c : EngCtx) (n : BitVec 4) : Word := c.a[idx16 n]
def EngCtx.getV (c : EngCtx) (r : BitVec 5) : BitVec 128 := c.v[idx32 r]

/-- Accumulator n, lane k, as a MAC-family instruction reads it. -/
def EngCtx.getAcc (c : EngCtx) (n : BitVec 3) (k : Fin 4) : BitVec 72 :=
  c.acc[(⟨4 * n.toNat + k.val, by have := n.isLt; have := k.isLt; omega⟩ : Fin 32)]

/-- Accumulator n, lane k, as `ACCRD` reads it. -/
def EngCtx.getAccRd (c : EngCtx) (n : BitVec 3) (k : Fin 4) : BitVec 72 :=
  c.accRd[(⟨4 * n.toNat + k.val, by have := n.isLt; have := k.isLt; omega⟩ : Fin 32)]

/-- A lane flag F[k]. -/
def EngCtx.flag (c : EngCtx) (k : Nat) : Bool := c.flags.getLsbD k

/-! ### Control block (Table 5.3) -/

/-- A control-block word. -/
def Engine.ctrlRead (e : Engine) (off : Nat) : Word :=
  let c := e.ctx
  let w := off / 4 * 4
  if w < 0x20 then c.cb[idx8 (w / 4)]
  else if w < 0x40 then c.cl[idx8 (w / 4)]
  else if w = 0x40 then c.flags
  else if w = 0x44 then e.taskid
  else if w = 0x48 then e.cycle
  else if w = 0x50 then e.relt.extractLsb' 0 32
  else if w = 0x54 then e.relt.extractLsb' 32 32
  else if w = 0x58 then e.eccCnt
  else if 0x60 ≤ w ∧ w < 0x70 then c.wbase[idx4 (w / 4)]
  else if 0x100 ≤ w ∧ w < 0x130 then
    match fin? 3 ((w - 0x100) / 16) with
    | none => 0#32
    | some k => if w % 16 = 0 then c.hsrc[k] else if w % 16 = 4 then c.hdst[k] else if w % 16 = 8 then c.hlen[k] else c.hstat[k]
  else 0#32

/-- Effect of a store to a control-block word: reserved bits stay zero, read-only registers ignore it, `HSTAT` bits 1 to 5
clear by writing one (R10, R11). -/
def EngCtx.ctrlWrite (c : EngCtx) (off : Nat) (x : Word) : EngCtx :=
  let w := off / 4 * 4
  if w < 0x20 then { c with cb := upd c.cb (idx8 (w / 4)) fun _ => x &&& 0x0001FFF0#32 }
  else if w < 0x40 then { c with cl := upd c.cl (idx8 (w / 4)) fun _ => x &&& 0x0003FFF0#32 }
  else if w = 0x40 then { c with flags := x &&& 0x3F#32 }
  else if 0x60 ≤ w ∧ w < 0x70 then { c with wbase := upd c.wbase (idx4 (w / 4)) fun _ => x &&& 0xFFFFF001#32 }
  else if 0x100 ≤ w ∧ w < 0x130 then
    match fin? 3 ((w - 0x100) / 16) with
    | none => c
    | some k =>
      if w % 16 = 0 then { c with hsrc := upd c.hsrc k fun _ => x }
      else if w % 16 = 4 then { c with hdst := upd c.hdst k fun _ => x }
      else if w % 16 = 8 then { c with hlen := upd c.hlen k fun _ => x &&& 0x9FFF#32 }
      else { c with hstat := upd c.hstat k fun h => h &&& ~~~(x &&& 0x3E#32) }
  else c

/-! ### Address modes (R156, R157) -/

/-- circ(x) with the circular buffer of pointer n (R157); `x` is the exact sum. -/
def EngCtx.circ (c : EngCtx) (n : BitVec 4) (x : Int) : Int :=
  let b : Int := c.cb[idx8 n.toNat].toNat
  let l : Int := c.cl[idx8 n.toNat].toNat
  if l = 0 then x else if b + l ≤ x then x - l else if x < b then x + l else x

/-- Address used and new pointer of `a`n under a mode of Table 5.4, with the circular buffer of pointer `cn`; none for a
reserved combination. -/
def EngCtx.address (c : EngCtx) (m : MemOp) (n cn : BitVec 4) (size : Nat) : Option (Nat × Word) :=
  let p := c.getA n
  let step : Int := m.off.toInt * size
  let reg : Int := (c.getA (m.off.setWidth 4)).toInt
  match m.mode.toNat with
  | 0 => some (p.toNat, p)
  | 1 => some (p.toNat, BitVec.ofInt 32 (p.toNat + step))
  | 2 => some ((BitVec.ofInt 32 (p.toNat + step)).toNat, p)
  | 3 => some (p.toNat, BitVec.ofInt 32 (p.toNat + reg))
  | 4 => if 8 ≤ cn.toNat then none else some (p.toNat, BitVec.ofInt 32 (c.circ cn (p.toNat + step)))
  | 5 => if 8 ≤ cn.toNat then none else some (p.toNat, BitVec.ofInt 32 (c.circ cn (p.toNat + reg)))
  | _ => none

/-! ### Data space (Table 5.2, R151) -/

/-- What a data address names. -/
inductive Space where
  | dlm (a : Nat)
  | ctrl (a : Nat)
  | slot (a : Nat)
  | window (w : Fin 4) (a : Nat)
  | none
  deriving DecidableEq, Repr

/-- Classify an address after alignment to the element size (R151, R171). -/
def space (addr size : Nat) : Space :=
  let a := addr / size * size
  if a < 0x20000 then .dlm a
  else if 0x30000 ≤ a ∧ a < 0x31000 then .ctrl (a - 0x30000)
  else if 0x40000 ≤ a ∧ a < 0x41000 then .slot (a - 0x40000)
  else if 0x80000 ≤ a ∧ a < 0xC0000 then .window (idx4 ((a - 0x80000) / 0x10000)) ((a - 0x80000) % 0x10000)
  else .none

/-- Ports that the tasks of an engine need, with their slots. -/
def Engine.slotMap (e : Engine) : List (Nat × Nat) := e.table.flatMap (·.slots)

/-- The port mapped by a port slot of an engine (R154). -/
def Engine.slotPort (e : Engine) (s : Nat) : Option (Fin 64) :=
  (e.slotMap.find? fun x => x.2 == s).bind fun x => fin? 64 x.1

/-- The slot of an engine that maps a port. -/
def Engine.portSlot (e : Engine) (p : Fin 64) : Option Nat := (e.slotMap.find? fun x => x.1 == p.val).map (·.2)

/-- A word of a port slot (Table 7.3). -/
def Port.slotRead (p : Port) (off : Nat) : Word :=
  let w := off / 4
  if w < 16 then p.shadow[(⟨w % 16, Nat.mod_lt _ (by decide)⟩ : Fin 16)]
  else if w = 16 then BitVec.ofNat 32 p.armseq
  else
    match fin? 24 (w - 32) with
    | some k => if 32 ≤ w then p.record[k] else 0#32
    | none => 0#32

/-- Read one word of the control block or of a port slot. -/
def State.ioRead (s : State) (e : Fin 24) (sp : Space) (k : Nat) : Word :=
  match sp with
  | .ctrl a => (s.eng[e]).ctrlRead (a + 4 * k)
  | .slot a =>
    match (s.eng[e]).slotPort (a / 256) with
    | some p => (s.ports[p]).slotRead ((a + 4 * k) % 256)
    | none => 0#32
  | _ => 0#32

def leWord (bs : List Byte) : Word := BitVec.ofNat 32 (leNat bs)

/-- Read `4 × n` bytes as words from an address that does not stall; unmapped and CLM read zero (R151). -/
def State.dataRead (s : State) (e : Fin 24) (sp : Space) (n : Nat) : List Word :=
  match sp with
  | .dlm a => (List.range n).map (fun k => leWord ((s.eng[e]).dlm.readN (a + 4 * k) 4))
  | .ctrl _ | .slot _ => (List.range n).map (fun k => s.ioRead e sp k)
  | _ => List.replicate n 0#32

/-- A vector from four words. -/
def ofWords (ws : List Word) : BitVec 128 := ofLanes (ws.getD 0 0) (ws.getD 1 0) (ws.getD 2 0) (ws.getD 3 0)

/-- The bytes of words, little-endian. -/
def wordBytes (ws : List Word) : List Byte := (ws.map (fun w => leBytes 4 w.toNat)).flatten

end Sys2Proof.Machine
end

