-- ==== Sys2Proof/Machine/Engine.lean ====
section
/-!
DEFINITION. The exposed pipeline of a loop engine: issue, pending writes and the end of a word (R159 to R164); the dispatcher
(R165 to R169); traps, retries, retirement and migration (R146 to R148, R178, R510, R511).
-/
namespace Sys2Proof.Machine

/-- An instruction issues only while the engine neither stands still nor is halted for debug; a single step
lets one word of a halted engine issue. -/
def Engine.canIssue (e : Engine) : Bool := e.stall == .none && (!e.halted || e.stepOne) && e.role != .retired

/-- Queue a write that lands L cycles after issue. -/
def Engine.push (e : Engine) (l : Nat) (w : Write) : Engine := { e with pend := e.pend ++ [(l, w)] }

/-- Store accumulator lanes. -/
def setAcc (v : Vector (BitVec 72) 32) (n : BitVec 3) (x : Vector (BitVec 72) 4) : Vector (BitVec 72) 32 :=
  (List.finRange 4).foldl (fun v k =>
    v.set (4 * n.toNat + k.val) x[k] (by have := n.isLt; have := k.isLt; omega)) v

/-- Land one write. -/
def Engine.land (e : Engine) : Write → Engine
  | .v r x => { e with ctx := { e.ctx with v := upd e.ctx.v (idx32 r) fun _ => x } }
  | .lane r k x => { e with ctx := { e.ctx with v := upd e.ctx.v (idx32 r) fun y => setLane y k x } }
  | .a r x => { e with ctx := { e.ctx with a := upd e.ctx.a (idx16 r) fun _ => x } }
  | .acc n x => { e with ctx := { e.ctx with acc := setAcc e.ctx.acc n x } }
  | .accRd n x => { e with ctx := { e.ctx with accRd := setAcc e.ctx.accRd n x } }
  | .flagOr m => { e with ctx := { e.ctx with flags := e.ctx.flags ||| m } }
  | .flagF f => { e with ctx := { e.ctx with flags := (e.ctx.flags &&& 0xFFFFFFF0#32) ||| f.setWidth 32 } }
  | .dlm a bs => { e with dlm := e.dlm.writeN a bs }
  | .ctrl off x => { e with ctx := e.ctx.ctrlWrite off x }

/-- What the haul unit sets in a cycle stays set against a store that clears it in the same cycle (R11). -/
def EngCtx.keepSet (c : EngCtx) : EngCtx :=
  { c with hstat := Vector.ofFn fun k => c.hstat[k] ||| c.hset[k], hset := Vector.replicate 3 0 }

/-- One cycle passes: writes with one cycle left land, in issue order. -/
def Engine.cycle1 (e : Engine) : Engine :=
  let due := e.pend.filter (fun p => decide (p.1 ≤ 1))
  let rest := (e.pend.filter (fun p => !decide (p.1 ≤ 1))).map (fun p => (p.1 - 1, p.2))
  let e := (due.map (·.2)).foldl Engine.land { e with pend := rest }
  { e with ctx := e.ctx.keepSet }

/-- Several cycles pass. -/
def Engine.cycles (e : Engine) : Nat → Engine
  | 0 => e
  | n + 1 => e.cycle1.cycles n

/-- Every pending write lands. -/
def Engine.drain (e : Engine) : Engine := (e.pend.map (·.2)).foldl Engine.land { e with pend := [] }

/-- Step past the word at `PC` through the active loops: an iteration that is not the last starts again; bodies that end on
the same word close innermost first (R162). -/
def loopNext (pc : BitVec 16) : List LoopRec → List LoopRec × BitVec 16
  | [] => ([], pc + 8#16)
  | l :: ls =>
    if l.last = pc then
      (if 1 < l.left then ({ l with left := l.left - 1 } :: ls, l.start) else loopNext pc ls)
    else (l :: ls, pc + 8#16)

/-- Advance `PC` past the word just executed: repeats, then delay slots, then loops (R159, R161, R162). -/
def Engine.advance (e : Engine) : Engine :=
  if 1 < e.rpt then { e with rpt := e.rpt - 1 }
  else
    let e := { e with rpt := 0 }
    match e.delay with
    | some (1, some t) => { e with delay := none, ctx := { e.ctx with pc := t } }
    | some (n, t) =>
      { e with delay := if n ≤ 1 then none else some (n - 1, t), ctx := { e.ctx with pc := e.ctx.pc + 8#16 } }
    | none =>
      let r := loopNext e.ctx.pc e.loops
      { e with loops := r.1, ctx := { e.ctx with pc := r.2 } }

/-- The engine takes an interrupt at a word boundary (R166). -/
def Engine.interruptible (e : Engine) : Bool :=
  e.delay.isNone && e.rpt == 0 && e.loops.isEmpty && e.wload.isNone &&
    (match e.stall with | .none | .haul _ | .sync => true | _ => false)

/-! ### Dispatch (R165 to R168) -/

/-- The task of a rank. -/
def Engine.task? (e : Engine) (r : Nat) : Option Task := e.table[r]?

/-- Start a release: the dispatcher loads `a12` to `a15`, `PC`, `TASKID` and `RELT` (R167, Table 5.3). -/
def Engine.startRelease (e : Engine) (rank trig : Nat) (retried : Bool) : Engine :=
  match e.task? rank with
  | none => e
  | some t =>
    let slot : Word := if t.slot < 16 then BitVec.ofNat 32 (0x40000 + 0x100 * t.slot) else 0#32
    let a := (((e.ctx.a.set 12 (BitVec.ofNat 32 t.dlmBase)).set 13 slot).set 14
      (BitVec.ofNat 32 (0x20000 + t.cxBase))).set 15 (BitVec.ofNat 32 (0x28000 + t.cyBase))
    { e with
      ctx := { e.ctx with a := a, pc := BitVec.ofNat 16 t.pcEntry }
      run := some { rank := rank, trigTime := trig, retried := retried }
      taskid := BitVec.ofNat 32 (rank % 32 + t.prog % 65536 * 65536)
      relt := BitVec.ofNat 64 trig
      ctl := .seq, rpt := 0, loops := [], delay := none }

/-- Of the waiting triggers, the one of the highest rank. -/
def bestWaiting : List (Nat × Nat) → Option (Nat × Nat)
  | [] => none
  | w :: ws =>
    match bestWaiting ws with
    | none => some w
    | some b => if w.1 ≤ b.1 then some w else some b

/-- Let the dispatcher choose what runs: a waiting release of the highest rank, or the innermost preempted one (R165,
Table 5.12). A halted or retired engine dispatches nothing. -/
def Engine.schedule (e : Engine) : Engine :=
  if e.halted || e.role == .retired then e
  else
    match e.run with
    | some r =>
      match bestWaiting e.waiting with
      | some w =>
        if w.1 < r.rank ∧ e.interruptible = true then
          let e := e.drain
          let e := { e with
            preempted := (r, e.ctx) :: e.preempted, waiting := e.waiting.erase w, stall := .none, run := none }
          e.startRelease w.1 w.2 false
        else e
      | none => e
    | none =>
      match bestWaiting e.waiting, e.preempted with
      | some w, [] => ({ e with waiting := e.waiting.erase w }).startRelease w.1 w.2 false
      | some w, (r, c) :: ps =>
        if w.1 < r.rank then ({ e with waiting := e.waiting.erase w }).startRelease w.1 w.2 false
        else
          { e with
            run := some r, ctx := c, preempted := ps, relt := BitVec.ofNat 64 r.trigTime
            taskid := BitVec.ofNat 32 (r.rank % 32 + ((e.task? r.rank).map (·.prog)).getD 0 % 65536 * 65536) }
      | none, (r, c) :: ps =>
        { e with
          run := some r, ctx := c, preempted := ps, relt := BitVec.ofNat 64 r.trigTime
          taskid := BitVec.ofNat 32 (r.rank % 32 + ((e.task? r.rank).map (·.prog)).getD 0 % 65536 * 65536) }
      | none, [] => e

/-- A release of this rank has not ended: it runs, is preempted, or waits (R168). -/
def Engine.open? (e : Engine) (rank : Nat) : Bool :=
  (match e.run with | some r => r.rank == rank | none => false)
    || e.preempted.any (fun p => p.1.rank == rank) || e.waiting.any (fun w => w.1 == rank)

/-- Tasks that may be released now: none that is withdrawn (R148), none of kinds 0 to 2 in the safe state (R501), and none of an axis
in `DISABLED` or `READY` that is not energising (R144). -/
def State.mayRelease (s : State) (t : Task) : Bool :=
  if t.withdrawn then false
  else if 3 ≤ t.kind then true
  else
    !s.safeState &&
      (match fin? 512 t.axis with
       | none => true
       | some i =>
         match s.axes[i].st with
         | .disabled | .ready => s.axes[i].energ != .off
         | .retired => false
         | _ => true)

/-! ### Haul transfers (R173 to R177) -/

/-- Local bytes of an engine: DLM or CLM (R173). -/
def Engine.localRead (e : Engine) (a n : Nat) : List Byte :=
  if a < 0x20000 then e.dlm.readN a n
  else if a < 0x28000 then e.clmX.readN (a - 0x20000) n
  else if a < 0x30000 then e.clmY.readN (a - 0x28000) n
  else zeros n

def Engine.localWrite (e : Engine) (a : Nat) (bs : List Byte) : Engine :=
  if a < 0x20000 then { e with dlm := e.dlm.writeN a bs }
  else if a < 0x28000 then { e with clmX := e.clmX.writeN (a - 0x20000) bs }
  else if a < 0x30000 then { e with clmY := e.clmY.writeN (a - 0x28000) bs }
  else e

/-- Sequence word of a checkpoint area: two slots and a sequence word (R176); the word lies first, the slots follow at +16
(as in the mailboxes of Table 15.4). -/
def ckptSeq (x : Xr) (t : Task) : Nat := leNat (x.read t.ckpt 4)

def ckptSlot (t : Task) (n : Nat) : Nat := t.ckpt + 16 + (n % 2) * t.stateLen

/-- State block of the last published checkpoint. -/
def ckptState (x : Xr) (t : Task) : List Byte := x.read (ckptSlot t (ckptSeq x t)) t.stateLen

/-- The transfer queue holds 128 transfers (R173); one more finds no place (log 101). -/
def Engine.enqueue (e : Engine) (q : Transfer) : Engine := if e.queue.length < 128 then { e with queue := e.queue ++ [q] } else e

/-- Queue the checkpoint transfer of a task (R176): it goes to the slot that is not published when its turn comes. -/
def Engine.queueCkpt (e : Engine) (x : Xr) (rank : Nat) : Engine :=
  match e.task? rank with
  | none => e
  | some t =>
    if t.stateLen = 0 then e
    else
      e.enqueue { rank := rank, chan := none, src := t.dlmBase + t.stateOff, dst := ckptSlot t (ckptSeq x t + 1)
                  words := t.stateLen / 8, toXr := true }

/-- End of a release (R176, Table 5.12). -/
def State.endRelease (s : State) (e : Fin 24) : State :=
  let x := s.eng[e]
  match x.run with
  | none => s.updEng e Engine.schedule
  | some r =>
    s.updEng e fun x =>
      ({ (x.queueCkpt s.xr r.rank) with run := none, ctl := .seq, rpt := 0, loops := [], delay := none }).schedule

/-! ### Traps, retries and retirement -/

/-- The release in progress is dropped with what the pipeline still held of it. -/
def Engine.abandon (e : Engine) : Engine :=
  { e with run := none, pend := [], ctl := .seq, rpt := 0, loops := [], delay := none, stall := .none, wload := none,
           wblocked := none }

/-- LECLK cycles as whole ns, rounded up. -/
def cyclesNs (c : Nat) : Nat := ceilDiv (c * 5) 6

/-- Time a retry needs (R510): C′ plus 24 FABCLK (40 ns) for each word of the state block. -/
def retryNs (t : Task) : Nat := cyclesNs t.cPrime + 40 * (t.stateLen / 8)

/-- The lowest-numbered hard shoulder that is available (R146): not one that a migration has selected. -/
def State.shoulder (s : State) : Option (Fin 24) :=
  allEngines.find? (fun e => s.eng[e].role == .shoulder && !s.eng[e].halted && allEngines.all fun f => s.eng[f].migrateTo != some e)

/-- Axes with a task on an engine. -/
def Engine.axesOf (e : Engine) : List Nat := ((e.table.filter (fun t => decide (t.axis < 512))).map (·.axis)).eraseDups

/-- Axes of which a task on the engine is `NO_RIDE` (R147). -/
def Engine.noRideAxes (e : Engine) : List Nat :=
  ((e.table.filter (fun t => decide (t.axis < 512) && t.noRide)).map (·.axis)).eraseDups

/-- No hard shoulder takes the tasks of a failed engine (R148): every axis with one takes C4 and is retired, and the device withdraws
the tasks. -/
def State.loseTasks (s : State) (e : Fin 24) (t0 : Nat) : State :=
  let x := s.eng[e]
  let s := s.updEng e fun x => { x with waiting := [], masked := [], lost := [], preempted := [], migrateTo := none }
  let s := (x.axesOf.filterMap (fin? 512)).foldl (fun s i => (s.raiseAxis i 0x0B04 4 e.val).enterRetired i) s
  let s := s.updCfg fun c => { c with tasks := c.tasks.filter (fun t => t.engine != e.val) }
  s.retireEvent .engine e.val 0xFF t0 (x.table.map (fun t => retireEntry t 2 0 0))

/-- The hard shoulder that a migration had selected fails as well: the lowest-numbered one left takes its place, or none does. -/
def State.reselect (s : State) (h : Fin 24) : State :=
  match allEngines.find? fun f => s.eng[f].migrateTo == some h with
  | none => s
  | some f =>
    match s.shoulder with
    | some g => s.updEng f fun x => { x with migrateTo := some g }
    | none => s.loseTasks f (s.eng[f]).migrateT0

/-- An engine is declared permanently faulty (R146 to R148, R511): it halts and is cut off; with a hard shoulder a migration
starts and axes with a `NO_RIDE` task take C4, without one every axis takes C4 and is retired. -/
def State.retireEngine (s : State) (e : Fin 24) : State :=
  let x := s.eng[e]
  if x.role = .retired then s
  else
    let t0 := s.now
    let s := s.updFaults fun f => { f with enginesRetired := f.enginesRetired ||| 2 ^ e.val }
    let s := s.raise { code := 0x0B03, cls := 1, scope := .engine, unit := e.val, detail := e.val, permanent := true }
    if x.role = .shoulder then
      ((s.updEng e fun x => { x.abandon with role := .retired }).retireEvent .engine e.val 0xFF t0 []).reselect e
    else
      match s.shoulder with
      | some h =>
        let s := s.updEng e fun x =>
          { x.abandon with
            role := .retired, migrateTo := some h, migrateT0 := t0, masked := x.waiting, waiting := []
            lost := (x.run.map (·.rank)).toList ++ x.preempted.map (·.1.rank), preempted := [] }
        (x.noRideAxes.filterMap (fin? 512)).foldl (fun s i => s.raiseAxis i 0x0B03 4 e.val) s
      | none => (s.updEng e fun x => { x.abandon with role := .retired }).loseTasks e t0

/-- A trap of an engine (R178): kind 1 ECC, 2 decode, 3 stack, 4 deadline. The release is abandoned without a checkpoint; it
is released again when the time left to D allows (R510); the third upset within 1 s retires the engine (R511). A deadline
overrun that a retry caused counts as no upset (R512). -/
def State.trap (s : State) (e : Fin 24) (kind : Nat) (consequential : Bool := false) : State :=
  let s := s.strobe 7 e.val
  let x := s.eng[e]
  let r := x.run
  let t := r.bind (fun r => x.task? r.rank)
  let (s, third) := if consequential then (s, false) else s.upset .engine e.val
  let canRetry : Bool :=
    match r, t with
    | some r, some t =>
      !third && !r.retried && kind != 4 && decide (s.now - r.trigTime + retryNs t ≤ t.dNs)
    | _, _ => false
  let s := if third then s else s.updEng e fun x => x.abandon
  let s := s.raise { code := 0x0B01, cls := 1, scope := .engine, unit := e.val, detail := e.val + 256 * kind,
                     retried := canRetry, permanent := third, consequential := consequential }
  if third then s.retireEngine e
  else
    match canRetry, r, t with
    | true, some r, some t =>
      s.updEng e fun x =>
        let x := if t.stateLen = 0 then x else x.localWrite (t.dlmBase + t.stateOff) (ckptState s.xr t)
        x.startRelease r.rank r.trigTime true
    | _, _, _ => s.updEng e Engine.schedule

/-! ### End of a word -/

/-- The last slot of a word has been named: its control slot acts, cycles pass, and `PC` moves (R159 to R162). -/
def State.wordEnd (s : State) (e : Fin 24) : State :=
  let x := s.eng[e]
  let c := x.ctl
  let s := s.updEng e fun x => { x with ctl := .seq }
  match c with
  | .seq => s.updEng e fun x => x.cycle1.advance.schedule
  | .rpt n =>
    s.updEng e fun x =>
      let x := x.cycle1.advance
      (if n = 0 then x.advance else { x with rpt := n }).schedule
  | .loop body n =>
    s.updEng e fun x =>
      let x := x.cycle1
      let start := x.ctx.pc + 8#16
      let last := start + BitVec.ofNat 16 (8 * (body - 1))
      (if n = 0 then { x with ctx := { x.ctx with pc := last } }.advance
       else { x with loops := { start := start, last := last, left := n } :: x.loops,
                     ctx := { x.ctx with pc := start } }).schedule
  | .branch t push pop =>
    if push && decide (4 ≤ x.ctx.rstack.length) then s.trap e 3
    else if pop && x.ctx.rstack.isEmpty then s.trap e 3
    else
      s.updEng e fun x =>
        let ret := x.ctx.pc + 24#16
        let st := if push then ret :: x.ctx.rstack else if pop then x.ctx.rstack.drop 1 else x.ctx.rstack
        let x := x.cycle1.advance
        ({ x with ctx := { x.ctx with rstack := st }, delay := some (2, t) })
  | .haulWait k =>
    if (x.ctx.hstat[k]).getLsbD 0 then
      s.updEng e fun x => ({ x.cycle1 with stall := .haul k }).schedule
    else s.updEng e fun x => x.cycle1.advance.schedule
  | .sync =>
    if x.wbuf.isEmpty then s.updEng e fun x => x.cycle1.advance.schedule
    else s.updEng e fun x => ({ x.cycle1 with stall := .sync }).schedule
  | .endRel => (s.updEng e fun x => (x.cycles 6).advance.drain).endRelease e
  | .trap k => s.trap e k

/-- The slot has been issued: if it is the last of its word, the word ends, unless a window load or a store that found the
write buffer full holds it (R172). -/
def State.issued (s : State) (i : Issue) : State :=
  if i.last then
    (let s := s.updEng i.e fun x => { x with stepOne := false }
     if (s.eng[i.e]).wload.isSome then s.updEng i.e fun x => { x with stall := .load }
     else if (s.eng[i.e]).wblocked.isSome then s.updEng i.e fun x => { x with stall := .store }
     else s.wordEnd i.e)
  else s

/-- Count corrected words (R153). -/
def State.countEcc (s : State) (e : Fin 24) (n : Nat) : State :=
  s.updEng e fun x => { x with eccCnt := BitVec.ofNat 32 (min (x.eccCnt.toNat + n) (2 ^ 32 - 1)) }

/-- Issue a slot: corrected words are counted and an uncorrectable one traps (R153, R178), and so does a word with a reserved format
or code (R178); a stalled or halted engine issues nothing. -/
def State.issueS (s : State) (i : Issue) (f : State → State) : State :=
  if !(s.eng[i.e]).canIssue then s
  else
    match i.ecc with
    | .double => (s.countEcc i.e i.more.toNat).trap i.e 1
    | .corrected => if i.bad then (s.countEcc i.e (i.more.toNat + 1)).trap i.e 2 else (f (s.countEcc i.e (i.more.toNat + 1))).issued i
    | .ok => if i.bad then s.trap i.e 2 else (f s).issued i

/-- Issue a slot that acts on its engine alone. -/
def State.issue (s : State) (i : Issue) (f : Engine → Engine) : State := s.issueS i fun s => s.updEng i.e f

/-- An instruction word that decodes as reserved traps at run time (R178). -/
def Engine.badWord (e : Engine) : Engine := { e with ctl := .trap 2 }

end Sys2Proof.Machine
end

