-- ==== Sys2Proof/Machine/Ports.lean ====
section
/-!
DEFINITION. Operations on bridge ports: the requested state of each switch, refresh, interlock, output priority (R227 to R236),
and trips (R240 to R244).
-/
namespace Sys2Proof.Machine

/-- P, the carrier period in PWMCLK ticks. -/
def State.period (s : State) (p : Fin 64) : Nat := s.pt P.ptPeriod p

/-- Carrier position in ticks from the period start, at a tick (R222). -/
def State.carrierAt (s : State) (p : Fin 64) (t : Nat) : Nat :=
  let n := s.period p
  if n = 0 then 0 else (t + n - s.pt P.ptPhase p % n) % n

/-- Carrier position now. -/
def State.carrierPos (s : State) (p : Fin 64) : Nat := s.carrierAt p s.ticks

def State.centre (s : State) (p : Fin 64) : Bool := s.pt P.ptCarrier p == 0

/-- The port uses the edge format: only an `INDEPENDENT` port has it (Table 7.1). -/
def State.edgeFmt (s : State) (p : Fin 64) : Bool := s.pt P.ptShadowfmt p == 1 && s.pt P.ptKind p == 3
def State.bootstrap (s : State) (p : Fin 64) : Bool := s.pt P.ptBootstrap p == 1

/-- d_cap as ticks of a period: P − t_ref − t_dead (R231). -/
def State.capTicks (s : State) (p : Fin 64) : Nat := s.period p - s.pt P.ptReftime p - s.pt P.ptDeadtime p

/-- d_cap (R231), 1 for a port that is not `BOOTSTRAP`. -/
def State.dutyCap (s : State) (p : Fin 64) : Rat :=
  if s.bootstrap p && s.period p != 0 then
    1 - ((s.pt P.ptReftime p + s.pt P.ptDeadtime p : Nat) : Rat) / (s.period p : Rat)
  else 1

/-! ### The modulator clock (R184, R544) -/

/-- Ticks of an `SDC` period that have passed at a tick: it begins with a rising edge at every carrier extremum (R184). -/
def State.sdcPhase (s : State) (p : Fin 64) (t : Nat) : Nat :=
  let n := if s.centre p then s.period p / 2 else s.period p
  let x := s.carrierAt p t
  (if n = 0 then x else x % n) % s.pt P.ptSddiv p

/-- Ticks for which `SDC` is high in each period (R544). -/
def State.sdcHigh (s : State) (p : Fin 64) : Nat := (s.pt P.ptSddiv p + 1) / 2

/-- The level of `Pnn_SDC`; it is stopped, low, on an `UNUSED` port (Table 7.1). -/
def State.sdc (s : State) (p : Fin 64) : Bool := s.pt P.ptKind p != 0 && decide (s.sdcPhase p s.ticks < s.sdcHigh p)

/-- The port samples its data lines at this tick: the `SDC` edge that `PT.SDEDGE` selects (R184, R544). -/
def State.sdStrobe (s : State) (p : Fin 64) : Bool :=
  s.pt P.ptKind p != 0 && s.sdcPhase p s.ticks == (if s.pt P.ptSdedge p = 0 then 0 else s.sdcHigh p)

/-- y of a window of one of the port's data lines (R186). -/
def State.decimate (s : State) (p : Fin 64) (w : Nat) : Nat := sinc3 (s.pt P.ptSdosr p) (s.pt P.ptSdedge p) w

/-- Legs that refresh and cap apply to (R232). -/
def State.refreshLeg (s : State) (p : Fin 64) (k : Nat) : Bool :=
  s.bootstrap p && (if s.pt P.ptKind p = 1 then decide (k < 3) else s.pt P.ptKind p != 0)

/-- Legs that a port kind uses (Table 7.1). -/
def State.usedLeg (s : State) (p : Fin 64) (k : Nat) : Bool :=
  match s.pt P.ptKind p with
  | 0 => false
  | 1 => decide (k < 3)
  | _ => true

def Port.word (v : Vector Word 16) (k : Nat) : Word := v[(⟨k % 16, Nat.mod_lt _ (by decide)⟩ : Fin 16)]

/-- `ONT` of a leg: above 32P it is taken as 32P (R227). -/
def ontOf (w : Word) (per : Nat) : Nat := min (w.toNat % 2 ^ 22) (32 * per)

def modeOf (w : Word) : Nat := w.toNat / 2 ^ 30

/-- `ONT` at capture: full on stays full on, otherwise the cap applies on the legs it covers (R231). -/
def State.capOnt (s : State) (p : Fin 64) (k : Nat) (w : Word) : Nat :=
  let o := ontOf w (s.period p)
  if s.refreshLeg p k && o != 32 * s.period p then min o (32 * s.capTicks p) else o

/-! ### The chopper set of a `STEP2` port (R328, Table 10.8) -/

def chopCtl (v : Vector Word 16) : Nat := (Port.word v 6).toNat

/-- `UP` of winding 0 or 1. -/
def chopUp (v : Vector Word 16) (w : Nat) : Int := signed 16 (Port.word v (4 + w)).toNat

/-- `LO` of winding 0 or 1. -/
def chopLo (v : Vector Word 16) (w : Nat) : Int := signed 16 ((Port.word v (4 + w)).toNat / 65536)

/-- `MODE` of a winding: 0b01 when its legs differ (R328). -/
def windMode (v : Vector Word 16) (w : Nat) : Nat :=
  let a := modeOf (Port.word v (2 * w))
  if a = modeOf (Port.word v (2 * w + 1)) then a else 1

/-- The chopper drives the legs of a winding (R328). -/
def chopped (kind : Nat) (v : Vector Word 16) (w : Nat) : Bool := kind == 2 && !bit (chopCtl v) 6 && windMode v w == 0

/-- Winding of a leg. -/
def legWind (k : Nat) : Nat := k / 2

/-- State of a winding's chopper after a set has been captured, at tick `t` (R329, Table 10.9). -/
def Chop.take (c : Chop) (v : Vector Word 16) (w t : Nat) : Chop :=
  let up := chopUp v w
  let neg := decide (up < 0)
  if bit (chopCtl v) (4 + w) || windMode v w != 0 then { c with st := .off }
  else if up = 0 then { c with st := .zero }
  else
    match c.st with
    | .off | .zero => { c with st := .drive, neg := neg, at_ := t, offDone := false }
    | _ => if c.neg = neg then c else { c with st := .drive, neg := neg, at_ := t, offDone := false }

/-- Requested state (high, low) of a leg by its winding's chopper (Table 10.9); `second` is leg B or D. -/
def Chop.request (c : Chop) (second : Bool) : Bool × Bool :=
  if c.hold then (false, true)
  else
    match c.st with
    | .drive => if second == c.neg then (true, false) else (false, true)
    | .decayFast => if second == c.neg then (false, true) else (true, false)
    | .decaySlow | .zero => (false, true)
    | .off => (false, false)

/-- Chopper of a winding. -/
def Port.chop (x : Port) (w : Nat) : Chop := if w = 0 then x.chop1 else x.chop2

def Port.setChop (x : Port) (w : Nat) (c : Chop) : Port := if w = 0 then { x with chop1 := c } else { x with chop2 := c }

/-- The captured set: every complementary leg clamped, and whether a clamp acted (R231); on-times the chopper ignores stay. -/
def State.capture (s : State) (p : Fin 64) : Vector Word 16 × Bool :=
  let v := (s.ports[p]).shadow
  if s.edgeFmt p then (v, false)
  else
    (List.range 4).foldl (fun (r : Vector Word 16 × Bool) k =>
      let w := Port.word v k
      let o := if chopped (s.pt P.ptKind p) v (legWind k) then ontOf w (s.period p) else s.capOnt p k w
      let w' : Word := BitVec.ofNat 32 (o + modeOf w * 2 ^ 30)
      (upd r.1 ⟨k % 16, Nat.mod_lt _ (by decide)⟩ (fun _ => w'),
        r.2 || (modeOf w == 0 && o != ontOf w (s.period p)))) (v, false)

/-- An edge position in taps as the port places it: in the fallback of R235 its fraction is rounded down. -/
def placed (whole : Bool) (x : Nat) : Nat := if whole then x / 32 * 32 else x

/-- Start and end in taps of the on-interval of a high side (R227). -/
def onInterval (centre : Bool) (per : Nat) (w : Word) : Nat × Nat :=
  let o := ontOf w per
  let b := if centre then (32 * per - o) / 2 else 0
  (b, b + o)

/-- Requested state (high, low) of a leg from a complementary word at position x in taps (R227, Table 7.3). -/
def legRequest (centre : Bool) (per : Nat) (w : Word) (whole : Bool) (x : Nat) : Bool × Bool :=
  match modeOf w with
  | 0 =>
    let iv := onInterval centre per w
    let h := decide (placed whole iv.1 ≤ x) && decide (x < placed whole iv.2)
    (h, !h)
  | 2 => (false, true)
  | _ => (false, false)

/-- Position in taps of a word of the edge format. -/
def edgePos (w : Word) : Nat := w.toNat % 2 ^ 22

/-- Requested state of one switch in the edge format (R227); `EN` is that of the ON word (log 13). -/
def edgeRequest (on off : Word) (whole : Bool) (x : Nat) : Bool :=
  on.getLsbD 31 && decide (edgePos on < edgePos off) && decide (placed whole (edgePos on) ≤ x)
    && decide (x < placed whole (edgePos off))

/-- Force code of a leg (Table 7.7). -/
def forceCode (f k : Nat) : Nat := f / 4 ^ k % 4

/-- The shadow acts: the axis's bridge is on under Table 1.7, or the port is `INDEPENDENT`; and a set is in force (R223). -/
def State.shadowOn (s : State) (p : Fin 64) : Bool :=
  let x := s.ports[p]
  !x.waiting &&
  (match s.axisOf p with
   | some i =>
     match s.axes[i].st with
     | .enabledIdle | .moving | .homing | .stopping => true
     | .ready => s.axes[i].energ == .init || s.axes[i].energ == .running
     | _ => false
   | none => s.pt P.ptKind p == 3)

/-- The bootstrap precharge of an energising axis holds the low sides on (R233). -/
def State.precharging (s : State) (p : Fin 64) : Bool :=
  s.bootstrap p &&
  (match s.axisOf p with
   | some i => s.axes[i].st == .ready && s.axes[i].energ == .precharge
   | none => false)

/-- Highest-ranked active source of Table 7.5 for a leg; 0 when none. -/
def State.rank (s : State) (p : Fin 64) (k : Nat) : Nat :=
  let x := s.ports[p]
  if s.boot.safePath || s.tg.pad.getLsbD p.val then 1
  else if x.trip != .armed || x.upsetOff then 2
  else if x.shorting then 3
  else if x.offFault || x.offReset || x.offRetired then 4
  else if x.haltOff || x.frozen.isSome then 5
  else if forceCode x.force k ≠ 0 ∧ s.usedLeg p k = true then 6
  else if s.shadowOn p || s.precharging p then 7
  else 0

/-- The leg is full on in the set in force or by force, which the refresh of R231 counts. -/
def State.fullOnLeg (s : State) (p : Fin 64) (k : Nat) : Bool :=
  match s.rank p k with
  | 6 => forceCode (s.ports[p]).force k == 2
  | 7 =>
    let w := Port.word (s.ports[p]).inForce k
    !s.edgeFmt p && modeOf w == 0 && ontOf w (s.period p) == 32 * s.period p
      && !chopped (s.pt P.ptKind p) (s.ports[p]).inForce (legWind k)
  | _ => false

/-- Number of the next period in the run of full-on periods: the run starts again after its `PT.REFK`-th. -/
def State.nextFullOn (s : State) (p : Fin 64) (k : Fin 4) : Nat :=
  if s.fullOnLeg p k.val && s.refreshLeg p k.val then
    (let n := (s.ports[p]).fullOn[k]
     if s.pt P.ptRefk p ≤ n then 1 else n + 1)
  else 0

/-- A refresh holds the high side of the leg off now: t_ref + 2 t_dead centred on the start of a refreshed period (R231). -/
def State.refreshNow (s : State) (p : Fin 64) (k : Fin 4) : Bool :=
  let w := s.pt P.ptReftime p + 2 * (s.ports[p]).dead
  let x := s.carrierPos p
  let kk := s.pt P.ptRefk p
  s.refreshLeg p k.val && s.fullOnLeg p k.val &&
    ((decide ((s.ports[p]).fullOn[k] = kk) && decide (2 * x < w)) ||
     (decide (s.nextFullOn p k = kk) && decide (2 * (s.period p - x) ≤ w)))

/-- Requested state (high, low) of a leg by its highest-ranked source at a fraction of the present tick in taps, before interlock
(R236). The active short begins t_dead after its C5 reaction. -/
def State.request (s : State) (p : Fin 64) (k : Fin 4) (f : Nat := 0) : Bool × Bool :=
  let x := s.ports[p]
  let pos := 32 * s.carrierPos p + f
  match s.rank p k.val with
  | 3 => (false, decide (k.val < 3) && decide (x.shortAt + x.dead ≤ s.ticks))
  | 6 =>
    if s.refreshNow p k then (false, true)
    else match forceCode x.force k.val with | 2 => (true, false) | 3 => (false, true) | _ => (false, false)
  | 7 =>
    if s.precharging p then (false, s.usedLeg p k.val)
    else if s.edgeFmt p then
      (edgeRequest (Port.word x.inForce (4 * k.val)) (Port.word x.inForce (4 * k.val + 1)) x.dlFallback pos,
       edgeRequest (Port.word x.inForce (4 * k.val + 2)) (Port.word x.inForce (4 * k.val + 3)) x.dlFallback pos)
    else if !s.usedLeg p k.val then (false, false)
    else if chopped (s.pt P.ptKind p) x.inForce (legWind k.val) then (x.chop (legWind k.val)).request (k.val % 2 == 1)
    else if s.pt P.ptKind p = 2 ∧ windMode x.inForce (legWind k.val) = 1 then (false, false)
    else if s.refreshNow p k then (false, true)
    else legRequest (s.centre p) (s.period p) (Port.word x.inForce k.val) x.dlFallback pos
  | _ => (false, false)

/-- The leg bypasses the interlock (R229). -/
def State.bothOnLeg (s : State) (p : Fin 64) (k : Nat) : Bool :=
  s.pt P.ptKind p == 3 && bit (s.pt P.ptBothon p) k

/-- The interlock of one leg (R228, R229): present levels, taps since each switch went off, dead time in taps, request. The result is
the new levels and whether both switches were requested. -/
def interlock (h l : Bool) (offH offL dead : Nat) (r : Bool × Bool) : Bool × Bool × Bool :=
  match r with
  | (true, true) => if h then (true, false, true) else if l then (false, true, true) else (false, false, true)
  | (true, false) => (h || decide (dead ≤ if l then 0 else offL), false, false)
  | (false, true) => (false, l || decide (dead ≤ if h then 0 else offH), false)
  | (false, false) => (false, false, false)

def sw (k : Fin 4) (low : Bool) : Fin 8 := ⟨2 * k.val + b2n low, by have := k.isLt; cases low <;> simp [b2n] <;> omega⟩

/-- New levels of the two switches of a leg, and the overlap request. -/
def State.legNext (s : State) (p : Fin 64) (k : Fin 4) (f : Nat := 0) : Bool × Bool × Bool :=
  let x := s.ports[p]
  let r := s.request p k f
  if s.bothOnLeg p k.val then (r.1, r.2, false)
  else
    interlock (x.gate.getLsbD (2 * k.val)) (x.gate.getLsbD (2 * k.val + 1)) x.offT[sw k false] x.offT[sw k true] (32 * x.dead) r

/-- New levels of all eight outputs: rank 1 acts at the pads, rank 2 as a gate, rank 5 holds a frozen port (Table 7.5). -/
def State.gateNext (s : State) (p : Fin 64) (f : Nat := 0) : BitVec 8 :=
  let x := s.ports[p]
  if s.rank p 0 ≤ 2 ∧ s.rank p 0 ≠ 0 then 0
  else if s.rank p 0 = 5 then (if x.haltOff then 0 else x.frozen.getD 0)
  else
    BitVec.ofNat 8 (ofBools ((List.finRange 4).flatMap fun k => let r := s.legNext p k f; [r.1, r.2.1]))

/-- Evaluate the outputs of a port at a fraction of the present tick in taps (R236): levels, off times, edges, overlaps (R229). -/
def State.portEval (s : State) (p : Fin 64) (f : Nat := 0) : State :=
  let x := s.ports[p]
  let g := s.gateNext p f
  let ov : BitVec 4 := BitVec.ofNat 4 (ofBools ((List.finRange 4).map fun k =>
    decide (5 < s.rank p k.val) && (s.legNext p k f).2.2))
  let fresh := (ov &&& ~~~x.overlapNow) != 0
  let s := s.updPort p fun x =>
    { x with
      gate := g
      offT := Vector.ofFn fun k => if g.getLsbD k.val then 0 else if x.gate.getLsbD k.val then 0 else x.offT[k]
      lastEdge := if g = x.gate then x.lastEdge else 32 * s.ticks + f
      overlapNow := ov
      overlap := x.overlap || fresh
      overlapRead := x.overlapRead || fresh
      overlapCount := if fresh then satInc 32 x.overlapCount else x.overlapCount }
  if fresh then
    (let old := (s.ports[p]).overlapAt
     let s := s.updPort p fun x => { x with overlapAt := s.now + 1 }
     if old = 0 ∨ old + 100000000 ≤ s.now then s.raisePort p 0x0105 1 else s)
  else s

/-! ### Time passing on a port (R227, R228, R330, R331) -/

/-- On-times of the high sides, and how long each low side has been on, `d` taps later. -/
def Port.account (x : Port) (reftime d : Nat) : Port :=
  let run : Vector Nat 4 := Vector.ofFn fun k => if x.gate.getLsbD (2 * k.val + 1) then x.lowRun[k] + d else 0
  { x with
    onAcc := Vector.ofFn fun k => if x.gate.getLsbD (2 * k.val) then x.onAcc[k] + d else x.onAcc[k]
    lowRun := run
    lowSeen := x.lowSeen ||| BitVec.ofNat 4 (ofBools ((List.finRange 4).map fun k => decide (32 * reftime ≤ run[k]))) }

/-- The port moves on to a tap of the running tick; tap 32 is tap 0 of the next. -/
def State.portAdvance (s : State) (p : Fin 64) (f : Nat) : State :=
  let d := f - (s.ports[p]).tap
  s.updPort p fun x =>
    let x := { x with tap := f % 32, offT := x.offT.map (fun n => min 262144 (n + d)) }
    if s.pt P.ptKind p = 2 then x.account (s.pt P.ptReftime p) d else x

/-- Positions in taps at which the request of a leg may change (R227). -/
def State.legMarks (s : State) (p : Fin 64) (k : Nat) : List Nat :=
  let v := (s.ports[p]).inForce
  if s.edgeFmt p then (List.range 4).map fun j => edgePos (Port.word v (4 * k + j))
  else
    let iv := onInterval (s.centre p) (s.period p) (Port.word v k)
    [iv.1, iv.2]

/-- Fractions of the present tick, in taps and ascending, at which an output of the port may change: edges of the set in force, and the
ends of dead times. In the fallback of R235 there is none. -/
def State.cuts (s : State) (p : Fin 64) : List Nat :=
  let x := s.ports[p]
  if s.pt P.ptKind p = 0 ∨ x.dlFallback = true then []
  else
    let at_ := 32 * s.carrierPos p
    let marks := (List.range 4).flatMap (s.legMarks p)
    let ends := x.offT.toList.map fun n => 32 * x.dead - n
    let fs := (marks.filterMap fun m => if at_ < m ∧ m < at_ + 32 then some (m - at_) else none)
      ++ ends.filter fun m => decide (0 < m) && decide (m < 32)
    if fs.isEmpty then [] else (List.range 32).filter fun f => fs.contains f

/-- An edge at a fraction of the tick, with the tap of the delay line that the table gives it (R234). -/
def State.portFraction (s : State) (p : Fin 64) (f : Nat) : State :=
  let g := (s.ports[p]).gate
  let s := (s.portAdvance p f).portEval p f
  s.updPort p fun x => if x.gate = g then x else { x with subEdges := x.subEdges ++ [(f, x.dlTab.getD f 0, x.gate)] }

/-- The rest of the running tick, up to the next. -/
def State.portSub (s : State) (p : Fin 64) : State :=
  ((s.cuts p).foldl (fun s f => s.portFraction p f) (s.updPort p fun x => { x with subEdges := [] })).portAdvance p 32

/-- The refresh of R330 for one winding: held from t_ref / 2 + t_dead before a period start to as much after it, when a low side
of its legs has not been on for `PT.REFTIME` in the period. -/
def State.chopHold (s : State) (p : Fin 64) (w : Nat) : State :=
  let x := s.ports[p]
  let c := x.chop w
  let win := s.pt P.ptReftime p + 2 * x.dead
  let pos := s.carrierPos p
  let due := s.bootstrap p && chopped (s.pt P.ptKind p) x.inForce w
    && !(x.lowSeen.getLsbD (2 * w) && x.lowSeen.getLsbD (2 * w + 1))
    && decide (2 * (s.period p - pos) ≤ win)
  if due && !c.hold then s.updPort p fun x => ({ x with refresh := true }).setChop w { c with hold := true }
  else if c.hold && decide (win ≤ 2 * pos) && decide (2 * pos < s.period p) then
    s.updPort p fun x => x.setChop w { c with hold := false }
  else s

/-- The refresh of R330 at a tick. -/
def State.stepTick (s : State) (p : Fin 64) : State :=
  if s.pt P.ptKind p = 2 then (s.chopHold p 0).chopHold p 1 else s

/-- A force accepted for an instant of line time takes effect when it has come (R92, R239). -/
def State.takeForce (s : State) (p : Fin 64) : State :=
  match (s.ports[p]).forceNext with
  | some (some t, f) => if t.1 ≤ s.now then s.updPort p fun x => { x with force := f, forceNext := none } else s
  | _ => s

/-- The outputs of a port at a new tick. -/
def State.portTick (s : State) (p : Fin 64) : State := ((s.takeForce p).stepTick p).portEval p

/-! ### Prerequisites and trips -/

/-- The bound axis follows a change of its port's prerequisites (R29, R243). -/
def State.portPrereq (s : State) (p : Fin 64) : State :=
  match s.axisOf p with
  | some i => s.prereqChange i
  | none => s

/-- The port enters `LATCHED` (Table 7.9). -/
def State.latch (s : State) (p : Fin 64) (cause : Nat) : State :=
  s.updPort p fun x =>
    { x with trip := .latched, cause := cause, clearing := false, newTrip := false, tripSeen := true }

/-- The run count reaches `PT.CBCMAX` (Table 7.9). -/
def State.escalate (s : State) (p : Fin 64) (m : Nat) : State :=
  (s.latch p (m ||| 32)).raisePort p 0x0101 4 (m % 16 + 256)

/-- A comparator trips the port (R240, R241, Table 7.9). -/
def State.compTrip (s : State) (p : Fin 64) (m : Nat) : State :=
  let s := s.updPort p fun x => { x with tripCount := satInc 32 x.tripCount, tripSeen := true }
  let s := match (s.ports[p]).trip with
    | .armed =>
      if s.pt P.ptTripmode p = 0 then (s.latch p m).raisePort p 0x0101 4 m
      else
        let s := s.updPort p fun x => { x with trip := .cbc, cbcRun := 1, cause := m, newTrip := false }
        let s := if s.mayRaise 0x0102 p.val then (s.noteRaise 0x0102 p.val).raisePort p 0x0102 1 else s
        if s.pt P.ptCbcmax p ≤ 1 then s.escalate p m else s
    | .cbc => s.updPort p fun x => { x with newTrip := true }
    | .latched => s
  (s.portEval p).portPrereq p

/-- Enabled comparators of a mask (`PT.SNSEN`). -/
def State.enabledComps (s : State) (p : Fin 64) (m : BitVec 4) : Nat := m.toNat &&& s.pt P.ptSnsen p

/-- Of tasks of one program, the lowest-indexed. -/
def lowestSub : List Task → Option Task
  | [] => none
  | t :: ts => match lowestSub ts with | some u => if u.sub < t.sub then some u else some t | none => some t

/-- The task that writes the shadow of a port (R220): the current task of the bound axis, or the lowest-indexed task of the program
in `PT.OWNER` that declares `PORT`. -/
def State.ownerTask (s : State) (p : Fin 64) : Option Task :=
  if s.pt P.ptKind p = 3 then
    lowestSub (s.cfg.tasks.filter fun t => t.kind == 3 && t.prog == s.pt P.ptOwner p && decide (t.port < 64))
  else s.cfg.tasks.find? fun t => t.port == p.val && t.kind == 0

/-- The engine that owns a port: the one that runs its owning task (R220). -/
def State.ownerOf (s : State) (p : Fin 64) : Option (Fin 24) := (s.ownerTask p).bind fun t => fin? 24 t.engine

/-- Release the forces of a port (R239). -/
def State.releaseForce (s : State) (p : Fin 64) : State :=
  s.updPort p Port.releaseForce

end Sys2Proof.Machine
end

