-- ==== Sys2Proof/Machine/PortEvents.lean ====
section
/-!
DEFINITION. Events of a bridge port: period start, setup instant, commit point, store completion, sample event, trips and
calibration (R222 to R245, R511).
-/
namespace Sys2Proof.Machine

/-- The trip has cleared: every turn-on waits the full dead time from this period start (R241). -/
def Port.rearm (x : Port) : Port := { x with trip := .armed, clearing := false, cbcRun := 0, offT := Vector.replicate 8 0 }

/-- Trip state at a period start (Table 7.9), `m` the enabled comparators active there. -/
def State.tripPeriod (s : State) (p : Fin 64) (m : Nat) : State :=
  let x := s.ports[p]
  match x.trip with
  | .armed => s
  | .latched => if x.clearing then s.updPort p Port.rearm else s
  | .cbc =>
    if m = 0 ∧ x.newTrip = false then s.updPort p Port.rearm
    else if s.pt P.ptCbcmax p ≤ x.cbcRun + 1 then s.escalate p (x.cause ||| m)
    else s.updPort p fun x => { x with cbcRun := x.cbcRun + 1, newTrip := false, tripSeen := true }

/-- Period start of a port (R222): trip transitions, the dead time and delay table that take effect (R230, R234), and the
full-on runs of R231. Operands: the comparators active there and whether `DRVFLT_N` is low. -/
def State.periodStart (s : State) (p : Fin 64) (comps : BitVec 4) (drv : Bool) : State :=
  let m := s.enabledComps p comps
  let s := s.updPort p fun x => { x with comps := comps.toNat, drvflt := drv }
  let s := s.tripPeriod p m
  let run : Vector Nat 4 := Vector.ofFn fun k => s.nextFullOn p k
  let ref := run.toList.any (fun n => n != 0 && n == s.pt P.ptRefk p)
  let s := s.updPort p fun x =>
    { x with
      dead := s.pt P.ptDeadtime p
      dlFallback := (x.dlNext.map (·.1)).getD x.dlFallback
      dlTab := (x.dlNext.map (·.2)).getD x.dlTab
      dlNext := none
      upsetOff := false
      lowSeen := 0
      fullOn := run
      refresh := x.refresh || ref }
  (s.portEval p).portPrereq p

def execCarrierPeriodStart (p : Fin 64) (comps : BitVec 4) (drv : Bool) (s : State) : Out :=
  s.main (s.periodStart p comps drv)

/-- Setup instant (R225): the shadow is captured when its arming word has been stored since the previous one; a frozen port
commits nothing until its engine has resumed (R245). -/
def State.setup (s : State) (p : Fin 64) : State :=
  let x := s.ports[p]
  if x.frozen.isSome && !x.thaw then s
  else if !x.armed then s
  else
    let c := s.capture p
    let s := s.updPort p fun x =>
      { x with armed := false, captured := some (c.1, x.armseq), capped := x.capped || c.2
               cappedAt := if c.2 then s.now + 1 else x.cappedAt }
    if c.2 && (decide (x.cappedAt = 0) || decide (x.cappedAt + 100000000 ≤ s.now)) then s.raisePort p 0x0106 0 else s

def execSetupInstant (p : Fin 64) (s : State) : Out := s.main ((s.setup p).strobe 2 p.val)

/-- A set whose leg asks for `MODE` 0b11 sets `OVERLAP` (Table 7.3). -/
def setOverlap (edge : Bool) (v : Vector Word 16) : Bool :=
  !edge && (List.range 4).any (fun k => modeOf (Port.word v k) == 3)

/-- The extremum is one that is sampled (R224). -/
def State.sampled (s : State) (p : Fin 64) (peak : Bool) : Bool := s.pt P.ptUpdate p == 1 || !peak

/-- A full-on leg's on-time in taps in the present period: less the refresh in its refreshed period (R231). -/
def State.fullTaps (s : State) (p : Fin 64) (k : Fin 4) : Nat :=
  let x := s.ports[p]
  32 * (s.period p - if s.refreshLeg p k.val && x.fullOn[k] == s.pt P.ptRefk p then s.pt P.ptReftime p + 2 * x.dead else 0)

/-- High-side on-time in taps that a leg has in force, after cap and refresh (Table 7.3): of the force where one controls it,
otherwise of the set in force. -/
def State.legDuty (s : State) (p : Fin 64) (k : Fin 4) : Nat :=
  let x := s.ports[p]
  if s.rank p k.val = 6 then (if forceCode x.force k.val = 2 then s.fullTaps p k else 0)
  else if s.edgeFmt p then
    let on := Port.word x.inForce (4 * k.val)
    let off := Port.word x.inForce (4 * k.val + 1)
    if on.getLsbD 31 then min (edgePos off) (32 * s.period p) - edgePos on else 0
  else
    let w := Port.word x.inForce k.val
    if modeOf w ≠ 0 then 0 else if ontOf w (s.period p) = 32 * s.period p then s.fullTaps p k else ontOf w (s.period p)

/-- `DUTY_IF_A` to `DUTY_IF_D` (Table 7.3); on a `STEP2` port the on-time accumulated (R331). -/
def State.dutyWords (s : State) (p : Fin 64) : Vector Word 4 :=
  Vector.ofFn fun k => BitVec.ofNat 32 (if s.pt P.ptKind p = 2 then (s.ports[p]).onAcc[k] else s.legDuty p k)

/-- Commit point (R225, R226, R239, R244, R245): the captured set and accepted forces take effect, forces not on a frozen port; the stamp is recorded; at a
sampled extremum the record's values are latched. -/
def State.commitPoint (s : State) (p : Fin 64) (peak : Bool) : State :=
  let x := s.ports[p]
  let s :=
    match x.captured with
    | none => s
    | some (v, q) =>
      let ov := setOverlap (s.edgeFmt p) v
      s.updPort p fun x =>
        { x with
          captured := none, inForce := v, waiting := false, chop1 := x.chop1.take v 0 s.ticks
          chop2 := x.chop2.take v 1 s.ticks, appliedT := s.now, appliedFrac := s.time.frac, appliedSeq := q
          appliedPeak := peak, frozen := none, thaw := false
          overlap := x.overlap || ov, overlapRead := x.overlapRead || ov
          overlapCount := if ov then satInc 32 x.overlapCount else x.overlapCount }
  let s := s.updPort p fun x =>
    match x.frozen, x.forceNext with
    | none, some (none, f) => { x with force := f, forceNext := none }
    | _, _ => x
  let s :=
    if s.sampled p peak then
      s.updPort p fun x =>
        { x with
          extT := s.now, extPeak := peak, latT := x.appliedT, latFrac := x.appliedFrac, latSeq := x.appliedSeq
          latPeak := x.appliedPeak, latDuty := s.dutyWords p, onAcc := Vector.replicate 4 0 }
    else s
  s.portEval p

/-- The port takes the parameter values written for it at its commit point (R127). -/
def execCommitPoint (p : Fin 64) (peak : Bool) (s : State) : Out := s.main (((s.takeLate .pt p.val).commitPoint p peak).strobe 1 p.val)

/-- Words of a store that fall into the shadow of a slot. -/
def storeWords (v : Vector Word 16) (w0 : Nat) (ws : List Word) : Vector Word 16 :=
  (ws.zipIdx).foldl (fun v w =>
    match fin? 16 (w0 + w.2) with
    | some k => upd v k fun _ => w.1
    | none => v) v

/-- Index of the arming word (R225). -/
def State.armingWord (s : State) (p : Fin 64) : Nat := if s.edgeFmt p then 15 else 3

/-- Words of a byte list. -/
def bytesWords (bs : List Byte) : List Word := (List.range (bs.length / 4)).map (fun k => leWord (bs.drop (4 * k) |>.take 4))

/-- Bits of a word of the shadow that the port's format defines; the others are reserved, read as zero and take no write (R10, Tables
7.3 and 10.8). -/
def State.slotMask (s : State) (p : Fin 64) (w : Nat) : Word :=
  if s.edgeFmt p then (if w < 16 then (if w % 2 = 0 then 0x803FFFFF#32 else 0x003FFFFF#32) else 0)
  else if w < 4 then 0xC03FFFFF#32
  else if s.pt P.ptKind p = 2 then (if w = 4 ∨ w = 5 then 0xFFFFFFFF#32 else if w = 6 then 0x0000FF7F#32 else 0)
  else 0

/-- The oldest store to a port slot completes (R154, R225, R226): the shadow takes its words, and a store that covers the arming
word arms the set and counts in `ARMSEQ`. An engine that is cut off reaches no shadow (Table 4.10). -/
def State.slotStoreDone (s : State) (e : Fin 24) : State :=
  match (s.eng[e]).pstores with
  | [] => s
  | (a, bs) :: rest =>
    let x := s.eng[e]
    let s := s.updEng e fun x => { x with pstores := rest }
    if x.role = .retired then s
    else
      match x.slotPort (a / 256) with
      | none => s
      | some p =>
        let w0 := a % 256 / 4
        let ws := (bytesWords bs).zipIdx.map fun w => w.1 &&& s.slotMask p (w0 + w.2)
        let arm := decide (w0 ≤ s.armingWord p) && decide (s.armingWord p < w0 + ws.length)
        let s := s.updPort p fun x =>
          { x with
            shadow := storeWords x.shadow w0 ws
            armed := x.armed || arm
            armseq := if arm then (x.armseq + 1) % 65536 else x.armseq }
        if arm then s.strobe 5 p.val else s

def execPortSlotStoreComplete (e : Fin 24) (s : State) : Out := s.main (s.slotStoreDone e)

/-- `APPLIED_FLAGS` (Table 7.3). -/
def Port.appliedFlags (x : Port) : Nat :=
  ofBools [x.latPeak, x.capped, x.overlap, x.tripSeen, x.refresh, x.extPeak] + (x.samples % 65536) * 65536

def w32 (n : Nat) : Word := BitVec.ofNat 32 n
def hi32 (n : Nat) : Word := BitVec.ofNat 32 (n / 2 ^ 32)

/-- Sample event (R187, R226): the port writes the sample record of Table 7.3; the decimated values are operands. -/
def State.sampleEvent (s : State) (p : Fin 64) (y : Vector (BitVec 32) 4) : State :=
  let vb := ratToFp (s.buses[s.busOf p]).v
  let st := (s.fb[p]).stat
  s.updPort p fun x =>
    let x := { x with samples := x.samples + 1 }
    let pos := unsigned 64 x.latPos
    let vel := unsigned 64 x.latVel
    let ws : List Word :=
      [w32 x.extT, hi32 x.extT, w32 x.prevExtT, hi32 x.prevExtT, w32 x.latT, hi32 x.latT,
       w32 (x.latSeq % 65536 + x.latFrac * 65536), w32 x.appliedFlags, y[0], y[1], y[2], y[3],
       w32 pos, hi32 pos, w32 vel, hi32 vel, w32 st, 0#32, x.latDuty[0], x.latDuty[1], x.latDuty[2], x.latDuty[3], vb, 0#32]
    { x with
      record := Vector.ofFn fun k => ws.getD k.val 0
      prevExtT := x.extT
      capped := false, overlap := false, tripSeen := x.trip != .armed, refresh := false }

/-- Comparators cross their threshold (R240, R241): ignored during blanking after an output edge. -/
def execComparatorTrip (p : Fin 64) (comps : BitVec 4) (s : State) : Out :=
  s.main
    (let s := s.updPort p fun x => { x with comps := comps.toNat }
     let m := s.enabledComps p comps
     if m = 0 ∨ 32 * s.ticks < (s.ports[p]).lastEdge + 32 * s.pt P.ptBlank p then s else s.compTrip p m)

/-- Blanking ends; a comparator that is active then trips the port (R240). -/
def execBlankingEnd (p : Fin 64) (comps : BitVec 4) (s : State) : Out :=
  s.main
    (let s := s.updPort p fun x => { x with comps := comps.toNat }
     let m := s.enabledComps p comps
     if m = 0 then s else s.compTrip p m)

/-- `DRVFLT_N` low for 8 samples latches the port whatever `PT.TRIPMODE` is (R242). -/
def execDrvfltNLow (p : Fin 64) (s : State) : Out :=
  s.main
    (let s := s.updPort p fun x => { x with drvflt := true, tripCount := satInc 32 x.tripCount }
     let s := if (s.ports[p]).trip = .latched then s else s.latch p 16
     let s := s.portEval p
     (s.raisePort p (if s.bootstrap p then 0x0104 else 0x0103) 4).portPrereq p)

/-- Replica taps that fall within one PWMCLK period of 2.5 ns, from their delays in units of 0.125 ps (R234). -/
def dlSpan (taps : List (BitVec 16)) : Nat := taps.countP fun t => decide (t.toNat ≤ 20000)

/-- The tap nearest to `f` × 78.125 ps, the first of equally near ones. -/
def nearestTap (taps : List (BitVec 16)) (f : Nat) : Nat :=
  let far (t : BitVec 16) : Nat := ((t.toNat : Int) - (625 * f : Nat)).natAbs
  (taps.zipIdx.foldl (fun (b : Option (Nat × Nat)) t =>
    match b with
    | some (d, _) => if far t.1 < d then some (far t.1, t.2) else b
    | none => some (far t.1, t.2)) none).elim 0 (·.2)

/-- Delay-line calibration (R234, R235): the measured delays are operands; the table takes effect at the next period start. -/
def execDelayLineCalibration (p : Fin 64) (taps : List (BitVec 16)) (s : State) : Out :=
  s.main
    (let n := dlSpan taps
     let bad := decide (n < 40) || decide (60 < n)
     let s := s.updPort p fun x => { x with dlTaps := n, dlNext := some (bad, (List.range 32).map (nearestTap taps)) }
     if bad && !s.activeFault 0x0107 .port p.val then s.raisePort p 0x0107 1 else s)

/-- An upset of a port: all switches off for the rest of the period (Table 17.3); of a feedback unit: the unit reloads its
registers. The third within 1 s retires the unit with its axis (R511). -/
def execPortUpset (p : Fin 64) (feedback : Bool) (s : State) : Out :=
  s.main
    (let k : UnitKind := if feedback then .feedback else .port
     if (if feedback then s.fbRetired p else s.portRetired p) then s
     else
       let r := s.upset k p.val
       let s := if feedback then r.1 else (r.1.updPort p fun x => { x with upsetOff := true }).portEval p
       if r.2 then s.retirePort k p else s)

/-! ### Debug halt (R245, R516) -/

/-- A frozen port holds its levels and commits nothing that it has captured; under `SAFE` it is off, with `DEBUG_HALT`. -/
def State.haltPort (s : State) (p : Fin 64) (safe : Bool) : State :=
  if safe then
    ((s.updPort p fun x => { x with haltOff := true, frozen := none, thaw := false }).raisePort p 0x0108 4).portEval p
  else s.updPort p fun x => { x with frozen := some x.gate, thaw := false, captured := none }

def State.portsOwned (s : State) (e : Fin 24) : List (Fin 64) := allPorts.filter (fun p => s.ownerOf p == some e)

/-- A frozen port of a resumed engine waits for a store to its arming word (R245). -/
def State.resumePort (s : State) (p : Fin 64) : State :=
  s.updPort p fun x => if x.frozen.isSome then { x with thaw := true, armed := false, captured := none } else x

/-! ### Port commands (Tables 7.6 to 7.11) -/

/-- The first byte of a payload as a port number. -/
def portArg (p : Packet) : Check (Fin 64) :=
  match fin? 64 (u8 p.args 0) with
  | some n => .ok n
  | none => .error (.range, 0x0101)

/-- `PORT_FORCE` (R239, Table 7.8): for the next commit point, or for the instant of R92 when grouped or timed. -/
def opPortForce (t : Instant) (p : Packet) (s : State) : HRes :=
  .ofCheck s do
    need (p.args.length == 4) .badLength 0x0004
    let n ← portArg p
    need (decide (u16 p.args 2 ≤ 60000)) .range 0
    let legs := u8 p.args 1
    need (!(s.pt P.ptKind n == 1 && forceCode legs 3 != 0)) .range 0x0102
    need (!s.portRetired n) .retired 0
    need (s.pt P.ptKind n != 0) .state 0x0102
    need (match s.axisOf n with
      | some i => s.axes[i].st == .disabled || s.axes[i].st == .ready
      | none => true) .state 0x0101
    let s := s.updPort n fun x =>
      { x with
        forceNext := some (t, legs), forceTimeout := u16 p.args 2
        forceBy := (s.session p.src).map fun q => (p.src, q.sid) }
    return .ok ((s.takeForce n).portEval n)

/-- The timeout of a force: every leg returns to code 0 (Table 7.6). -/
def execForceTimeout (p : Fin 64) (s : State) : Out :=
  s.main (if (s.ports[p]).forceTimeout = 0 then s else (s.releaseForce p).portEval p)

/-- Causes that keep a trip latched: comparators, and `DRVFLT_N` in bit 4 (Table 7.10). -/
def State.tripCauses (s : State) (p : Fin 64) : Nat :=
  (((s.ports[p]).comps) &&& s.pt P.ptSnsen p) + (if (s.ports[p]).drvflt then 16 else 0)

/-- `PORT_TRIP_CLEAR` (Tables 7.9, 7.10). -/
def opPortTripClear (_ : Instant) (p : Packet) (s : State) : HRes :=
  .ofCheck s do
    need (p.args.length == 4) .badLength 0x0004
    need (rsvZero p.args 1 3) .range 0
    let n ← portArg p
    need (!s.portRetired n) .retired 0
    if (s.ports[n]).trip = .latched then
      need (s.tripCauses n == 0) .clearRefused (s.tripCauses n)
      return .ok (s.updPort n fun x => { x with clearing := true })
    else return .ok s

/-- Controlling rank of a port for `PORT_STATUS`: the highest-ranked source of its legs. -/
def State.portRank (s : State) (p : Fin 64) : Nat :=
  (List.range 4).foldl (fun m k => let r := s.rank p k; if r ≠ 0 ∧ (m = 0 ∨ r < m) then r else m) 0

/-- `PORT_STATUS` (Table 7.11); reading clears `OVERLAP` since the last read. -/
def opPortStatus (_ : Instant) (p : Packet) (s : State) : HRes :=
  .ofCheck s do
    need (p.args.length == 4) .badLength 0x0004
    need (rsvZero p.args 1 3) .range 0
    let n ← portArg p
    let x := s.ports[n]
    let b := s.busOf n
    let body := leBytes 1 n.val ++ leBytes 1 (s.pt P.ptKind n) ++ leBytes 1 x.trip.code ++ leBytes 1 x.cause
      ++ leBytes 1 (x.comps % 16 + (if x.drvflt then 16 else 0)) ++ leBytes 1 x.force ++ leBytes 1 (s.portRank n)
      ++ leBytes 1 (ofBools [x.capped, x.overlapRead, x.dlFallback, x.frozen.isSome, x.shorting])
      ++ leBytes 2 x.armseq ++ leBytes 2 (((s.axisOf n).map (·.val)).getD 0xFFFF)
      ++ leBytes 4 x.tripCount ++ leBytes 4 x.overlapCount ++ leBytes 8 x.appliedT
      ++ ((s.dutyWords n).toList.flatMap fun w => leBytes 4 w.toNat)
      ++ leBytes 1 b.val ++ leBytes 1 (s.buses[b]).st.code ++ zeros 2 ++ leBytes 4 (ratToFp (s.dutyCap n)).toNat
    return .okBody (s.updPort n fun x => { x with overlapRead := false }) body

end Sys2Proof.Machine
end

