-- ==== Sys2Proof/Machine/TollgateCfg.lean ====
section
/-!
DEFINITION. Configuration images of Tollgate: the record order and ranges, the content rules of R406, sealing, acceptance
(R407), and the choice between the two flash copies (R65).
-/
namespace Sys2Proof.Machine

/-- `SF` parameters in rising index order (R406). -/
def sfOrder : List (Nat × PDef) :=
  [P.sfResetin, P.sfStartreset, P.sfTpoper, P.sfTpowidth, P.sfPortsused, P.sfOteso, P.sfSopper, P.sfSopwidth, P.sfEdmtime,
     P.sfBtinterval].map (fun d => (d.idx, d))
  ++ (List.range 32).flatMap (fun n => [P.sfSiTpo, P.sfSiFilt, P.sfSiOssdtp].map fun d => (d.idx + 4 * n, d))
  ++ (List.range 16).flatMap (fun n =>
      [P.sfFnType, P.sfFnIn, P.sfFnDisc, P.sfFnPorts, P.sfFnSo, P.sfFnStop, P.sfFnReset, P.sfFnLockso, P.sfFnLockdly,
        P.sfFnLockact].map fun d => (d.idx + 16 * n, d))
  ++ (List.range 64).flatMap (fun n =>
      [P.sfPtSs1time, P.sfPtSs1stand, P.sfPtBrake, P.sfPtBrkfbt, P.sfPtBrkfbpol, P.sfPtBtcur, P.sfPtBttime,
        P.sfPtBtposmax].map fun d => (d.idx + 16 * n, d))
  ++ (List.range 16).map (fun n => (P.sfSoMode.idx + n, P.sfSoMode))

/-- Records of the content in order (R406, Table 3.25): the values that differ from their default, or the detail of Table 12.13
and the index of the first offending parameter. -/
def sfRecords : List (Nat × PDef) → List Byte → List (Nat × Nat) → Except (Nat × Nat) (List (Nat × Nat))
  | [], bs, acc => if bs.isEmpty then .ok acc else .error (0x0103, if bs.length < 8 then 0xFFFFFFFF else u16 bs 4)
  | (i, d) :: rest, bs, acc =>
    if bs.length < 8 ∨ u8 bs 0 ≠ 4 ∨ u8 bs 1 ≠ 0 ∨ u16 bs 2 ≠ 0 ∨ u16 bs 4 ≠ i then .error (0x0103, i)
    else
      let w := (d.width + 3) / 4 * 4
      let v := field bs 8 d.width
      if u16 bs 6 ≠ d.width ∨ bs.length < 8 + w ∨ rsvZero bs (8 + d.width) (w - d.width) = false ∨ d.range.ok v = false then
        .error (0x0104, i)
      else sfRecords rest (bs.drop (8 + w)) (if v = d.dfltAt i then acc else assocSet acc (pkey .sf 0 i) v)

/-- An `SF` value among those that differ from their default. -/
def sfVal (vs : List (Nat × Nat)) (d : PDef) (n : Nat) : Nat :=
  let i := d.idx + d.stride * n
  (assocGet? vs (pkey .sf 0 i)).getD (d.dfltAt i)

/-- Number of inputs a function type reads (Table 12.3). -/
def fnRoles : Nat → Nat
  | 1 => 2 | 2 => 2 | 3 => 4 | 4 => 2 | 5 => 4 | 6 => 2 | _ => 0

/-- Types whose first two inputs are two channels under R389. -/
def twoChannel (t : Nat) : Bool := t == 1 || t == 2 || t == 3 || t == 6

/-- Inputs in the roles of a function, unused ones left out. -/
def fnInputs (vs : List (Nat × Nat)) (f : Nat) : List Nat :=
  ((List.range (fnRoles (sfVal vs P.sfFnType f))).map (fun k => sfVal vs P.sfFnIn f / 256 ^ k % 256)).filter (· != 0xFF)

/-- First offending parameter among the remaining rules of R406, in their order. -/
def sfRules (vs : List (Nat × Nat)) : Option Nat :=
  let g := sfVal vs
  let fs := List.range 16
  let rin := g P.sfResetin 0
  let idx (d : PDef) (n : Nat) := d.idx + d.stride * n
  let first (p : Nat → Bool) (d : PDef) : Option Nat := (fs.find? p).map (idx d)
  let so (o : Nat) := g P.sfSoMode o
  if rin = 0xFF ∨ fs.any (fun f => (fnInputs vs f).contains rin) then some P.sfResetin.idx
  else
    let dup (f : Nat) : Bool :=
      let l := fnInputs vs f
      decide (l.eraseDups.length < l.length) ||
        (List.range f).any (fun e => l.any (fun i => (fnInputs vs e).contains i))
    let tpo (f : Nat) : Bool :=
      twoChannel (g P.sfFnType f) &&
        (let a := g P.sfFnIn f % 256
         let b := g P.sfFnIn f / 256 % 256
         a != 0xFF && b != 0xFF && g P.sfSiTpo a == g P.sfSiTpo b && g P.sfSiTpo a != 0xFF)
    let rst (f : Nat) : Bool :=
      let t := g P.sfFnType f
      (t == 1 && g P.sfFnReset f != 0) || ((t == 4 || t == 5) && g P.sfFnReset f != 1)
    let prt (f : Nat) : Bool := g P.sfFnPorts f &&& g P.sfPortsused 0 != g P.sfFnPorts f
    let sos (f : Nat) : Bool := (List.range 16).any (fun o => bit (g P.sfFnSo f) o && so o != 1)
    let lock (f : Nat) : Bool :=
      g P.sfFnType f == 3 &&
        (g P.sfFnLockso f == 0xFF || so (g P.sfFnLockso f) != 2 || g P.sfFnIn f / 256 ^ 3 % 256 == 0xFF)
    (first dup P.sfFnIn).orElse fun _ =>
    (first tpo P.sfFnIn).orElse fun _ =>
    (if g P.sfTpoper 0 * 1000 < (g P.sfTpowidth 0 + 60) * 8 then some P.sfTpowidth.idx else none).orElse fun _ =>
    (first rst P.sfFnReset).orElse fun _ =>
    (first prt P.sfFnPorts).orElse fun _ =>
    (first sos P.sfFnSo).orElse fun _ =>
    (first lock P.sfFnLockso).orElse fun _ =>
    (if g P.sfOteso 0 != 0xFF && so (g P.sfOteso 0) != 1 then some P.sfOteso.idx else none)

/-- The content rules of R406: the values, or detail and first offending parameter. -/
def sfContent (bs : List Byte) : Except (Nat × Nat) (List (Nat × Nat)) :=
  match sfRecords sfOrder bs [] with
  | .error e => .error e
  | .ok vs => match sfRules vs with | some i => .error (0x0105, i) | none => .ok vs

/-! ### Image header (Table 12.12) -/

def imgContent (im : List Byte) : List Byte := (im.drop 64).take (u32 im 12)

/-- `seal` over bytes 0–43 and the content. -/
def imgSeal (im : List Byte) : Nat := (crc32c (im.take 44 ++ imgContent im)).toNat

/-- An image of its own size that `magic` and `fmt_ver` mark as one. -/
def imgMagic (im : List Byte) : Bool := decide (64 ≤ im.length) && u32 im 0 == 0x46434754 && u16 im 4 == 1

/-- `magic`, `fmt_ver`, `cfg_id` and `length` are as Table 12.12 says. -/
def imgHeader (im : List Byte) : Bool :=
  decide (64 ≤ im.length) && u32 im 0 == 0x46434754 && u16 im 4 == 1 && u32 im 8 != 0 && u32 im 12 % 4 == 0
    && decide (u32 im 12 ≤ 65472) && decide (64 + u32 im 12 ≤ im.length) && rsvZero im 20 4 && rsvZero im 48 16

/-- Check of an image as loaded (R408): its values, or detail and offending parameter. -/
def checkLoaded (im : List Byte) : Except (Nat × Nat) (List (Nat × Nat)) :=
  if u32 im 40 ≠ (crc32c (imgContent im)).toNat then .error (0x0101, 0xFFFFFFFF)
  else if imgHeader im = false ∨ im.length ≠ 64 + u32 im 12 ∨ u16 im 6 ≠ 0 ∨ u32 im 16 ≠ 0 ∨ u64 im 24 ≠ 0 ∨ u64 im 32 ≠ 0
      ∨ u32 im 44 ≠ 0 then .error (0x0102, 0xFFFFFFFF)
  else sfContent (imgContent im)

/-- Sealing (R409): `seq` of the configuration in force + 1, the serial number, the time tag of the press, and the seal. -/
def sealImage (im : List Byte) (seq : Nat) (t : Nat) : List Byte :=
  let h := im.take 6 ++ leBytes 2 1 ++ (im.drop 8).take 8 ++ leBytes 4 seq ++ zeros 4 ++ leBytes 8 Config.serial.toNat
    ++ leBytes 8 t ++ (im.drop 40).take 4
  let c := imgContent im
  h ++ leBytes 4 (crc32c (h ++ c)).toNat ++ zeros 16 ++ c

/-- A copy qualifies at boot (R65). -/
def qualifies (im : List Byte) : Bool :=
  imgMagic im && u16 im 6 == 1 && u64 im 24 == Config.serial.toNat && u32 im 40 == (crc32c (imgContent im)).toNat
    && u32 im 44 == imgSeal im

/-- Acceptance of a sealed image (R407): the configuration, or the detail of `CFG_INVALID`. -/
def acceptImage (im : List Byte) (copy : Fin 2) : Except Nat TgCfg :=
  if imgMagic im = false ∨ u16 im 6 ≠ 1 ∨ u32 im 40 ≠ (crc32c (imgContent im)).toNat ∨ u32 im 44 ≠ imgSeal im then .error 1
  else if u64 im 24 ≠ Config.serial.toNat then .error 2
  else
    match sfContent (imgContent im) with
    | .error _ => .error 3
    | .ok vs => .ok { id := u32 im 8, seq := u32 im 16, copy := copy, values := vs }

/-- The copy Turnpike takes at boot: the qualifying one with the higher `seq`, copy 0 on a tie (R65). `c0` and `c1` are the copies as
the board delivered them. -/
def TgFlash.chosen (f : TgFlash) (c0 c1 : List Byte) : Option (List Byte × Fin 2) :=
  let a := f.copy0.getD c0
  let b := f.copy1.getD c1
  match qualifies a, qualifies b with
  | true, true => if u32 a 16 < u32 b 16 then some (b, 1) else some (a, 0)
  | true, false => some (a, 0)
  | false, true => some (b, 1)
  | false, false => none

end Sys2Proof.Machine
end

