-- ==== Sys2Proof/Machine/TollgateOps.lean ====
section
/-!
DEFINITION. Operations of Tollgate: safety events, lockouts, functions (R389 to R392), ports (R393 to R396), outputs (R380, R382,
R395 to R400), the reset input (R401 to R403), acceptance of a configuration (R407) and the mirror (R120).
-/
namespace Sys2Proof.Machine

def allFns : List (Fin 16) := List.finRange 16

def State.updFn (s : State) (f : Fin 16) (g : TgFn → TgFn) : State := s.updTg fun t => { t with fns := upd t.fns f g }
def State.updTp (s : State) (p : Fin 64) (g : TgPort → TgPort) : State := s.updTg fun t => { t with ports := upd t.ports p g }
def State.updSo (s : State) (o : Fin 16) (g : TgSo → TgSo) : State := s.updTg fun t => { t with sos := upd t.sos o g }
def State.updReset (s : State) (g : ResetIn → ResetIn) : State := s.updTg fun t => { t with reset := g t.reset }

/-- A configuration is in force and evaluated; in lifecycle state `RETURNED` (Table 17.7) and in recovery mode (R64) the outputs stay
low. -/
def State.tgActive (s : State) : Bool :=
  s.tg.cfg.isSome && (s.tg.st == .run || s.tg.st == .confirming) && s.dbg.lifecycle != 0x40
    && !(s.boot.recovery && !s.boot.bywayDead)

/-- 1 ms of Tollgate time. -/
def tgMs : Nat := 400000

/-- `ms` of Tollgate time have passed since `t0`. -/
def State.tgPast (s : State) (t0 ms : Nat) : Bool := decide (t0 + ms * tgMs ≤ s.tg.clk)

/-- Place of Tollgate time in the period of the test pulse of `TPO`n, counted from its falling edge (R387). -/
def State.tpoPhase (s : State) (n : Nat) : Nat :=
  let per := s.sf P.sfTpoper * tgMs
  (s.tg.clk + per - n * per / 8) % per

/-- Inside the window of `TPO`n: from its falling edge to 50 µs after its rising edge (R387). -/
def State.tpoInWindow (s : State) (n : Nat) : Bool := decide (s.tpoPhase n < (s.sf P.sfTpowidth + 50) * 400)

/-- Level of the pin `TPO`n (R383, R387). -/
def State.tpoPin (s : State) (n : Nat) : Bool :=
  s.tgActive && !s.tg.watchdog && decide (s.sf P.sfTpowidth * 400 ≤ s.tpoPhase n)

/-- Level of the pin `SO`n (R399, R400): on, but for the off-pulse of `SO00` to `SO07`. -/
def State.soPin (s : State) (o : Fin 16) : Bool :=
  let per := s.sf P.sfSopper * tgMs
  (s.tg.sos[o]).on &&
    !(decide (o.val < 8) && decide ((s.tg.clk + per - o.val * per / 8) % per < s.sf P.sfSopwidth * 400))

/-- Ports of a 64-bit mask. -/
def portMask (f : Fin 64 → Bool) : BitVec 64 := BitVec.ofNat 64 (ofBools (allPorts.map f))

/-- Torque-off request lines (R17, R18). -/
def State.torLines (s : State) : BitVec 64 :=
  portMask fun p => let x := s.ports[p]; x.offFault || x.offReset || x.offRetired

/-! ### Faults and events (R411, R413) -/

/-- `SAFETY_EVENT` (R411). -/
def State.safetyEvent (s : State) (kind unit cause : Nat) (ports : BitVec 64) : State :=
  s.event evSafety 0xFFFF
    (leBytes 1 kind ++ leBytes 1 unit ++ leBytes 2 cause ++ zeros 4 ++ leBytes 8 s.now ++ leBytes 8 ports.toNat)

/-- A Tollgate fault on a port; the main domain records nothing while it is in reset. -/
def State.tgRaisePort (s : State) (p : Fin 64) (code cls detail : Nat) : State :=
  if s.boot.inReset then s else s.raisePort p code cls detail

/-- A Tollgate fault of device scope: it reaches every bound axis (Table 17.1). -/
def State.tgRaiseDev (s : State) (code cls detail : Nat) : State :=
  if s.boot.inReset then s else s.raise { code := code, cls := cls, scope := .device, detail := detail }

/-- A fault of a function that covers no port: it acts on the covered axes, of which there are none (Table 12.20). -/
def State.tgRaiseNone (s : State) (code cls detail : Nat) : State :=
  if s.boot.inReset then s else s.raise { code := code, cls := cls, scope := .device, detail := detail, reach := [0xFFFF] }

/-- Put a port into `LOCKOUT` (Table 12.6). -/
def State.tgLock (s : State) (p : Fin 64) (cause : Nat) : State :=
  s.updTp p fun x => if x.st = .lockout then x else { x with st := .lockout, cause := cause, since := s.tg.cycles, taps := [] }

/-- Ports a function covers. -/
def State.fnPorts (s : State) (f : Fin 16) : List (Fin 64) := allPorts.filter fun p => bit (s.sf P.sfFnPorts f.val) p.val

def State.fnType (s : State) (f : Fin 16) : Nat := let t := s.sf P.sfFnType f.val; if t ≤ 6 then t else 0

/-- A function enters `FAULT` with its fault raised on the covered axes, its ports locked out (Tables 12.4, 12.6, 12.20). -/
def State.fnFault (s : State) (f : Fin 16) (code cause detail : Nat) : State :=
  let ps := s.fnPorts f
  let s := s.updFn f fun x => { x with st := .fault }
  let fresh := portMask fun p => ps.contains p && (s.tg.ports[p]).st != .lockout
  let s := ps.foldl (fun s p => s.tgLock p cause) s
  let s := if ps.isEmpty then s.tgRaiseNone code 4 detail else ps.foldl (fun s p => s.tgRaisePort p code 4 detail) s
  if fresh = 0 then s else s.safetyEvent 6 f.val cause fresh

/-- A fault of one port locks it out (Table 12.6). -/
def State.tgPortFault (s : State) (p : Fin 64) (code cause : Nat) : State :=
  let fresh := (s.tg.ports[p]).st != .lockout
  let s := (s.tgLock p cause).tgRaisePort p code 4 p.val
  if fresh then s.safetyEvent 6 p.val cause (BitVec.ofNat 64 (2 ^ p.val)) else s

/-- An output is locked out (R400). -/
def State.soFault (s : State) (o : Fin 16) (code cause : Nat) : State :=
  let fresh := !(s.tg.sos[o]).lockout
  let s := s.updSo o fun x =>
    { x with on := false, bad := true, lockout := true, edmWait := false
             cause := if x.lockout then x.cause else cause, since := if x.lockout then x.since else s.tg.cycles }
  let s := s.tgRaiseDev code 1 o.val
  if fresh then s.safetyEvent 6 o.val cause 0 else s

/-! ### Inputs of a function (Table 12.3) -/

/-- Filtered level of the input in role `k`; none when the role is unused. -/
def State.fnIn (s : State) (f : Fin 16) (k : Nat) : Option Bool :=
  let i := s.sf P.sfFnIn f.val / 256 ^ k % 256
  if 32 ≤ i then none else some (s.tg.si.getLsbD i)

/-- The two channels; an unused one follows the other. -/
def State.fnChan (s : State) (f : Fin 16) : Bool × Bool :=
  match s.fnIn f 0, s.fnIn f 1 with
  | some a, some b => (a, b)
  | some a, none => (a, a)
  | none, some b => (b, b)
  | none, none => (true, true)

def State.fnLvl (s : State) (f : Fin 16) (k : Nat) : Bool := (s.fnIn f k).getD false

/-- The hands actuated (R391): left, right. -/
def State.hands (s : State) (f : Fin 16) : Bool × Bool :=
  if s.fnType f = 5 then (s.fnLvl f 0 && !s.fnLvl f 1, s.fnLvl f 2 && !s.fnLvl f 3) else (s.fnLvl f 0, s.fnLvl f 1)

/-- The condition that `SF.FN_DISC` times (R389; type IIIB of Table 12.3). -/
def State.fnDiffers (s : State) (f : Fin 16) : Bool :=
  let x := s.tg.fns[f]
  let t := s.fnType f
  if twoChannel t then
    (let c := s.fnChan f
     c.1 != c.2 || (c.1 && c.2 && x.need && !x.together))
  else if t == 5 then s.fnLvl f 0 == s.fnLvl f 1 || s.fnLvl f 2 == s.fnLvl f 3
  else false

/-- An input the function reads fails its test-pulse checks (R387). -/
def State.fnInputBad (s : State) (f : Fin 16) : Bool :=
  (List.range (fnRoles (s.fnType f))).any fun k =>
    let i := s.sf P.sfFnIn f.val / 256 ^ k % 256
    decide (i < 32) && (s.tg.tpBad ||| s.tg.crossBad).getLsbD i

/-- A lock fault of R392 that needs no timer. -/
def State.lockBad (s : State) (f : Fin 16) : Bool :=
  let x := s.tg.fns[f]
  let c := s.fnChan f
  let fb := s.fnLvl f 2
  s.fnType f == 3 && ((x.locked && !x.fbWait && !fb) || (fb && !(c.1 && c.2)))

/-- The fault condition of a function remains. -/
def State.fnBad (s : State) (f : Fin 16) : Bool := s.fnDiffers f || s.fnInputBad f || s.lockBad f

/-- Demand condition (Table 12.3). -/
def State.fnDemands (s : State) (f : Fin 16) : Bool :=
  let x := s.tg.fns[f]
  let c := s.fnChan f
  let two := !c.1 || !c.2 || x.need
  match s.fnType f with
  | 0 => false
  | 3 => two || !s.fnLvl f 2 || x.unlocking
  | 4 | 5 => !x.valid
  | _ => two

/-- Two-channel memory of R389. -/
def TgFn.channels (x : TgFn) (a b : Bool) : TgFn :=
  let need := x.need || !a || !b
  let tog := x.together || (!a && !b)
  if a && b && need && tog then { x with need := false, together := false } else { x with need := need, together := need && tog }

/-- The lock of R392 at a cycle: an active edge of the unlock request, which has been inactive before (R261), and relocking. -/
def TgFn.lock (x : TgFn) (closed fb req : Bool) (t : Nat) : TgFn :=
  if req && x.reqSeen && closed && x.locked && fb && !x.unlocking then { x with unlocking := true, reqSeen := false }
  else
    let x := { x with reqSeen := !req }
    if !x.locked && closed && !req then { x with locked := true, unlocking := false, fbWait := true, relockAt := t } else x

/-- Hands at a filtered change (R391): 500 ms between the two actuations. -/
def TgFn.hand (x : TgFn) (l r : Bool) (t : Nat) : TgFn :=
  let left := if l then some (x.left.getD t) else none
  let right := if r then some (x.right.getD t) else none
  let x := { x with left := left, right := right }
  match left, right with
  | none, none => { x with released := true, valid := false }
  | some a, some b =>
    if x.valid then x
    else { x with valid := x.released && decide (a ≤ b + 500 * tgMs) && decide (b ≤ a + 500 * tgMs), released := false }
  | _, _ => { x with valid := false }

/-- Every port of a function is in `STO` or `LOCKOUT` (R392). -/
def State.fnStopped (s : State) (f : Fin 16) : Bool :=
  (s.fnPorts f).all fun p => (s.tg.ports[p]).st == .sto || (s.tg.ports[p]).st == .lockout

/-- A Tollgate time since which a condition has held without a break. -/
def State.tgSince (s : State) (on : Bool) (t : Option Nat) : Option Nat := if on then some (t.getD s.tg.clk) else none

/-- Keep the times since which what the timers of the functions watch has held (R389, R392). -/
def State.fnTimes (s : State) : State :=
  allFns.foldl (fun s f => s.updFn f fun x =>
    { x with diffSince := s.tgSince (s.fnDiffers f) x.diffSince, stopSince := s.tgSince (s.fnStopped f) x.stopSince }) s

/-- One cycle of a function (Table 12.4). -/
def State.fnStep (s : State) (reset : Bool) (f : Fin 16) : State :=
  let t := s.fnType f
  if t = 0 then s
  else
    let c := s.fnChan f
    let s := if twoChannel t then s.updFn f fun x => x.channels c.1 c.2 else s
    let s := if t = 3 then s.updFn f fun x => x.lock (c.1 && c.2) (s.fnLvl f 2) (s.fnLvl f 3) s.tg.clk else s
    let mask := BitVec.ofNat 64 (s.sf P.sfFnPorts f.val)
    let dem := s.fnDemands f
    let goClear (s : State) : State := (s.updFn f fun x => { x with st := .clear }).safetyEvent 2 f.val 0 mask
    let goDemand (s : State) : State := (s.updFn f fun x => { x with st := .demand }).safetyEvent 1 f.val 0 mask
    match (s.tg.fns[f]).st with
    | .fault => if reset && !s.fnBad f then (if dem then goDemand s else goClear s) else s
    | st =>
      if s.lockBad f then s.fnFault f 0x0704 6 f.val
      else
        match st with
        | .clear => if dem then goDemand s else s
        | .demand =>
          if dem then s else if s.sf P.sfFnReset f.val = 1 then goClear s else s.updFn f fun x => { x with st := .awaitReset }
        | _ => if dem then goDemand s else if reset then goClear s else s

/-! ### Ports (R393, R394) -/

def State.covering (s : State) (p : Fin 64) : List (Fin 16) :=
  allFns.filter fun f => s.fnType f != 0 && bit (s.sf P.sfFnPorts f.val) p.val

/-- Standstill of R394: the tap has changed by no more than the limit over 40 consecutive cycles. -/
def tapsStill (n : Nat) (taps : List Int) : Bool :=
  let hi := taps.foldl max (taps.headD 0)
  let lo := taps.foldl min (taps.headD 0)
  decide (0 < n) && decide (41 ≤ taps.length) && decide (hi - lo ≤ (n : Int))

/-- Next state of a port (Table 12.6, R394). -/
def State.tgPortNext (s : State) (reset : Bool) (p : Fin 64) : TgPortState :=
  let x := s.tg.ports[p]
  let cov := s.covering p
  let dem := cov.filter fun f => (s.tg.fns[f]).st != .clear
  let sto := dem.any fun f => s.sf P.sfFnStop f.val == 0
  match x.st with
  | .lockout =>
    if reset && !x.brkBad && x.genRun == 0 && !cov.any (fun f => (s.tg.fns[f]).st == .fault) then
      (if dem.isEmpty then .permit else .sto)
    else .lockout
  | .sto => if dem.isEmpty then .permit else .sto
  | .ss1 => if sto || s.tgPast x.ss1At (s.sf P.sfPtSs1time p.val) || tapsStill (s.sf P.sfPtSs1stand p.val) x.taps then .sto else .ss1
  | .permit =>
    if sto then .sto
    else if dem.isEmpty then .permit
    else if s.sf P.sfPtSs1time p.val = 0 then .sto else .ss1

/-- The axes of a port that enters `SS1` start the quick stop (R393). -/
def State.ss1Request (s : State) (p : Fin 64) : State :=
  match s.axisOf p with
  | some i => s.ss1Stop i
  | none => s

/-- Enter a port state other than `LOCKOUT`; a debug halt in force then acts as `SAFE` in `PERMIT` (R516). -/
def State.tgEnter (s : State) (p : Fin 64) (st : TgPortState) : State :=
  let s := s.updTp p fun x => { x with st := st, taps := [], ss1At := if st = .ss1 then s.tg.clk else x.ss1At }
  match st with
  | .ss1 => s.ss1Request p
  | .permit => if (s.ports[p]).frozen.isSome then s.haltPort p true else s
  | _ => s

/-- One cycle of every port, with one `SAFETY_EVENT` for each kind of transition. -/
def State.tgPorts (s : State) (reset : Bool) : State :=
  let s := allPorts.foldl (fun s p =>
    if (s.tg.ports[p]).st = .ss1 then s.updTp p fun x => { x with taps := ((s.fb[p]).count :: x.taps).take 41 } else s) s
  let next : List (Fin 64 × TgPortState) :=
    (allPorts.map fun p => (p, s.tgPortNext reset p)).filter fun q => q.2 != (s.tg.ports[q.1]).st
  let into (st : TgPortState) : BitVec 64 := portMask fun p => next.contains (p, st)
  let s := next.foldl (fun s q => s.tgEnter q.1 q.2) s
  let ev (s : State) (k : Nat) (m : BitVec 64) : State := if m = 0 then s else s.safetyEvent k 0 0 m
  ev (ev (ev s 3 (into .ss1)) 4 (into .sto)) 5 (into .permit)

/-! ### Outputs -/

/-- `GEN` of a port (R395). -/
def State.genNext (s : State) (p : Fin 64) : Bool :=
  let x := s.ports[p]
  s.tgActive && s.tg.st == .run && !s.tg.watchdog && bit (s.sf P.sfPortsused) p.val
    && ((s.tg.ports[p]).st == .permit || (s.tg.ports[p]).st == .ss1)
    && !(x.offFault || x.offReset || x.offRetired)

/-- Pad block (R380): released only with a raised `GEN`. -/
def State.padNext (s : State) (p : Fin 64) : Bool :=
  if s.tg.watchdog || !s.tgActive || !bit (s.sf P.sfPortsused) p.val || (s.tg.ports[p]).st == .sto
      || (s.tg.ports[p]).st == .lockout then true
  else s.tg.pad.getLsbD p.val && !s.genNext p

/-- Set the brake outputs; each change starts the `BRKFB` supervision (R397). -/
def State.setBrk (s : State) (b : BitVec 64) : State :=
  let old := s.tg.brk
  let s := s.updTg fun t => { t with brk := b }
  allPorts.foldl (fun s p =>
    if old.getLsbD p.val = b.getLsbD p.val then s
    else s.updTp p fun x => { x with brkWait := true, brkMon := true, brkBad := false, brkAt := s.tg.clk }) s

/-- Set the `GEN` outputs; axes follow `STO_ACTIVE`. -/
def State.setGen (s : State) (g : BitVec 64) : State :=
  let old := s.tg.gen
  let s := s.updTg fun t => { t with gen := g }
  allPorts.foldl (fun s p =>
    if old.getLsbD p.val = g.getLsbD p.val then s
    else
      match s.axisOf p with
      | some i => if g.getLsbD p.val then s.stoClear i else s.stoSet i
      | none => s) s

/-- State of a safe output (R399, R400). -/
def State.soNext (s : State) (o : Fin 16) : Bool :=
  let x := s.tg.sos[o]
  if s.tg.watchdog || !s.tgActive then false
  else
    match s.sf P.sfSoMode o.val with
    | 1 =>
      s.tg.st == .run && !x.lockout
        && (if s.sf P.sfOteso = o.val then !s.tg.oteOff
            else !allFns.any (fun f => s.fnType f != 0 && bit (s.sf P.sfFnSo f.val) o.val && (s.tg.fns[f]).st != .clear))
        && (x.on || decide (o.val < 8) || s.tg.edm.getLsbD (o.val - 8))
    | 2 =>
      allFns.any fun f => s.fnType f == 3 && s.sf P.sfFnLockso f.val == o.val &&
        ((s.tg.fns[f]).locked == (s.sf P.sfFnLockact f.val == 0))
    | _ => false

/-- Write every output (step 3 of R384). -/
def State.tgOutputs (s : State) : State :=
  let g := portMask s.genNext
  let pad := portMask s.padNext
  let b := s.tg.brk &&& g
  let s := (List.finRange 16).foldl (fun s o =>
    let on := s.soNext o
    let watch := (s.tg.sos[o]).on != on && decide (8 ≤ o.val) && s.sf P.sfSoMode o.val == 1
    s.updSo o fun x =>
      { x with on := on, edmWait := watch || x.edmWait, edmAt := if watch then s.tg.clk else x.edmAt }) s
  let s := s.updTg fun t => { t with pad := pad }
  (s.setBrk b).setGen g

/-! ### Status (Tables 12.14, 12.15, 3.22) -/

/-- Cause of the oldest active lockout. -/
def State.tgCause (s : State) : Nat :=
  if s.tg.st = .safeHalt then 0x0C
  else
    let l := (allPorts.filterMap fun p => let x := s.tg.ports[p]; if x.st = .lockout then some (x.since, x.cause) else none)
      ++ ((List.finRange 16).filterMap fun o => let x := s.tg.sos[o]; if x.lockout then some (x.since, x.cause) else none)
    match l with
    | [] => 0
    | q :: r => (r.foldl (fun m x => if x.1 < m.1 then x else m) q).2

def State.tgStateWord (s : State) : Nat := s.tg.st.code + 256 * s.tgCause

def soMask (f : Fin 16 → Bool) : Nat := ofBools ((List.finRange 16).map f)

/-- Bytes 4 to 87 of `SAFE_STATUS` (Table 12.15). -/
def State.tgStatus (s : State) : List Byte :=
  let t := s.tg
  leBytes 1 t.st.code ++ leBytes 1 s.tgCause ++ zeros 2
    ++ leBytes 4 ((t.cfg.map (·.id)).getD 0) ++ leBytes 4 ((t.cfg.map (·.seq)).getD 0)
    ++ (List.range 4).flatMap (fun w =>
        leBytes 4 ((List.range 16).foldl (fun n k =>
          n + (match fin? 64 (16 * w + k) with | some p => (t.ports[p]).st.code | none => 0) * 4 ^ k) 0))
    ++ leBytes 8 t.gen.toNat ++ leBytes 8 t.brk.toNat ++ leBytes 8 t.pad.toNat ++ leBytes 8 s.torLines.toNat
    ++ leBytes 8 t.btDue.toNat ++ leBytes 4 t.si.toNat ++ leBytes 2 (soMask fun o => (t.sos[o]).on) ++ leBytes 1 t.edm.toNat
    ++ leBytes 1 (ofBools [t.reset.armed, s.activeFault 0x070B .device 0, s.activeFault 0x070C .device 0])
    ++ leBytes 2 (soMask fun f => s.fnType f != 0 && (t.fns[f]).st != .clear)
    ++ leBytes 2 (soMask fun f => s.fnType f != 0 && (t.fns[f]).st == .awaitReset)
    ++ leBytes 2 (soMask fun f => s.fnType f != 0 && (t.fns[f]).st == .fault)
    ++ leBytes 2 (soMask fun o => (t.sos[o]).lockout)

/-- Note the time of a change of any field of `SAFE_STATUS`. -/
def State.tgNote (s : State) : State :=
  let b := s.tgStatus
  if b = s.tg.status then s else s.updTg fun t => { t with status := b, lastChange := s.now }

/-- Update the mirror (R120); a changed state word sets `INTSTAT.TGMIR` (Table 3.20). -/
def State.tgMirror (s : State) : State :=
  let t := s.tg
  let w := s.tgStateWord
  let m : Mirror :=
    { seq := (t.mirror.seq + 2) % 2 ^ 32, state := w, gen := t.gen, brk := t.brk, si := t.si
      soedm := soMask (fun o => (t.sos[o]).on) + 65536 * t.edm.toNat, cfgId := (t.cfg.map (·.id)).getD 0
      silent := t.mirror.silent, since := t.clk }
  let s' := (s.updTg fun t => { t with mirror := m }).strobe 0x0C 0
  if w = t.mirror.state ∨ s.boot.inReset then s' else s'.setInt 17 31

/-! ### Reset input (R401 to R403) -/

/-- The input a press is taken from: that of the pending configuration while it is being confirmed (R409). -/
def State.resetIdx (s : State) : Nat :=
  if s.tg.st = .confirming then
    match s.tg.pending with
    | some im => match sfContent (imgContent im) with | .ok vs => sfVal vs P.sfResetin 0 | .error _ => 0xFF
    | none => 0xFF
  else if s.tg.cfg.isSome then s.sf P.sfResetin else 0xFF

/-- Watch the reset input afresh: arming starts now (R402, R409). -/
def State.watchReset (s : State) : State :=
  let lvl := s.tg.si.getLsbD s.resetIdx
  s.updReset fun r => { r with armed := false, idle := if lvl then none else some s.tg.clk, press := none, stuck := false, due := false }

/-- Filtered inactive for at least 100 ms: the next press counts (R402). -/
def Tollgate.nowArmed (t : Tollgate) : Bool :=
  t.reset.armed || (match t.reset.idle with | some t0 => decide (t0 + 100 * tgMs ≤ t.clk) | none => false)

/-- An edge of the reset input. -/
def State.resetEdge (s : State) (lvl : Bool) : State :=
  let t := s.tg
  if lvl then
    s.updReset fun r => { r with armed := t.nowArmed, press := some (t.clk, t.nowArmed), idle := none, stuck := false }
  else
    let s' := s.updReset fun r => { r with press := none, idle := some t.clk, stuckGone := some t.clk }
    match t.reset.press with
    | none => s'
    | some (t0, armed) =>
      if t.reset.stuck then s'
      else if !armed then s'.safetyEvent 8 s.resetIdx 3 0
      else if t.clk < t0 + 100 * tgMs then s'.safetyEvent 8 s.resetIdx 1 0
      else if t.clk ≤ t0 + 5000 * tgMs then s'.updReset fun r => { r with due := true }
      else s'

/-- Clear an active device fault of Tollgate by itself (R403). -/
def State.tgAutoClear (s : State) (code : Nat) : State :=
  match s.faults.table.find? (fun r => r.code == code && r.scope == .device) with
  | some r => s.clearRec r
  | none => s

/-- The faults of the reset input clear when their condition has been absent for 1 s (R403). -/
def State.resetFaults (s : State) : State :=
  let i := s.resetIdx
  let bad := decide (i < 32) && (s.tg.tpBad ||| s.tg.crossBad).getLsbD i
  let s := s.updReset fun r =>
    { r with inputGone := if bad then none else some (r.inputGone.getD s.tg.clk)
             stuckGone := if s.tg.si.getLsbD i then none else some (r.stuckGone.getD s.tg.clk) }
  let past (x : Option Nat) : Bool := match x with | some t0 => decide (t0 + 1000 * tgMs ≤ s.tg.clk) | none => false
  let s := if past s.tg.reset.stuckGone then s.tgAutoClear 0x070B else s
  if past s.tg.reset.inputGone then s.tgAutoClear 0x070C else s

/-! ### Brake supervision and tests (R397, R404, R405) -/

/-- `BRKFB` shows the state of `BRK`. -/
def State.brkShows (s : State) (p : Fin 64) : Bool :=
  let released := s.tg.brkfb.getLsbD p.val == (s.sf P.sfPtBrkfbpol p.val == 0)
  released == s.tg.brk.getLsbD p.val

/-- A test of this port ends without a result. -/
def State.abortBrakeTest (s : State) (p : Fin 64) : State :=
  match (s.tg.ports[p]).test with
  | none => s
  | some b => (s.complete? b.ref .aborted 0x0101 s.now).updTp p fun x => { x with test := none }

/-- A test of this axis runs (R404). -/
def State.brakeTesting (s : State) (i : Fin 512) : Bool :=
  match s.portOf i with
  | some p => (s.tg.ports[p]).test.isSome
  | none => false

/-- The current a test drives instead of the position law (Table 12.7): sign × `SF.PT_BTCUR`. -/
def State.brakeCurrent (s : State) (i : Fin 512) : Option Rat :=
  match s.portOf i with
  | some p =>
    match (s.tg.ports[p]).test with
    | some b =>
      if b.phase = .drive then
        (let c := fpToRat (BitVec.ofNat 32 (s.sf P.sfPtBtcur p.val))
         some (if b.neg then -c else c))
      else none
    | none => none
  | none => none

/-- The end of a test with a result: 0 pass, 1 fail, 2 `TORQUE_LOW`. -/
def State.endBrakeTest (s : State) (p : Fin 64) (b : BrakeTest) (res : Nat) : State :=
  let dir := if res = 0 then 0 else if b.neg then 2 else 1
  let body := leBytes 1 res ++ leBytes 1 dir ++ zeros 2 ++ leBytes 4 b.maxD
  let s := match b.ref with | some r => s.complete r .done 0 s.now body | none => s
  let s := (s.updTp p fun x => { x with test := none }).safetyEvent 10 p.val res (BitVec.ofNat 64 (2 ^ p.val))
  if res = 0 then
    (s.updTp p fun x => { x with passAt := s.tg.clk }).updTg fun t => { t with btDue := t.btDue &&& ~~~(BitVec.ofNat 64 (2 ^ p.val)) }
  else s

/-- One cycle of a brake test: a demand, a fault or a disabled axis ends it; the tap is checked while current is driven. -/
def State.brakeTestCycle (s : State) (p : Fin 64) : State :=
  let x := s.tg.ports[p]
  match x.test with
  | none => s
  | some b =>
    let idle := match s.axisOf p with | some i => s.axes[i].st == .enabledIdle | none => false
    if x.st ≠ .permit ∨ idle = false then s.abortBrakeTest p
    else if b.phase = .drive then
      let d := ((s.fb[p]).count - b.p0).natAbs
      let b := { b with maxD := max b.maxD d }
      let s := s.updTp p fun x => { x with test := some b }
      if s.sf P.sfPtBtposmax p.val < d then (s.endBrakeTest p b 1).tgPortFault p 0x0706 8 else s
    else s

/-- Readback of `BRKFB` and `GEN` at a cycle (R395, R397). -/
def State.tgReadback (s : State) (pads : BitVec 64) (p : Fin 64) : State :=
  let x := s.tg.ports[p]
  let shows := s.brkShows p
  let brake := s.sf P.sfPtBrake p.val == 1
  let s := if brake && x.brkMon then
      (if x.brkWait then s.updTp p fun x => { x with brkWait := !shows }
       else if shows then s.updTp p fun x => { x with brkBad := false }
       else
         let s' := s.updTp p fun x => { x with brkBad := true }
         if x.brkBad then s' else s'.tgPortFault p 0x0705 7)
    else s
  let stuck := pads.getLsbD p.val && !s.tg.gen.getLsbD p.val
  let n := if stuck then x.genRun + 1 else 0
  let s := s.updTp p fun x => { x with genRun := n }
  if n = 2 then (s.updTg fun t => { t with oteOff := true }).tgPortFault p 0x0708 9 else s

/-- `EDM` checks of an output at a cycle (R400). -/
def State.edmCycle (s : State) (old : BitVec 8) (o : Fin 16) : State :=
  if o.val < 8 ∨ s.sf P.sfSoMode o.val ≠ 1 then s
  else
    let x := s.tg.sos[o]
    let e := s.tg.edm.getLsbD (o.val - 8)
    if x.edmWait then (if e = !x.on then s.updSo o fun x => { x with edmWait := false } else s)
    else if old.getLsbD (o.val - 8) ≠ e ∧ x.lockout = false then s.soFault o 0x070A 0x0B
    else s

/-- A valid reset clears the lockout of outputs whose cause has gone (R403). -/
def State.soReset (s : State) : State :=
  let s := (List.finRange 16).foldl (fun s o =>
    let x := s.tg.sos[o]
    let gone := if x.cause = 0x0B then s.tg.edm.getLsbD (o.val - 8) else true
    if x.lockout && gone then s.updSo o fun x => { x with lockout := false, bad := false, cause := 0 } else s) s
  s.updTg fun t => { t with oteOff := t.oteOff && t.ports.toList.any (fun x => decide (0 < x.genRun)) }

/-! ### Acceptance (R407, R409) -/

/-- Tollgate holds a new configuration: functions and ports start afresh. -/
def State.acceptCfg (s : State) (c : TgCfg) (cause : Nat) : State :=
  let s := s.updTg fun t =>
    { t with
      cfg := some c, st := .run, fns := Vector.replicate 16 {}, sos := Vector.replicate 16 {}, tpoWin := 0, tpBad := 0
      crossBad := 0, oteOff := false, ports := t.ports.map fun x => { x with brkWait := false, brkMon := false, brkBad := false, genRun := 0 } }
  let s := allFns.foldl (fun s f =>
    let ch := s.fnChan f
    let h := s.hands f
    s.updFn f fun x =>
      { (if twoChannel (s.fnType f) then x.channels ch.1 ch.2 else x) with released := !h.1 && !h.2 }) s
  let lockAll := cause == 2 || s.sf P.sfStartreset == 1
  let s := allPorts.foldl (fun s p =>
    let st : TgPortState :=
      if lockAll then .lockout else if (s.covering p).any s.fnDemands then .sto else .permit
    s.updTp p fun x => { x with st := st, cause := if lockAll then cause else 0, since := s.tg.cycles, taps := [] }) s
  let s := (s.fnTimes.watchReset).safetyEvent 9 0 0 0
  if lockAll then s.safetyEvent 6 0 cause (BitVec.allOnes 64) else s

/-- `SAFE_HALT`: every output low until a cold reset (R384, Table 12.17). -/
def State.tgHalt (s : State) : State :=
  if s.tg.st = .safeHalt then s
  else
    let s := s.updTg fun t => { t with st := .safeHalt }
    let s := (s.tgOutputs).safetyEvent 11 0 0 0
    (if s.boot.inReset then s else s.raiseDev 0x070E 6).tgNote

end Sys2Proof.Machine
end

