-- ==== Sys2Proof/Machine/MotionCmds.lean ====
section
/-!
DEFINITION. The motion, homing and coordination commands: their checks and acceptance (R321 to R324, R341, R353 to R367).
-/
namespace Sys2Proof.Machine

/-- A motion command is accepted (R314, R322, R327): it waits for its takeover, and one that waited before ends. -/
def State.acceptMotion (s : State) (i : Fin 512) (m : MotionCmd) (st : AxState) : State :=
  let s := s.finishMotion? i s.axes[i].prof.next .aborted 0x0101
  let s := s.setParam P.axHoldmode i.val 0 0
  s.updAxis i fun a => { a with st := st, prof := { a.prof with next := some m } }

/-- The command record of a packet. -/
def State.motionCmd (s : State) (t : Instant) (p : Packet) (k : MotionKind) : MotionCmd :=
  { ref := some (s.refOf p), opcode := p.opcode.toNat, tag := p.tag, kind := k, at_ := s.effect t, timed := t.any (·.2) }

/-- Rows of Table 10.4 up to the state rows, for moves. -/
def State.moveState (s : State) (i : Fin 512) : Check Unit := do
  s.notRetired i
  match s.axes[i].st with
  | .fault => .error (.state, 0x0005)
  | .disabled | .ready => .error (.state, 0x0007)
  | .homing => .error (.state, 0x0008)
  | .stopping => .error (.state, 0x0006)
  | _ => .ok ()
  need (!s.brakeTesting i) .state 0x0012
  need (!s.net.owned.contains i.val) .state 0x0013

/-- An override is 0, or positive and at most its parameter (Table 10.3). -/
def State.overrideOk (s : State) (i : Fin 512) (x : Int) (d : PDef) : Bool :=
  x == 0 || (decide (0 < x) && decide (ofVel64 x ≤ s.axVel d i))

/-- No motion in direction `d` towards an active limit input (R324). -/
def State.limitFree (s : State) (i : Fin 512) (d : Rat) : Bool :=
  !(decide (0 < d) && s.inputActive i (s.ax P.axLimposin i) 1) && !(decide (d < 0) && s.inputActive i (s.ax P.axLimnegin i) 2)

/-- `MOVE_ABS` and `MOVE_REL` (Tables 10.3, 10.4). -/
def State.moveTo (s : State) (t : Instant) (p : Packet) (rel : Bool) : HRes :=
  .ofCheck s do
    need (p.args.length == 36) .badLength 0x0004
    let i ← s.target p
    let fl := u8 p.args 32
    need (rsvZero p.args 33 3 && decide (fl < (if rel then 2 else 1))) .range 0
    s.moveState i
    let x := i64 p.args 0
    let vmax := i64 p.args 8
    let amax := i64 p.args 16
    let dmax := i64 p.args 24
    need (s.overrideOk i vmax P.axVmax && s.overrideOk i amax P.axAmax && s.overrideOk i dmax P.axDmax) .range 0x0101
    let pr := s.axes[i].prof
    let base := if pr.positioning && !bit fl 0 then ofPos64 pr.target else ofPos64 pr.cmdPos
    let target := if rel then base + ofPos64 x else ofPos64 x
    need (decide (s.axPos P.axSwlimneg i ≤ target) && decide (target ≤ s.axPos P.axSwlimpos i)) .range 0x0102
    need (s.limitFree i (target - ofPos64 pr.cmdPos)) .range 0x0103
    need (rel || s.ax P.axHomereq i != 1 || s.axes[i].home.referenced) .state 0x0009
    let m := s.motionCmd t p (if rel then .relative x (bit fl 0) else .absolute x)
    return .accepted (s.acceptMotion i { m with vmax := vmax, amax := amax, dmax := dmax } .moving)

def opMoveAbs (t : Instant) (p : Packet) (s : State) : HRes := s.moveTo t p false
def opMoveRel (t : Instant) (p : Packet) (s : State) : HRes := s.moveTo t p true

/-- `MOVE_VEL` (R319, R339). -/
def opMoveVel (t : Instant) (p : Packet) (s : State) : HRes :=
  .ofCheck s do
    need (p.args.length == 28) .badLength 0x0004
    let i ← s.target p
    let fl := u8 p.args 24
    need (rsvZero p.args 25 3 && decide (fl < 2)) .range 0
    s.moveState i
    let v := i64 p.args 0
    let amax := i64 p.args 8
    let dmax := i64 p.args 16
    let follow := bit fl 0
    need ((follow || decide (ratAbs (ofVel64 v) ≤ s.axVel P.axVmax i)) && s.overrideOk i amax P.axAmax
      && s.overrideOk i dmax P.axDmax) .range 0x0101
    need (follow || s.limitFree i (ofVel64 v)) .range 0x0103
    need (!follow || (s.stepSource i).isSome) .state 0x000A
    let m := s.motionCmd t p (if follow then .follow else .velocity v)
    return .accepted (s.acceptMotion i { m with amax := amax, dmax := dmax } .moving)

/-- `STOP` (R320, Table 10.4). -/
def opStop (t : Instant) (p : Packet) (s : State) : HRes :=
  .ofCheck s do
    need (p.args.length == 4) .badLength 0x0004
    let i ← s.target p
    let mode := u8 p.args 0
    need (decide (mode ≤ 1) && rsvZero p.args 1 3) .range 0
    s.notRetired i
    let k : StopKind := if mode = 1 then .quick else .controlled
    let m := s.motionCmd t p (.stop (mode == 1))
    match s.axes[i].st with
    | .moving | .homing =>
      return .accepted ((s.startStop i k 0x0102).updAxis i fun a => { a with stopCmd := some m })
    | .stopping =>
      if mode = 1 ∧ s.axes[i].stop ≠ .quick then
        return .accepted (((s.endStop i .aborted 0x0102).startStop i k 0x0102).updAxis i fun a => { a with stopCmd := some m })
      else return .ok s
    | _ => return .ok s

/-- A homing method that the binding permits and whose inputs are assigned (Table 10.10, R341). -/
def State.methodOk (s : State) (i : Fin 512) (n : Nat) : Bool :=
  let quad := s.ax P.axFbmode i == 1 || s.ax P.axFbmode i == 2
  match n with
  | 0 => true
  | 1 => s.isLocal i && s.ax P.axHomein i != 0xFF
  | 2 => s.isLocal i && quad && s.ax P.axHomein i != 0xFF
  | 3 => s.isLocal i && quad
  | 4 => s.isLocal i && (s.refInput i 4).1 != 0xFF
  | 5 => s.isLocal i
  | _ => false

/-- `HOME` (R341, Table 10.11). -/
def opHome (t : Instant) (p : Packet) (s : State) : HRes :=
  .ofCheck s do
    need (p.args.length == 12) .badLength 0x0004
    let i ← s.target p
    let m0 := u8 p.args 0
    let fl := u8 p.args 1
    need (decide (fl < 2) && rsvZero p.args 2 2 && (decide (m0 < 6) || m0 == 0xFF)) .range 0
    s.moveState i
    need (s.axes[i].st != .moving) .state 0x000B
    let method := if m0 = 0xFF then s.ax P.axHomemethod i else m0
    need (s.methodOk i method) .range 0x0104
    let pos := if bit fl 0 then i64 p.args 4 else signed 64 (s.ax P.axHomepos i)
    let s1 := s.acceptMotion i (s.motionCmd t p (.home method pos)) .homing
    let quiet := !(s.inputActive i (s.refInput i method).1 (s.refInput i method).2)
    return .accepted (s1.updHome i fun h =>
      { h with
        phase := .none, method := method, homePos := pos, reversed := false, transitions := 0, seenInactive := quiet
        after := none, edges := [], indexes := [], mark := none, stall := false, stuck := false, delta := 0 })

/-! ### Coordination commands (Table 11.6) -/

/-- `AT_MASTER` fields (Tables 11.1, 11.2, 11.4). -/
def atMaster (fl : Nat) (pos : Int) : Option AtMaster := if bit fl 0 then some ⟨pos, bit fl 1⟩ else none

/-- Gearing of the axis is locked. -/
def State.gearLocked (s : State) (i : Fin 512) : Bool :=
  s.axes[i].prof.source == .gear && (match s.axes[i].coord.gear with
    | some g => g.phase == .locked
    | none => false)

/-- `GEAR_ENGAGE` (R353 to R357, R367). -/
def opGearEngage (t : Instant) (p : Packet) (s : State) : HRes :=
  .ofCheck s do
    need (p.args.length == 32) .badLength 0x0004
    let i ← s.target p
    let num := i32 p.args 0
    let den := u32 p.args 4
    let mode := u8 p.args 8
    let fl := u8 p.args 9
    let len := i32 p.args 12
    let ms := i64 p.args 16
    let off := i64 p.args 24
    need (decide (mode ≤ 2) && decide (fl < 4) && rsvZero p.args 10 2 && (bit fl 0 || ms == 0) && (mode == 2 || off == 0)
      && (mode != 0 || len == 0) && (mode != 2 || (num == 0 && den == 0))) .range 0
    s.moveState i
    need (s.hasMaster i) .state 0x000F
    need (mode != 1 || s.gearLocked i || s.axes[i].st == .enabledIdle) .state 0x000C
    need (mode != 2 || s.gearLocked i) .state 0x000C
    need ((mode == 2 || (decide (num ≠ 0) && den != 0)) && (mode == 0 || decide (len ≠ 0))) .range 0x0101
    let m := s.motionCmd t p
      (.gear { num := num, den := den, mode := mode, at_ := atMaster fl ms, len := len, offset := off })
    return .accepted (s.acceptMotion i m .moving)

/-- `GEAR_RELEASE` (R358, R362). -/
def opGearRelease (t : Instant) (p : Packet) (s : State) : HRes :=
  .ofCheck s do
    need (p.args.length == 16) .badLength 0x0004
    let i ← s.target p
    let mode := u8 p.args 0
    let fl := u8 p.args 1
    let len := i32 p.args 4
    let ms := i64 p.args 8
    need (decide (mode ≤ 3) && decide (fl < 4) && rsvZero p.args 2 2 && (bit fl 0 || ms == 0) && (mode == 3 || len == 0))
      .range 0
    s.moveState i
    let src := s.axes[i].prof.source
    if src != .gear && src != .cam then return .ok s
    else do
      need (s.hasMaster i) .state 0x000F
      need (mode != 3 || src == .gear) .state 0x000C
      need (mode != 3 || decide (len ≠ 0)) .range 0x0101
      return .accepted (s.acceptMotion i (s.motionCmd t p (.release mode (atMaster fl ms) len)) .moving)

/-- The gap g of R361 as it stands at acceptance. -/
def State.camGap (s : State) (i : Fin 512) (c : CamCmd) : Rat :=
  let t := s.nowRat
  match s.masterAt i t with
  | some m =>
    let m0 := match c.at_ with
      | some a => ofPos64 a.pos
      | none => m.1
    (s.sourceState i t).1 - ((camEval (s.camTable c.cam) (m0 - ofPos64 c.phase)).1 + ofPos64 c.offset)
  | none => 0

/-- `CAM_ENGAGE` (R361, R362). -/
def opCamEngage (t : Instant) (p : Packet) (s : State) : HRes :=
  .ofCheck s do
    need (p.args.length == 32) .badLength 0x0004
    let i ← s.target p
    let mode := u8 p.args 1
    let fl := u8 p.args 2
    let ms := i64 p.args 24
    need (decide (mode ≤ 2) && decide (fl < 16) && rsvZero p.args 3 5 && (bit fl 0 || ms == 0)) .range 0
    match fin? 64 (u8 p.args 0) with
    | none => .error (.range, 0)
    | some cam => do
      s.moveState i
      let c : CamCmd :=
        { cam := cam, mode := mode, at_ := atMaster fl ms, relative := bit fl 2, oneShot := bit fl 3, phase := i64 p.args 8,
          offset := i64 p.args 16 }
      need (s.hasMaster i) .state 0x000F
      let same := s.axes[i].prof.source == .cam && (match s.axes[i].coord.cam with
        | some k => k.cam == cam
        | none => false)
      need (mode == 0 || same) .state 0x000C
      let loaded := (assocGet? s.tables.cams cam.val).isSome
      need (loaded && !(c.oneShot && camPeriodic (s.camTable cam))) .range 0x0102
      need (mode != 0 || c.relative || s.ax P.axCamblend i != 0 || decide (ratAbs (s.camGap i c) ≤ 1)) .range 0x0103
      return .accepted (s.acceptMotion i (s.motionCmd t p (.cam c)) .moving)

/-! ### Paths -/

/-- Members of the path group of an axis, in ascending order (Table 11.5). -/
def State.pathGroup (s : State) (i : Fin 512) : List (Fin 512) :=
  let g := s.ax P.axPathgrp i
  if g = 0 then [] else allAxes.filter fun j => s.bound j && s.ax P.axPathgrp j == g

/-- A path of this leader is running. -/
def State.pathRunning (s : State) (l : Fin 512) : Option PathRun :=
  match s.axes[l].coord.path with
  | some r => if (r.members.filterMap (fin? 512)).any (fun j => s.axes[j].coord.pathLeader == some l.val) then some r else none
  | none => none

/-- The segments of a packet (Table 11.5). -/
def pathSegments (b : List Byte) (n : Nat) : Nat → List PathSeg
  | 0 => []
  | k + 1 =>
    let seg : PathSeg :=
      { tEnd := u64 b 0, cubic := u8 b 8 == 1, last := bit (u8 b 9) 0
        ends := (List.range n).map fun j => (i64 b (16 + 16 * j), i64 b (24 + 16 * j)) }
    seg :: pathSegments (b.drop (16 + 16 * n)) n k

/-- Reserved fields of the segments are zero (Table 11.5). -/
def segsReserved (b : List Byte) (n : Nat) : Nat → Bool
  | 0 => true
  | k + 1 =>
    decide (u8 b 8 ≤ 1) && decide (u8 b 9 ≤ 1) && rsvZero b 10 6 &&
      (u8 b 8 == 1 || (List.range n).all fun j => rsvZero b (24 + 16 * j) 8) && segsReserved (b.drop (16 + 16 * n)) n k

/-- Order checks of R365: every end at least 10 µs after its start `tA`, nothing after an `END` segment. -/
def segsOrder (tA : Nat) (after : Bool) : List PathSeg → Check Unit
  | [] => .ok ()
  | g :: rest => do
    need (!after) .range 0x0105
    need (decide (tA + 10000 ≤ g.tEnd)) .range 0x0101
    segsOrder g.tEnd g.last rest

/-- `PATH_APPEND` (R363 to R367). -/
def opPathAppend (t : Instant) (p : Packet) (s : State) : HRes :=
  .ofCheck s do
    let b := p.args
    let count := u8 b 0
    let n := u8 b 1
    need (decide (12 ≤ b.length) && b.length == 12 + count * (16 + 16 * n)) .badLength 0x0004
    let i ← s.target p
    let segs := pathSegments (b.drop 12) n count
    need (decide (1 ≤ count) && decide (1 ≤ n) && decide (n ≤ 8) && rsvZero b 2 2 && segsReserved (b.drop 12) n count) .range 0
    s.moveState i
    let grp := s.pathGroup i
    need (grp.head? == some i) .state 0x0010
    let run := s.pathRunning i
    need (run.isSome || grp.all fun j => s.axes[j].st == .enabledIdle) .state 0x0011
    need (n == grp.length) .range 0x0106
    let tStart := u64 b 4
    let queued := (run.map (·.segs)).getD []
    let tA := match queued.getLast? with
      | some g => g.tEnd
      | none => match run with
        | some r => r.tStart.getD s.now
        | none => if tStart = 0 then s.effect t else tStart
    let after := (queued.getLast?.map (·.last)).getD false
    segsOrder tA after segs
    need (decide (s.now < (segs.head?.map (·.tEnd)).getD 0)) .range 0x0102
    need (segs.all fun g => !(g.last && g.cubic) || g.ends.all fun e => e.2 == 0) .range 0x0104
    need (decide (queued.length + segs.length ≤ 1024)) .queueFull 0x0001
    match run with
    | some r =>
      return .ok (s.updAxis i fun a => { a with coord := { a.coord with path := some { r with segs := r.segs ++ segs } } })
    | none =>
      let r : PathRun :=
        { members := grp.map (·.val), tStart := if tStart = 0 then none else some tStart
          start := grp.map fun j => (ofPos64 s.axes[j].prof.cmdPos, 0), segs := segs }
      let m := s.motionCmd t p .path
      let s1 := grp.foldl (fun s j =>
        (s.acceptMotion j { m with ref := if j = i then m.ref else none } .moving).updAxis j fun a =>
          { a with coord := { a.coord with pathLeader := some i.val } }) s
      return .accepted (s1.updAxis i fun a => { a with coord := { a.coord with path := some r } })

end Sys2Proof.Machine
end

