-- ==== Sys2Proof/Machine/Enable.lean ====
section
/-!
DEFINITION. `AXIS_ENABLE` and `AXIS_DISABLE` (R31, R32, R296, R553).
-/
namespace Sys2Proof.Machine

/-- What an `AXIS_ENABLE` meets in the present state (Table 1.12): a refusal; `some true` when it starts or joins energising or
waits; `some false` when it has no effect. Where several rows apply the state refuses first, then the lockout, then a missing
prerequisite: the table gives no order (DESIGN CHOICE, log 95). -/
def State.judgeEnable (s : State) (i : Fin 512) (wait : Bool) : Check Bool :=
  match s.axes[i].st with
  | .retired => .error (.retired, 0)
  | .stopping => .error (.state, 0x0006)
  | .fault => .error (.state, 0x0005)
  | .enabledIdle | .moving | .homing => .ok false
  | st =>
    let locked := match s.portOf i with
      | some p => (s.tg.ports[p]).st == TgPortState.lockout
      | none => false
    if locked then .error (.lockedOut, 0)
    else if st = AxState.ready then .ok true
    else match s.missing i with
      | some d => if wait then .ok true else .error (.state, d)
      | none => .ok true

/-- Start energising of a `READY` axis, or wait for prerequisites (R32, R555). -/
def State.startEnable (s : State) (i : Fin 512) (op : EnableOp) : State :=
  let refs := (match s.axes[i].enable with | some e => e.refs | none => []) ++ op.refs
  let old := s.axes[i].enable
  match s.axes[i].st with
  | .ready =>
    let s := if old.isSome && s.axes[i].energ != .off then s else s.energiseStart i
    s.updAxis i fun a =>
      { a with
        enable := some { op with refs := refs, phase := .energising }
        energ := if old.isSome && a.energ != .off then a.energ else if s.isLocal i then .start else .off }
  | .disabled => s.updAxis i fun a => { a with enable := some { op with refs := refs, phase := .waiting } }
  | _ => s

/-- `AXIS_ENABLE` (Tables 1.10, 1.12): on a group it acts on every member (R296). A command that breaks several of its checks is refused
for the length before the target, then for a range, then as retired: the spec gives no order (DESIGN CHOICE, log 95). -/
def opAxisEnable (_ : Instant) (p : Packet) (s : State) : HRes :=
  .ofCheck s do
    need (p.args.length == 4) .badLength 0x0004
    let i ← s.target p
    let fl := u8 p.args 0
    let tmo := u16 p.args 2
    need (decide (fl < 2) && rsvZero p.args 1 1 && decide (tmo ≤ 10000)) .range 0
    s.notRetired i
    let wait := bit fl 0
    let op : EnableOp := { refs := [], phase := .energising, wait := wait, timeoutMs := tmo }
    if s.commitHolds i then
      return .accepted ((s.groupMembers i).foldl (fun s j =>
        s.updAxis j fun a =>
          { a with enable := some { op with
              phase := .commit
              refs := (match a.enable with | some e => e.refs | none => []) ++ (if j = i then [s.refOf p] else []) } }) s)
    else do
      let here ← s.judgeEnable i wait
      let others := (s.groupMembers i).filter (· != i)
      let more ← others.mapM (fun j => s.judgeEnable j wait)
      if !here && !more.any id then return .ok s
      else
        let s1 := others.foldl (fun s j => s.startEnable j op) s
        if here then return .accepted (s1.startEnable i { op with refs := [s.refOf p] })
        else return .accepted (s1.updAxis i fun a => { a with enable := some { op with refs := [s.refOf p] } })

/-- A commit holds an enable of the axis. -/
def Axis.held (a : Axis) : Bool := match a.enable with | some e => e.phase == .commit | none => false

/-- The enable names commands of this axis, not only of another member of its group. -/
def Axis.named (a : Axis) : Bool := match a.enable with | some e => !e.refs.isEmpty | none => false

/-- A held enable is taken as if it arrived now (R553), on a group for every member together (R296): the axis it named is judged
first. -/
def State.releaseEnable (s : State) (i : Fin 512) : State :=
  if !s.axes[i].held then s
  else if !s.bound i then s.endEnable i .badTarget 0
  else
    let ms := (s.groupMembers i).filter fun j => s.axes[j].held
    let ms := (ms.filter fun j => s.axes[j].named) ++ ms.filter fun j => !s.axes[j].named
    match ms.mapM fun j => s.judgeEnable j ((s.axes[j].enable.map (·.wait)).getD false) with
    | .error (st, det) => ms.foldl (fun s j => s.endEnable j st det) s
    | .ok l =>
      (ms.zip l).foldl (fun s x =>
        match x.2, s.axes[x.1].enable with
        | true, some e => (s.updAxis x.1 fun a => { a with enable := none }).startEnable x.1 e
        | _, _ => s.endEnable x.1 .ok 0) s

/-- When the commit completes, the enables it held are taken (R553). -/
def State.releaseEnables (s : State) : State := allAxes.foldl State.releaseEnable s

/-- `timeout_ms` of a waiting `AXIS_ENABLE` expires (Table 1.12). -/
def execEnableWaitTimeout (i : Fin 512) (s : State) : Out :=
  s.main
    (match s.axes[i].enable with
     | some e => if e.phase = .waiting then s.endEnable i .timeout ((s.missing i).getD 0) else s
     | none => s)

/-- Disable one axis in a given mode (Table 1.12): the state, and whether a stop now runs that will lead to `READY` or
`DISABLED`. -/
def State.disableOne (s : State) (i : Fin 512) (mode : Nat) (refs : List CmdRef) : State :=
  let s := match s.portOf i with
    | some p => s.abortBrakeTest p
    | none => s
  let s := s.clearHold i
  let mark (s : State) : State :=
    s.updAxis i fun a => { a with disabling := true, disableRefs := a.disableRefs ++ refs }
  let drop (s : State) : State := s.updAxis i fun a => { a with dropNow := true }
  match s.axes[i].st with
  | .enabledIdle => drop (mark s)
  | .moving | .homing =>
    if mode = 2 then drop (mark s)
    else mark (s.startStop i (if mode = 1 then .quick else .controlled) 0x0104)
  | .stopping =>
    if mode = 2 then drop (mark s)
    else if mode = 1 ∧ s.axes[i].stop ≠ .quick then mark ((s.endStop i .aborted 0x0104).startStop i .quick 0x0104)
    else s
  | _ => s

/-- Once its `AXIS_DISABLE` has been answered the axis leaves its enabled state (Table 1.9). -/
def State.settle (s : State) : State :=
  allAxes.foldl (fun s i =>
    if s.axes[i].dropNow then
      let s := s.updAxis i fun a => { a with dropNow := false }
      if s.axes[i].st ≠ .enabledIdle ∧ s.faulted i = true then s.enterFault i else s.enterRest i
    else s) s

/-- `AXIS_DISABLE` has something to do on an axis (Table 1.12). -/
def State.canDisable (s : State) (i : Fin 512) (mode : Nat) : Bool :=
  match s.axes[i].st with
  | .enabledIdle | .moving | .homing => true
  | .stopping => mode == 2 || (mode == 1 && s.axes[i].stop != .quick)
  | _ => false

/-- `AXIS_DISABLE` (Tables 1.11, 1.12): on a group it acts on every member (R296). Its checks stand in the order of `opAxisEnable`
(DESIGN CHOICE, log 95). -/
def opAxisDisable (_ : Instant) (p : Packet) (s : State) : HRes :=
  .ofCheck s do
    need (p.args.length == 4) .badLength 0x0004
    let i ← s.target p
    let mode := u8 p.args 0
    need (decide (mode ≤ 2) && rsvZero p.args 1 3) .range 0
    s.notRetired i
    let members := s.groupMembers i
    let run := s.canDisable i mode
    let s1 := members.foldl (fun s j => s.endEnable j .aborted 0x0104) s
    let s1 := (members.filter (· != i)).foldl (fun s j => if s.canDisable j mode then s.disableOne j mode [] else s) s1
    if run then return .accepted (s1.disableOne i mode [s.refOf p]) else return .ok s1

end Sys2Proof.Machine
end

