-- ==== Sys2Proof/Machine/Sessions.lean ====
section
/-!
DEFINITION. Sessions (R98 to R106): their end, and `HELLO`, `BYE`, `PING`, `DEVINFO`.
-/
namespace Sys2Proof.Machine

/-- Largest payload of a version (Table 3.1). -/
def payloadLimit (ver : Nat) : Nat := if ver = 1 then 1020 else 4080

/-- The same transport; the PCIe queue pairs are one (R116). -/
def Src.same : Src → Src → Bool
  | .pcie _, .pcie _ => true
  | .qspi, .qspi => true
  | .leader, .leader => true
  | _, _ => false

/-- Members of this device's junction, which its drafts and commits cover (R131). -/
def State.inCommit (s : State) : List (Fin 15) := (List.finRange 15).filter fun m => s.net.members[m].st == .member

/-- A leader passes a draft command on to its members, whose drafts are part of its own (R131; log 34). -/
def State.tellMembers (s : State) (p : Packet) : State :=
  s.updNet fun n => { n with sent := n.sent ++ s.inCommit.map fun m => (m.val + 1, { p with path := 0, flags := 0 }) }

/-- `CFG_ABORT` as a leader sends it of itself. -/
def abortPacket : Packet :=
  { src := .leader, version := 3, flags := 0, opcode := 0x0105, tag := 0, axis := 0xFFFF, path := 0, payload := [], crc := false }

/-- Discard the draft of an ending session, and with it a commit of it that is still in its analysis phase, as `CFG_ABORT` would; a
later commit runs on with its draft (R104). -/
def State.dropDraft (s : State) (sid : Nat) : State :=
  match s.cfg.draft with
  | none => s
  | some d =>
    if d.sid ≠ sid then s
    else match s.cfg.commit with
      | some k =>
        if k.phase = .analysis then
          ((s.updCfg fun c => { c with draft := none, commit := none }).releaseEnables).tellMembers abortPacket
        else s
      | none => (s.updCfg fun c => { c with draft := none }).tellMembers abortPacket

/-- What ends with a session (R104, R181, R239): undelivered replies and events, held groups, timed commands, its draft, open
image and table loads and the forces it set. -/
def State.dropSession (s : State) (src : Src) (x : Session) : State :=
  let s := s.updHost fun h =>
    { h with
      timed := h.timed.filter (fun t => t.sid != x.sid)
      groups := h.groups.filter (fun g => !Src.same g.1 src)
      fwdGroups := h.fwdGroups.filter (fun g => !Src.same g.1 src)
      behind := h.behind.filter fun b => match b with | .bytes t _ => !Src.same t src | .packet p => !Src.same p.src src
      queues := match src with
        | .pcie _ => h.queues.map (fun q => { q with held := [], cqStall := false })
        | _ => h.queues
      qspi := match src with
        | .qspi => { h.qspi with tx := [] }
        | _ => h.qspi
      leaderTx := match src with
        | .leader => []
        | _ => h.leaderTx }
  let s := (s.dropDraft x.sid).updCfg fun c =>
    { c with lepLoad := match c.lepLoad with
      | some l => if l.2.2.2.sid = x.sid then none else c.lepLoad
      | none => none }
  let s : State := { s with tables := { s.tables with loads := s.tables.loads.filter fun l => l.ref.isSome || l.sid != x.sid } }
  let s := allPorts.foldl (fun s p =>
    match (s.ports[p]).forceBy with
    | some f => if f.2 = x.sid then s.releaseForce p else s
    | none => s) s
  (s.updNet fun n => { n with fwd := n.fwd.filter (·.ref.sid != x.sid), discover := n.discover.filter (·.1.sid != x.sid) }).setSession src
    none

/-- End the session of a transport (R104); `lost` when its end counts for R106. -/
def State.endSession (s : State) (src : Src) (lost : Bool) : State :=
  match s.session src with
  | none => s
  | some x =>
    let s := s.dropSession src x
    if lost && x.control then
      (s.raise { code := 0x0C03, cls := s.dv P.dvSessloss, scope := .device, detail := x.sid, hostId := x.hostId }).updNet fun n =>
        { n with lossSent := n.lossSent ++ s.inCommit.map fun m => (m.val + 1, s.dv P.dvSessloss) }
    else s

/-! ### `DEVSTAT` and interrupts -/

/-- `DEVSTAT` (Table 3.15). -/
def State.devstat (s : State) : Nat :=
  ofBools [s.boot.ready, s.boot.recovery, s.boot.bywayUp, s.host.pcie.isSome,
    (s.host.pcie.map (·.control)).getD false, (s.host.pcie.map (·.has featCrc)).getD false] + 256 * s.boot.stage

/-- `INTSTAT.DEVSTAT` sets when `DEVSTAT`[4:0] has changed (Table 3.20). -/
def State.noteDevstat (s : State) : State :=
  let d := s.devstat % 32
  if d = s.host.devstatSeen then s
  else (s.updHost fun h => { h with devstatSeen := d }).setInt 16 31

/-- Another transport's session holds control (R98, R99). -/
def State.controlElsewhere (s : State) (src : Src) : Bool :=
  [Src.pcie 0, .qspi, .leader].any fun t =>
    !Src.same t src && ((s.session t).map (·.control)).getD false

def timedUsed (h : HostIf) : Nat := (h.timed.map (fun t => t.packets.length)).foldl (· + ·) 0

/-- Byway version as the device reports it: 0 while Byway is not running (Table 3.14). -/
def State.bwVersion (s : State) : Nat := if s.boot.bywayUp then Config.bywayVersion.toNat else 0

/-- Features granted (R102): at version 1 bits 0 to 2, from version 2 on all; CRC always on QSPI. -/
def grantFeatures (req ver : Nat) (qspi : Bool) : Nat :=
  let g := req % (if ver = 1 then 8 else 32)
  if qspi then g ||| 2 else g

/-- The restarts of Byway are reported after the first `HELLO`, each with its own count (R77). The event goes out before the reply to
that `HELLO`: the spec orders neither (DESIGN CHOICE, log 87). -/
def State.reportRestart (s : State) : State :=
  let l := s.boot.report
  let s : State := { s with boot := { s.boot with report := [], quiet := false } }
  l.foldl (fun s d => ({ s with boot := { s.boot with bwRestarts := s.boot.bwRestarts + 1 } } : State).raiseDev 0x0C01 1 d) s

/-- Open a session (R98, R101 to R103). -/
def State.openSession (s : State) (src : Src) (ver : Nat) (ctl : Bool) (feat evq tmo hostId : Nat) : State :=
  let sid := s.host.lastSid % 65535 + 1
  let x : Session :=
    { sid := sid, version := ver, control := ctl, features := feat, evq := ⟨evq % 16, Nat.mod_lt _ (by decide)⟩
      tmoMs := tmo, hostId := hostId, evSeq := 0, evDiscarded := 0, awaiting := [], seen := s.ticks }
  (s.updHost fun h => { h with lastSid := sid }).setSession src (some x)

/-- Members present in the device's junction (Table 3.6). -/
def State.memberMask (s : State) : Nat := s.host.memberMask

/-- `HELLO` (R98 to R103, Table 3.6). -/
def opHello (_ : Instant) (p : Packet) (s : State) : HRes :=
  .ofCheck s do
    let a := p.args
    need (a.length == 16) .badLength 0x0004
    let vmin := u8 a 0
    let vmax := u8 a 1
    let role := u8 a 2
    let feat := u32 a 4
    let evq := u16 a 8
    let tmo := u16 a 10
    need (decide (role ≤ 2) && rsvZero a 3 1 && decide (feat < 32)) .range 0
    need (vmin != 0 && decide (vmin ≤ vmax)) .range 0
    need (decide (vmin ≤ 3)) .badVersion 0x0103
    need (decide (tmo ≤ 60000) && (match p.src with | .pcie _ => decide (evq ≤ 15) | _ => evq == 0)) .range 0
    let other := s.controlElsewhere p.src
    need (!(role == 1 && other)) .denied 0x0002
    let ver := min vmax 3
    let ctl := role == 1 || (role == 2 && !other)
    let g := grantFeatures feat ver (match p.src with | .pcie _ => false | _ => true)
    let s := ((s.endSession p.src false).openSession p.src ver ctl g evq tmo (u32 a 12)).reportRestart
    return .okBody s
      (leBytes 1 ver ++ leBytes 1 (b2n ctl) ++ leBytes 2 s.host.lastSid ++ leBytes 4 g ++ leBytes 4 31
        ++ leBytes 2 (payloadLimit ver) ++ leBytes 2 (4096 - timedUsed s.host)
        ++ leBytes 2 s.memberMask ++ leBytes 1 3 ++ zeros 1 ++ leBytes 4 s.bwVersion)

/-- `BYE` (R104). -/
def opBye (_ : Instant) (p : Packet) (s : State) : HRes :=
  .ofCheck s do
    need p.args.isEmpty .badLength 0x0004
    return .ok (s.endSession p.src false)

/-- `PING`. -/
def opPing (_ : Instant) (p : Packet) (s : State) : HRes :=
  .ofCheck s do
    need (decide (p.args.length ≤ 64)) .badLength 0x0004
    return .okBody s (leBytes 8 s.now ++ p.args)

/-- `DEVINFO` (Table 3.10). -/
def opDevinfo (_ : Instant) (p : Packet) (s : State) : HRes :=
  .ofCheck s do
    need p.args.isEmpty .badLength 0x0004
    return .okBody s
      (leBytes 2 0x1F3A ++ leBytes 2 0x5120 ++ leBytes 4 0x25120C35 ++ leBytes 1 0xB1 ++ leBytes 1 s.dbg.lifecycle
        ++ leBytes 1 1 ++ leBytes 1 3 ++ leBytes 8 Config.serial.toNat ++ leBytes 4 Config.turnpikeVersion.toNat
        ++ leBytes 4 s.bwVersion ++ leBytes 1 6 ++ leBytes 1 (s.boot.slot.val + 128 * b2n s.boot.onTrial)
        ++ leBytes 2 (allAxes.filter (fun i => s.bound i)).length ++ leBytes 2 s.memberMask ++ zeros 2)

/-- The timeout of a session in ms: its own, or `DV.SESSTMO` (Table 3.6); 0 is none. -/
def State.sessionTmo (s : State) (x : Session) : Nat := if x.tmoMs = 0 then s.dv P.dvSesstmo else x.tmoMs

/-- A packet on a transport has passed steps 1 to 5 of Table 3.3: the timeout of the transport's session starts again (R105). -/
def State.keepAlive (s : State) (src : Src) : State :=
  match s.session src with
  | none => s
  | some x => s.setSession src (some { x with seen := s.ticks })

/-- The timeout of the session has run out since its last good packet: 1 ms is 400,000 PWMCLK ticks (R105). -/
def State.timedOut (s : State) (x : Session) : Bool :=
  s.sessionTmo x != 0 && decide (x.seen + s.sessionTmo x * 400000 ≤ s.ticks)

/-- A session timeout expires (R105, R106); without effect where a packet has started it again meanwhile. -/
def execSessionTimeout (src : Src) (s : State) : Out :=
  s.main
    (match s.session src with
     | none => s
     | some x => if s.timedOut x then (s.endSession src true).noteDevstat else s)

/-- An axis of this device is enabled. -/
def State.anyEnabled (s : State) : Bool :=
  allAxes.any fun i =>
    match s.axes[i].st with
    | .enabledIdle | .moving | .homing | .stopping => true
    | _ => false

end Sys2Proof.Machine
end

