-- ==== Sys2Proof/Machine/Firmware.lean ====
section
/-!
DEFINITION. Firmware update and the boot directory (R60, R68 to R72, R129, R130).
-/
namespace Sys2Proof.Machine

def State.updBoot (s : State) (f : Boot → Boot) : State := { s with boot := f s.boot }

/-- The boot directory copy in use: valid with the higher `seq` (R60). The spec gives neither case where both copies are invalid or their
`seq` equal: the model takes copy 1 of two invalid copies, and copy 0 of two with equal `seq` (DESIGN CHOICE, log 85). -/
def Boot.dirIdx (b : Boot) : Fin 2 :=
  if !(b.dirs[0]).valid then 1
  else if !(b.dirs[1]).valid then 0
  else if (b.dirs[0]).seq < (b.dirs[1]).seq then 1 else 0

def Boot.dir (b : Boot) : Directory := b.dirs[b.dirIdx]

/-- Write the directory into the copy not in use (R60). -/
def Boot.writeDir (b : Boot) (f : Directory → Directory) : Boot :=
  let d := f b.dir
  let k : Fin 2 := if b.dirIdx = 0 then 1 else 0
  { b with dirs := upd b.dirs k fun _ => { d with valid := true, seq := b.dir.seq + 1 } }

/-! ### Boot steps (Table 2.9) -/

/-- Choose the slot to try (R63): one on trial once, its `trial` cleared; otherwise the active one. -/
def Boot.chooseSlot (b : Boot) : Boot :=
  match b.dir.trial with
  | some t => { b.writeDir (fun d => { d with trial := none }) with slot := t, onTrial := true, stage := 5 }
  | none => { b with slot := b.dir.active, onTrial := false, stage := 5 }

/-- A step of Table 2.9 that no row of its own brings about (log 88): 5, fuses and boot directory read; 8, region registers
programmed; 9, Byway running. -/
def State.bootStep (s : State) : State :=
  if s.boot.inReset || s.boot.recovery then s
  else
    match s.boot.stage with
    | 4 => s.updBoot (·.chooseSlot)
    | 7 => (s.updBoot fun b => { b with stage := 8 }).programRegions
    | 8 => (s.updBoot fun b => { b with stage := 9, bywayUp := true }).noteDevstat
    | _ => s

/-- PCIe configuration requests get Configuration Request Retry Status before step 6 (Table 2.9). -/
def State.pcieRetry (s : State) : Bool := decide (s.boot.stage < 6) && !s.boot.recovery

/-! ### Images (R59, R61, Tables 2.6, 2.8) -/

/-- Flash offsets of Table 2.6. -/
def flashDir (k : Fin 2) : Nat := 0x1000 * k.val
def flashCfg (k : Fin 2) : Nat := 0x10000 * (k.val + 1)
def flashSlot (k : Fin 2) : Nat := if k = 0 then 0x100000 else 0x1000000
def flashSlotSize : Nat := 0xF00000

/-- A directory copy as its 16 bytes (Table 2.7). -/
def Directory.bytes (d : Directory) : List Byte :=
  let b := leBytes 4 0x52494442 ++ leBytes 4 d.seq ++ leBytes 1 d.active.val
    ++ leBytes 1 ((d.trial.map (·.val)).getD 0xFF) ++ leBytes 1 d.failed ++ zeros 1
  b ++ leBytes 4 (crc32c b).toNat

/-- Offset of Byway's image in a slot: the next 4 KiB boundary behind Turnpike's. -/
def bywayOffset (slot : List Byte) : Nat := ceilDiv (272 + u32 slot 12) 4096 * 4096

/-- The header fields are in range (R61, Table 2.8): a body that its memory holds at its load offset, Turnpike's in 128 KiB of RAM and
Byway's in its 8 MiB of code (Table 15.4), and an entry within it (log 86). -/
def imageHeaderOk (byway : Bool) (im : List Byte) : Bool :=
  let len := u32 im 12
  decide (272 ≤ im.length) && u32 im 0 == 0x4D495853 && u16 im 4 == 1 && u16 im 6 == (if byway then 2 else 1)
    && decide (u32 im 8 ≤ 64) && decide (len ≤ (if byway then 0x800000 else 0x18000)) && decide (272 + len ≤ im.length)
    && decide (u32 im 16 + len ≤ (if byway then 0x800000 else 0x20000)) && decide (u32 im 20 < len) && decide (u8 im 24 ≤ 3)
    && rsvZero im 25 7

/-- The checks of R61 in their order: 0 when the image is accepted, else the low byte of the detail of Table 3.28. -/
def State.imageCheck (s : State) (byway : Bool) (im : List Byte) (f : ImageFacts) : Nat :=
  if imageHeaderOk byway im = false then 2
  else if f.key = false ∨ s.dbg.revoked.getLsbD (u8 im 24) = true then 3
  else if f.sig = false then 4
  else if f.hash = false then 5
  else if u32 im 8 < (if byway then s.boot.rollBw else s.boot.rollTp) then 6
  else 0

/-- The image of a slot from its header on: from the bytes the device has written there, else as the board delivered it. -/
def Boot.slotImage (b : Boot) (k : Fin 2) (byway : Bool) (delivered : List Byte) : List Byte :=
  match b.slots[k] with
  | some x => if byway then x.drop (bywayOffset x) else x
  | none => delivered

/-- Body of an image. -/
def imageBody (im : List Byte) : List Byte := (im.drop 272).take (u32 im 12)

/-! ### Firmware update (R68 to R72, R129, R130, Table 3.28) -/

/-- Bytes of the open update that have reached the flash. -/
def FwUpdate.programmed (f : FwUpdate) : List Byte := f.got.take (f.got.length - f.staged)

/-- A slot holds these bytes from its start. -/
def Boot.writeSlot (b : Boot) (k : Fin 2) (bs : List Byte) : Boot := { b with slots := upd b.slots k fun _ => some bs }

/-- The slot that is neither active nor on trial (R68). -/
def Boot.freeSlot (b : Boot) : Option (Fin 2) :=
  if b.onTrial || b.dir.trial.isSome then none else some (if b.dir.active = 0 then 1 else 0)

/-- `FW_BEGIN`. -/
def opFwBegin (_ : Instant) (p : Packet) (s : State) : HRes :=
  .ofCheck s do
    let a := p.args
    need (a.length == 8) .badLength 0x0004
    let n := u32 a 0
    need s.boot.fw.isNone .busy 0x0003
    need (decide (272 ≤ n) && decide (n ≤ 15728640) && n % 4 == 0 && rsvZero a 4 4) .range 0
    match s.boot.freeSlot with
    | none => .error (.state, 0x0102)
    | some t =>
      return .accepted (s.updBoot fun b =>
        { b with fw := some { target := t, total := n, ref := s.refOf p }, fwPassed := none })

/-- The target slot is erased: `FW_BEGIN` is done. -/
def execSlotEraseComplete (s : State) : Out :=
  s.main
    (match s.boot.fw with
     | none => s
     | some f =>
       if f.erased then s
       else (s.updBoot fun b => { b.writeSlot f.target [] with fw := some { f with erased := true } }).complete f.ref .done 0 s.now)

/-- `FW_DATA`: buffered in the 64 KiB staging buffer. -/
def opFwData (_ : Instant) (p : Packet) (s : State) : HRes :=
  .ofCheck s do
    let a := p.args
    need (decide (8 ≤ a.length) && decide (a.length ≤ 4080)) .badLength 0x0004
    match s.boot.fw with
    | none => .error (.state, 0x0103)
    | some f =>
      need (!f.ending) .state 0x0103
      let d := a.drop 4
      need (u32 a 0 == f.got.length) .range 0x0101
      need (decide (f.got.length + d.length ≤ f.total)) .range 0x0102
      need (decide (f.staged + d.length ≤ 65536)) .queueFull 0x0003
      return .ok (s.updBoot fun b => { b with fw := some { f with got := f.got ++ d, staged := f.staged + d.length } })

/-- Staged data have been programmed into the erased slot. -/
def execStagingBufferWritten (n : BitVec 17) (s : State) : Out :=
  s.main (s.updBoot fun b =>
    match b.fw with
    | none => b
    | some f =>
      if f.erased then
        let f := { f with staged := f.staged - n.toNat }
        { b.writeSlot f.target f.programmed with fw := some f }
      else b)

/-- `FW_END` (R69, R129): closes the update whether it succeeds or fails. -/
def opFwEnd (_ : Instant) (p : Packet) (s : State) : HRes :=
  let a := p.args
  if a.length ≠ 8 then .fail s .badLength 0x0004
  else
    match s.boot.fw with
    | none => .fail s .state 0x0103
    | some f =>
      if f.ending then .fail s .state 0x0103
      else if f.got.length < f.total ∨ u32 a 0 ≠ f.total then
        .fail (s.updBoot fun b => { b with fw := none }) .range 0x0103
      else
        .accepted (s.updBoot fun b =>
          { b with fw := some { f with ending := true, ref := s.refOf p, crc := u32 a 4 } })

/-- Outcome of `FW_END` (R69, Table 3.28): `IMAGE_CRC`, then R61 on the Turnpike and on the Byway image of the slot. -/
def State.slotCheck (s : State) (f : FwUpdate) (tp bw : ImageFacts) : Nat :=
  if (crc32c f.got).toNat ≠ f.crc then 1
  else
    let a := s.imageCheck false f.got tp
    if a ≠ 0 then a else s.imageCheck true (f.got.drop (bywayOffset f.got)) bw

/-- The slot is programmed and checked (R69). A slot that passes is no longer marked as failed: the spec names no other end of that
mark (DESIGN CHOICE, log 85). -/
def execSlotProgramComplete (tp bw : ImageFacts) (s : State) : Out :=
  s.main
    (match s.boot.fw with
     | none => s
     | some f =>
       if f.ending = false ∨ f.erased = false then s
       else
         let det := s.slotCheck f tp bw
         let s := s.updBoot fun b =>
           { ((if det = 0 then b.writeDir fun d => { d with failed := d.failed &&& (3 - 2 ^ f.target.val) } else b).writeSlot
               f.target f.got) with
             fw := none, fwPassed := if det = 0 then some f.target else none }
         if det = 0 then s.complete f.ref .done 0 s.now else s.complete f.ref .denied (0x0100 + det) s.now)

/-- `FW_ACTIVATE` (R70 to R72, R130). -/
def opFwActivate (_ : Instant) (p : Packet) (s : State) : HRes :=
  .ofCheck s do
    let a := p.args
    need (a.length == 4) .badLength 0x0004
    need (rsvZero a 1 3) .range 0
    match u8 a 0 with
    | 1 =>
      need (!s.anyEnabled) .state 0x0104
      match s.boot.fwPassed with
      | none => .error (.state, 0x0105)
      | some t =>
        return .ok (s.updBoot fun b => { b.writeDir (fun d => { d with trial := some t }) with fwReset := true })
    | 2 =>
      need s.boot.onTrial .state 0x0106
      return .accepted (s.updBoot fun b =>
        { b.writeDir (fun d => { d with active := b.slot }) with confirm := some (s.refOf p) })
    | 3 =>
      need s.boot.onTrial .state 0x0106
      return .ok (s.updBoot fun b => { b with fwReset := true })
    | _ => .error (.range, 0)

/-- The rollback counters equal the security versions of the running images (R62, R72): `CONFIRM` is done. -/
def execRollbackFuseComplete (s : State) : Out :=
  s.main
    (match s.boot.confirm with
     | none => s
     | some r =>
       (s.updBoot fun b =>
         { b with confirm := none, onTrial := false, rollTp := max b.rollTp b.secTp, rollBw := max b.rollBw b.secBw }).complete
         r .done 0 s.now)

end Sys2Proof.Machine
end

