-- ==== Sys2Proof/Machine/Buses.lean ====
section
/-!
DEFINITION. DC bus supervisors (R248 to R256).
-/
namespace Sys2Proof.Machine

/-- A bus parameter (Table 7.14). -/
def State.bp (s : State) (d : PDef) (b : Fin 8) : Rat := s.dvF d b.val

/-- The bus is in service. -/
def Bus.used (x : Bus) : Bool := x.st != .unused

/-- Bit period of the modulator clock in ns (R249): that of the port `DCB_SDPORT`. -/
def State.busBit (s : State) (b : Fin 8) : Rat :=
  match fin? 64 (s.dv P.dvDcbSdport b.val) with
  | some p => (s.pt P.ptSddiv p : Rat) * mkRat 5 2
  | none => 40

/-- Δt of a decimated value in seconds: N bit periods. -/
def State.busDt (s : State) (b : Fin 8) : Rat := (s.dv P.dvDcbOsr b.val : Rat) * s.busBit b / 1000000000

/-- A chopper fault is active (R252, R254). -/
def State.chopFault (s : State) (b : Fin 8) : Bool :=
  [0x0605, 0x0606, 0x0607, 0x0608].any (fun c => s.activeFault c .bus b.val) || (s.buses[b]).full

/-- `REGEN_LIMIT` (R253). -/
def State.regenLimit (s : State) (b : Fin 8) : Bool := s.chopFault b || (s.buses[b]).regenOv2

/-- Chopper on-fraction over the last 1 s: of the values kept, those with the chopper on (Table 7.15). -/
def Bus.duty (x : Bus) : Rat :=
  if x.recent.isEmpty then 0 else ((x.recent.filter (fun r => r.2.2)).length : Rat) / (x.recent.length : Rat)

/-- The value at least 1 ms before `t`, the newest such (R252). -/
def Bus.earlier (x : Bus) (t : Nat) : Option (Nat × Rat × Bool) := x.recent.find? (fun r => decide (r.1 + 1000000 ≤ t))

/-- `CHOP_RISING` (R252): on without a break since before the value 1 ms earlier, which this value exceeds. -/
def Bus.rising (x : Bus) (t : Nat) : Bool :=
  match x.onSince, x.earlier t with
  | some t0, some (t1, v1, _) => decide (t0 ≤ t1) && decide (v1 < x.v)
  | _, _ => false

/-- Raise a bus fault unless it is active already: it is detected again at every value. -/
def State.raiseBusOnce (s : State) (b : Fin 8) (code cls : Nat) : State :=
  if s.activeFault code .bus b.val then s else s.raiseBus b code cls

/-- Axes of the bus follow a change of its readiness (R29). -/
def State.busPrereq (s : State) (b : Fin 8) : State := s.prereqChanges (allAxes.filter (fun i => s.axisBus i == some b))

/-- Enter a bus state. -/
def State.setBus (s : State) (b : Fin 8) (st : BusState) : State :=
  (s.updBus b fun x =>
    { x with st := st, pre := st == .bypass || st == .ready, preTimer := false, preFailed := false }).busPrereq b

/-- The chopper output of R251: hysteresis around `DCB_OV1`, low while the store is full or `CHOP_STUCK` or `DCB_SD_FAULT` is
active (note to R256). -/
def State.chopNext (s : State) (b : Fin 8) : Bool :=
  let x := s.buses[b]
  x.used && !x.full && !s.activeFault 0x0607 .bus b.val && !s.activeFault 0x0609 .bus b.val &&
    (decide (s.bp P.dvDcbOv1 b ≤ x.v) || (x.chop && decide (s.bp P.dvDcbOv1 b - s.bp P.dvDcbHyst b ≤ x.v)))

/-- Chopper energy and the thermal store (R254); heat enters only while the chopper is on, the decay runs with every value
(DEDUCED, log 14). -/
def State.chopHeat (s : State) (b : Fin 8) : State :=
  let x := s.buses[b]
  let dt := s.busDt b
  let q : Rat := if x.chop then x.v * x.v / s.bp P.dvDcbChr b * dt else 0
  let w := x.chw * Config.exp (-(dt / s.bp P.dvDcbChtau b)) + q
  let lim := s.bp P.dvDcbChemax b
  let full := if lim ≤ w then true else if w < lim * mkRat 4 5 then false else x.full
  let s := s.updBus b fun x => { x with chen := x.chen + q, chw := w, full := full, chop := x.chop && !full }
  if full && !x.full then s.raiseBus b 0x0608 1 else s

/-- While `DCB_SD_FAULT` is active the supervisor keeps the bus state it had (note to R256). -/
def State.busHeld (s : State) (b : Fin 8) : Bool := s.activeFault 0x0609 .bus b.val

/-- A new decimated value y (R249): V, stuck input, chopper, thermal store, staging and `REGEN_LIMIT`. `chfb` is the level of
`DCBn_CHFB`. -/
def State.busValue (s : State) (b : Fin 8) (y : Nat) (chfb : Bool) : State :=
  let n := s.dv P.dvDcbOsr b.val
  let y := min y (n ^ 3)
  let v : Rat := s.bp P.dvDcbVscale b * ((y : Rat) / ((n ^ 3 : Nat) : Rat) - mkRat 1 2)
  let edge := y == 0 || y == n ^ 3
  let t := s.now
  let s := s.updBus b fun x =>
    { x with v := v, vmax := ratMax x.vmax v, chfb := chfb, stuck := if edge then x.stuck + 1 else 0, lastStuck := edge
             chfbSeen := x.chop && (x.chfbSeen || chfb) }
  let x := s.buses[b]
  if !x.used then s
  else
    let s := if decide (4 ≤ x.stuck) then s.raiseBusOnce b 0x0609 4 else s
    let on := s.chopNext b
    let s := s.updBus b fun x =>
      { x with
        onSince := if on then (if x.chop then x.onSince else some t) else none
        chfbSeen := if x.chop && on then x.chfbSeen else false
        chop := on
        recent := (t, v, on) :: x.recent.takeWhile (fun r => decide (t < r.1 + 1000000000)) }
    let s := s.chopHeat b
    let s := if (s.buses[b]).rising t then s.raiseBusOnce b 0x0606 1 else s
    let ov2 := s.bp P.dvDcbOv2 b
    let s := if ov2 ≤ v then (s.raiseBusOnce b 0x0603 1).updBus b fun x => { x with regenOv2 := true }
      else if v < ov2 - s.bp P.dvDcbHyst b then s.updBus b fun x => { x with regenOv2 := false } else s
    let s := if s.bp P.dvDcbOv3 b ≤ v ∧ s.busHeld b = false then s.raiseBusOnce b 0x0604 5 else s
    let tenth := s.bp P.dvDcbPrev b / 10
    let s := s.updBus b fun x =>
      { x with
        preTimer := if x.st = .charging then (if v < tenth then false else x.preTimer || decide (tenth < v)) else false
        preFailed := x.preFailed && x.st == .charging && !decide (v < tenth) }
    s.busPrereq b

/-- `PT.SDEDGE` of the port whose `SDC` clocks the bus's modulator (R544). -/
def State.busEdge (s : State) (b : Fin 8) : Nat :=
  match fin? 64 (s.dv P.dvDcbSdport b.val) with
  | some p => s.pt P.ptSdedge p
  | none => 0

def execBusDecimatedValue (b : Fin 8) (w : BitVec 384) (chfb : Bool) (s : State) : Out :=
  s.main (s.busValue b (sinc3 (s.dv P.dvDcbOsr b.val) (s.busEdge b) w.toNat) chfb)

/-- V ≥ `DCB_PREV` for 20 ms: `BYPASS` (Table 7.13). -/
def execBusChargedTimer (b : Fin 8) (s : State) : Out :=
  s.main (if (s.buses[b]).st = .charging ∧ s.bp P.dvDcbPrev b ≤ (s.buses[b]).v ∧ s.busHeld b = false
    then s.setBus b .bypass else s)

/-- 50 ms in `BYPASS`: `READY` (Table 7.13). -/
def execBusBypassTimer (b : Fin 8) (s : State) : Out :=
  s.main (if (s.buses[b]).st = .bypass ∧ s.busHeld b = false then s.setBus b .ready else s)

/-- V < `DCB_UV` for 1 ms: `CHARGING`, with `DCB_UV` from `READY` (Table 7.13). -/
def execBusUvTimer (b : Fin 8) (s : State) : Out :=
  s.main
    (let x := s.buses[b]
     if (x.st = .bypass ∨ x.st = .ready) ∧ x.v < s.bp P.dvDcbUv b ∧ s.busHeld b = false then
       let s := s.setBus b .charging
       if x.st = .ready then s.raiseBus b 0x0601 4 else s
     else s)

/-- `DCB_PREV` not reached within `DCB_PRETMO` (Table 7.13); the timer restarts when V falls below a tenth of it. -/
def execPrechargeTimeout (b : Fin 8) (s : State) : Out :=
  s.main
    (let x := s.buses[b]
     if x.st = .charging ∧ x.preTimer = true ∧ x.preFailed = false then
       (s.raiseBus b 0x0602 1).updBus b fun x => { x with preFailed := true }
     else s)

/-- A chopper-feedback check fails (R252): no `CHFB` since the output switched on, or `CHFB` active with the output off. The
level of `DCBn_CHFB` is an operand. -/
def execChfbTimeout (b : Fin 8) (chfb : Bool) (s : State) : Out :=
  s.main
    (let s := s.updBus b fun x => { x with chfb := chfb, chfbSeen := x.chop && (x.chfbSeen || chfb) }
     let x := s.buses[b]
     if !x.used then s
     else if x.chop && !x.chfbSeen then s.raiseBusOnce b 0x0605 1
     else if !x.chop && chfb then (s.raiseBusOnce b 0x0607 4).updBus b fun x => { x with chop := false }
     else s)

end Sys2Proof.Machine
end

