-- ==== Sys2Proof/Machine/Loops.lean ====
section
/-!
DEFINITION. What the releases of an axis's loop programs share: the sample record as a program reads it (R188, Table 7.3), the
store of its outputs, coefficient sets (R206, R287), the current mailbox as the current task takes it (R282, R292) and the
compensation tables (R297 to R300). Program values are FP32, rounded where they are kept (R286); everything between is exact
(log 21).
-/
namespace Sys2Proof.Machine

/-! ### Releases -/

/-- Update the current-loop state of an axis. -/
def State.updCur (s : State) (i : Fin 512) (f : CurLoop → CurLoop) : State := s.updAxis i fun a => { a with cur := f a.cur }

/-- Update the position-loop state of an axis. -/
def State.updPos (s : State) (i : Fin 512) (f : PosLoop → PosLoop) : State := s.updAxis i fun a => { a with pos := f a.pos }

/-- Update the stepper state of an axis. -/
def State.updStep (s : State) (i : Fin 512) (f : Stepper → Stepper) : State := s.updAxis i fun a => { a with step := f a.step }

/-- The checkpoint of a standard program at the end of a release (R176). -/
def State.checkpoint (s : State) (i : Fin 512) (kind : Nat) : State :=
  match (s.taskOf i kind).bind (fun t => fin? 24 t.engine) with
  | none => s
  | some e =>
    match (s.eng[e]).table.findIdx? (fun t => t.axis == i.val && t.kind == kind) with
    | some r => s.updEng e fun x => x.queueCkpt s.xr r
    | none => s

/-- The law runs: the axis is enabled (Table 9.3, row RUN of Table 6.4). -/
def State.lawOn (s : State) (i : Fin 512) : Bool :=
  match s.axes[i].st with
  | .enabledIdle | .moving | .homing | .stopping => !s.stoActive i
  | _ => false

/-! ### The sample record -/

/-- A word of the sample record at an offset of Table 7.3. -/
def State.recWord (s : State) (p : Fin 64) (off : Nat) : Word := (s.ports[p]).slotRead off

/-- A pair of words of the sample record. -/
def State.recPair (s : State) (p : Fin 64) (off : Nat) : Nat :=
  (s.recWord p off).toNat + (s.recWord p (off + 4)).toNat * 2 ^ 32

/-- Sample count of the record. -/
def State.sampleCount (s : State) (p : Fin 64) : Nat := (s.recWord p 0x09C).toNat / 65536

/-- p_k, raw. -/
def State.recPos (s : State) (p : Fin 64) : Int := signed 64 (s.recPair p 0x0B0)

/-- v̂ in counts/s. -/
def State.recVel (s : State) (p : Fin 64) : Rat := ofVel64 (signed 64 (s.recPair p 0x0B8))

/-- y of a sense channel as a fraction of N³ less one half. -/
def State.recY (s : State) (p : Fin 64) (c : Nat) : Rat :=
  let n := s.pt P.ptSdosr p ^ 3
  ((s.recWord p (0x0A0 + 4 * c)).toNat : Rat) / (n : Rat) - mkRat 1 2

/-- The channel sits at 0 or N³ (R189). -/
def State.recStuck (s : State) (p : Fin 64) (c : Nat) : Bool :=
  let y := (s.recWord p (0x0A0 + 4 * c)).toNat
  y == 0 || y == s.pt P.ptSdosr p ^ 3

/-- A phase or winding current in A (R188). -/
def State.recAmps (s : State) (i : Fin 512) (p : Fin 64) (c : Nat) : Rat :=
  fp32 (s.axF P.axIscale i * s.recY p c - (if c = 0 then s.axes[i].cur.ioffA else s.axes[i].cur.ioffB))

/-- V_dc (R209). -/
def State.vdc (s : State) (i : Fin 512) (p : Fin 64) : Rat :=
  let v := match s.ax P.axVbussrc i with
    | 1 => s.axF P.axVbusscale i * s.recY p 2
    | 2 => s.axF P.axVbusscale i * s.recY p 3
    | _ => fpToRat (s.recWord p 0x0D8)
  ratMax v (s.axF P.axVbusmin i)

/-- T_c in seconds. -/
def State.tcS (s : State) (i : Fin 512) : Rat := s.tc i / 1000000000

/-- A store of a program to the slot of its port (R154): it joins the engine's stores that have not completed. -/
def State.slotStore (s : State) (p : Fin 64) (off : Nat) (ws : List Word) : State :=
  match s.ownerOf p with
  | some e =>
    match (s.eng[e]).portSlot p with
    | some n => s.updEng e fun x => { x with pstores := x.pstores ++ [(256 * n + off, wordBytes ws)] }
    | none => s
  | none => s

/-! ### Coefficient sets -/

/-- The values of which Byway computes a coefficient set (R206, R287). -/
def State.coefNow (s : State) (i : Fin 512) : CoefSet :=
  { curbw := s.ax P.axCurbw i, obsbw := s.ax P.axObsbw i, curint := s.ax P.axCurint i, rs := s.ax P.axRs i
    ld := s.ax P.axLd i, lq := s.ax P.axLq i, psim := s.ax P.axPsim i, kacc := s.ax P.axKacc i, posbw := s.ax P.axPosbw i
    posint := s.ax P.axPosint i, posobsbw := s.ax P.axPosobsbw i, vff := s.ax P.axVffgain i, aff := s.ax P.axAffgain i }

def State.installCoef (s : State) (i : Fin 512) : State := s.updAxis i fun a => { a with coef := s.coefNow i }

/-- Byway installs the recomputed set between two releases; the loop state carries over (R206, R287). -/
def execCoefficientSwitch (i : Fin 512) (s : State) : Out := s.main (if s.isLocal i then s.installCoef i else s)

/-- An FP32 pattern as a value. -/
def fpVal (n : Nat) : Rat := fpToRat (BitVec.ofNat 32 n)

/-! ### The current mailbox -/

/-- The writer period of a mailbox has passed `AX.STALEMAX` + 1 times (R292). -/
def State.overdue (s : State) (i : Fin 512) (since : Nat) (period : Rat) : Bool :=
  decide (((s.ax P.axStalemax i + 1 : Nat) : Rat) * period < ((s.now - since : Nat) : Rat))

/-- Raise or end `SETPOINT_STALE` for one of the two mailboxes (R292). -/
def State.judgeStale (s : State) (i : Fin 512) (was now : Bool) (detail : Nat) : State :=
  if now && !was then s.raiseAxis i 0x0405 (s.ax P.axStaleclass i) detail else s

/-- The current task reads its mailbox at sample count `j` (R282): a publish is used first at the release whose count is its
`take_at`, or at the first one after its arrival; while nothing new comes for too long, `SETPOINT_STALE` is raised and the last
values stay (R292). -/
def State.readCurRef (s : State) (i : Fin 512) (j : Nat) : State :=
  let r := s.curRef i
  let c := s.axes[i].cur
  let fresh := r.seq != c.mboxSeq
  let reached := decide ((j + 65536 - r.takeAt) % 65536 < 32768)
  let s :=
    if fresh && reached then
      s.updCur i fun c =>
        { c with u := r.u, lPos := r.lPos, lNeg := r.lNeg, vRef := r.vRef, pRef := r.pRef, takeAt := r.takeAt
                 lawOff := r.lawOff, mboxSeq := r.seq }
    else if fresh then s
    else
      s.updAxis i fun a => { a with cur := { a.cur with staleCnt := satInc 16 a.cur.staleCnt } }
  let s := s.updPos i fun x => if x.curSeq = r.seq then x else { x with curSeq := r.seq, curSince := s.now }
  let late := s.overdue i s.axes[i].pos.curSince (s.tp i)
  let s := s.judgeStale i s.axes[i].pos.staleCur late 2
  s.updPos i fun x => { x with staleCur := late }

/-! ### Compensation tables (R297 to R300) -/

/-- Entry `k` of a table: E⁺ and E⁻. -/
def tblEntry (bs : List Byte) (k : Nat) : Rat × Rat := (fpToRat (fp bs (8 * k)), fpToRat (fp bs (8 * k + 4)))

/-- Index of an entry under wrap or clamp (R297). -/
def tblIndex (wrap : Bool) (n : Nat) (k : Int) : Nat :=
  if wrap then (k % (n : Int)).toNat else (satInt 0 ((n : Int) - 1) k).toNat

/-- x of R297 for a position. -/
def tblX (org : Rat) (shift : Nat) (p : Rat) : Rat := (p - org) / ((2 ^ shift : Nat) : Rat)

/-- Entries i₀ − 1 to i₀ + 2 of a table (R299). -/
def tblFetch (bs : List Byte) (wrap : Bool) (x : Rat) : Option (Nat × List (Nat × Rat × Rat)) :=
  let n := bs.length / 8
  if n = 0 then none
  else some (n, [-1, 0, 1, 2].map fun k => let j := tblIndex wrap n (x.floor + k); (j, tblEntry bs j))

/-- The interpolated pair at `x` from prefetched entries; none when they do not hold the pair needed. -/
def tblValue (pre : Option (Nat × List (Nat × Rat × Rat))) (wrap : Bool) (x : Rat) : Option (Rat × Rat) :=
  match pre with
  | none => none
  | some (n, es) =>
    let i := x.floor
    let f := x - (i : Rat)
    match es.find? (fun e => e.1 == tblIndex wrap n i), es.find? (fun e => e.1 == tblIndex wrap n (i + 1)) with
    | some a, some b => some (a.2.1 + f * (b.2.1 - a.2.1), a.2.2 + f * (b.2.2 - a.2.2))
    | _, _ => none

/-- The table in use of an axis, empty when the kind is off or none is loaded. -/
def tableOf (on : Bool) (l : List (Nat × List Byte)) (i : Nat) : List Byte := if on then (assocGet? l i).getD [] else []

/-- One release of the compensation (R298, R299): i_comp at p_c, and the prefetch for the expected next p_c. -/
def State.compensate (s : State) (i : Fin 512) (pk v tau : Rat) : State :=
  let tc := s.tcS i
  let pc := pk + v * (tau + tc / 2)
  let pn := pk + v * (tc + tau + tc / 2)
  let fr := tableOf (s.ax P.axFricen i == 1) s.tables.fric i.val
  let cg := tableOf (s.ax P.axCogen i != 0) s.tables.cog i.val
  let fw := s.ax P.axFricwrap i == 1
  let cw := s.ax P.axCogwrap i == 1
  let fx (p : Rat) := tblX (s.axPos P.axFricorg i) (s.ax P.axFricshift i) p
  let cx (p : Rat) := tblX (s.axPos P.axCogorg i) (s.ax P.axCogshift i) p
  let c := s.axes[i].cur
  let w := ratClamp (-1) 1 (c.vRef / s.axF P.axFricvel i)
  let fv := if fr.isEmpty then some (0, 0) else tblValue c.preFric fw (fx pc)
  let cv := if cg.isEmpty then some (0, 0) else tblValue c.preCog cw (cx pc)
  let s := s.updCur i fun c => { c with preFric := tblFetch fr fw (fx pn), preCog := tblFetch cg cw (cx pn) }
  match fv, cv with
  | some f, some g =>
    let fi := if 0 ≤ w then w * f.1 else w * f.2
    let ci := if s.ax P.axCogen i = 2 then (1 + w) / 2 * g.1 + (1 - w) / 2 * g.2 else g.1
    s.updCur i fun c => { c with iComp := fp32 (s.axF P.axCompscale i * (fi + ci)) }
  | _, _ => s.updCur i fun c => { c with tblMiss := satInc 32 c.tblMiss, tblMissed := true }

/-- r_q of R300: the mailbox reference with the compensation current, inside the limits of the mailbox. -/
def State.torqueRef (s : State) (i : Fin 512) : Rat :=
  let c := s.axes[i].cur
  match s.brakeCurrent i with
  | some b => b
  | none => if c.lawOff then 0 else fp32 (ratClamp (-c.lNeg) c.lPos (c.u + c.iComp))

/-! ### Supervision of the samples -/

/-- Count consecutive samples at 0 or N³ on the two current channels (R189). -/
def State.countStuck (s : State) (i : Fin 512) (p : Fin 64) : State :=
  s.updCur i fun c =>
    { c with satA := if s.recStuck p 0 then satInc 16 c.satA else 0, satB := if s.recStuck p 1 then satInc 16 c.satB else 0 }

/-- Raise an axis fault that is detected again at every release, unless it is active already. -/
def State.raiseOnce (s : State) (i : Fin 512) (code cls : Nat) : State :=
  if s.activeAxisFault code i then s else s.raiseAxis i code cls

/-- `SD_FAULT` once a channel has sat at 0 or N³ for `AX.SDFLTCNT` samples (R189). -/
def State.checkStuck (s : State) (i : Fin 512) : State :=
  let c := s.axes[i].cur
  let n := s.ax P.axSdfltcnt i
  if decide (n ≤ c.satA) || decide (n ≤ c.satB) then s.raiseOnce i 0x0303 4 else s

/-- A channel has sat at 0 or N³ for `AX.SDFLTCNT` samples (R189): raised unless a release has raised it already (R217). -/
def execSdFault (i : Fin 512) (s : State) : Out := s.main (if s.isLocal i then s.checkStuck i else s)

/-- `OVERCURRENT` (R215). -/
def State.checkOvercurrent (s : State) (i : Fin 512) (ia ib ic : Rat) : State :=
  let m := s.axF P.axImaxtrip i
  if m < ratAbs ia ∨ m < ratAbs ib ∨ m < ratAbs ic then s.raiseAxis i 0x0302 4 else s

/-- The rule of Tables 6.9 and 9.12: a fault when a flag sets after being clear for at least 100 ms. `last` is when it was last
set. -/
def State.flagFault (s : State) (i : Fin 512) (was now : Bool) (last : Option Nat) (code cls : Nat) : State :=
  let clear := match last with | some t => decide (t + 100000000 ≤ s.now) | none => true
  if now && !was && clear then s.raiseAxis i code cls else s

end Sys2Proof.Machine
end

