-- ==== Sys2Proof/Machine/Tollgate.lean ====
section
/-!
DEFINITION. Events and commands of Tollgate (chapter 12). A timer command is the expiry itself; it acts when the state it times
still stands.
-/
namespace Sys2Proof.Machine

/-- Start-up diagnostics end (Table 12.17): all outputs stay low until a configuration is accepted. -/
def execTgSelftestDone (ok : Bool) (s : State) : Out :=
  .next
    (if s.tg.st = .selftest then
       (if ok then
          ((s.updBoot fun b => if b.seq = .off then b else { b with stage := max 2 b.stage }).updTg fun t =>
            { t with st := .waitCfg, toggled := t.clk }).tgNote
        else s.tgHalt)
     else s)

/-- A pass of the background march and ROM CRC ends, or an access meets a double-bit error (Table 12.17). -/
def execTgBackgroundTest (ok : Bool) (s : State) : Out := .next (if ok then s else s.tgHalt)

/-- The press that confirms a pending image: Tollgate seals it (R409). -/
def State.confirmPress (s : State) : State :=
  match s.tg.confirm, s.tg.pending with
  | some c, some im =>
    if c.image.isSome then s
    else
      let seq := (s.tg.cfg.map (·.seq)).getD 0 + 1
      s.updTg fun t => { t with confirm := some { c with image := some (sealImage im seq s.now) } }
  | _, _ => s

/-- The evaluation of a cycle with a configuration in force. -/
def State.tgEvaluate (s : State) (oldEdm : BitVec 8) (pads : BitVec 64) : State :=
  let due := s.tg.reset.due
  let s := s.updReset fun r => { r with due := false }
  let confirm := s.tg.st == .confirming
  let s := if due && confirm then s.confirmPress else s
  let reset := due && !confirm
  let s := if reset then s.safetyEvent 7 s.resetIdx 0 0 else s
  let s := allFns.foldl (fun s f => s.fnStep reset f) s
  let s := allPorts.foldl (fun s p => s.tgReadback pads p) s
  let s := allPorts.foldl (fun s p => s.brakeTestCycle p) s
  let s := (s.tgPorts reset).fnTimes
  let s := (List.finRange 16).foldl (fun s o => s.edmCycle oldEdm o) s
  let s := if reset then s.soReset else s
  s.tgOutputs

/-- A Tollgate cycle (R384): snapshot, evaluation, outputs and mirror. Operands: the `EDM`, `BRKFB` and `GEN` pad levels of the
snapshot, and how often the lockstep comparator flagged a mismatch. -/
def State.tgCycle (s : State) (edm : BitVec 8) (brkfb pads : BitVec 64) (mismatch : Nat) : State :=
  if s.tg.st = .selftest then s
  else if 2 ≤ mismatch then s.tgHalt
  else
    let old := s.tg.edm
    let s := s.updTg fun t => { t with edm := edm, brkfb := brkfb, cycles := (t.cycles + 1) % 2 ^ 32, toggled := t.clk }
    let s := if s.tgActive then s.tgEvaluate old pads
             else
               let due := s.tg.reset.due
               let s := s.updReset fun r => { r with due := false }
               if due && s.tg.st == .confirming then s.confirmPress else s
    (s.resetFaults).tgMirror.tgNote

def execTollgateCycle (edm : BitVec 8) (brkfb pads : BitVec 64) (mismatch : Fin 3) (s : State) : Out :=
  .next (s.axisCycle fun s => s.tgCycle edm brkfb pads mismatch.val)

/-- The filter of an input passes a raw level (R386 to R388) that has held for `run` samples of 10 µs, the input having been inactive
for `us` µs: not inside a window of its own test pulse. -/
def State.siPasses (s : State) (i : Fin 32) (level : Bool) (run us : Nat) : Bool :=
  let n := s.sf P.sfSiTpo i.val
  let tp := s.sf P.sfSiOssdtp i.val
  s.tg.si.getLsbD i.val != level && !(decide (n < 8) && s.tg.tpoWin.getLsbD n) && decide (s.sf P.sfSiFilt i.val ≤ run)
    && (level || tp == 0 || decide (tp + 10 ≤ us))

/-- A filtered input changes (R386 to R388). -/
def execSiFilteredChange (i : Fin 32) (level : Bool) (run : BitVec 8) (us : BitVec 16) (s : State) : Out :=
  .next
    (if s.siPasses i level run.toNat us.toNat = false then s
     else
       let m : BitVec 32 := BitVec.ofNat 32 (2 ^ i.val)
       let s := s.updTg fun t => { t with si := if level then t.si ||| m else t.si &&& ~~~m }
       let s := if s.resetIdx = i.val then s.resetEdge level else s
       let s := allFns.foldl (fun s f =>
         if s.fnType f = 4 ∨ s.fnType f = 5 then
           (let h := s.hands f
            s.updFn f fun x => x.hand h.1 h.2 s.tg.clk)
         else s) s
       s.fnTimes.tgNote)

/-- A test-pulse fault of an input (R387, Table 12.20): on the reset input `RESET_INPUT`, otherwise the functions that read the
input enter `FAULT`. -/
def State.tpFault (s : State) (i : Fin 32) (code cause : Nat) : State :=
  if s.resetIdx = i.val then s.tgRaiseDev 0x070C 1 i.val
  else
    let fs := allFns.filter fun f => (fnInputs ((s.tg.cfg.map (·.values)).getD []) f.val).contains i.val
    if fs.isEmpty then s.tgRaiseNone code 4 i.val else fs.foldl (fun s f => s.fnFault f code cause i.val) s

/-- A test-pulse window starts or ends (R387), where Tollgate time is inside or outside it. Operands at its end: the inputs whose raw level went inactive inside the window,
and those that also returned to active while their own `TPO` was high. -/
def execTpoPulse (n : Fin 8) (start : Bool) (low back : BitVec 32) (s : State) : Out :=
  .next
    (if s.tgActive = false then s
     else
       let w : BitVec 8 := BitVec.ofNat 8 (2 ^ n.val)
       if start != s.tpoInWindow n.val then s
       else if start then s.updTg fun t => { t with tpoWin := t.tpoWin ||| w }
       else if s.tg.tpoWin.getLsbD n.val = false then s
       else
         let s := s.updTg fun t => { t with tpoWin := t.tpoWin &&& ~~~w }
         ((List.finRange 32).foldl (fun s i =>
           let k := s.sf P.sfSiTpo i.val
           let m : BitVec 32 := BitVec.ofNat 32 (2 ^ i.val)
           if 8 ≤ k ∨ s.tg.si.getLsbD i.val = false then s
           else if k = n.val then
             (let bad := !low.getLsbD i.val
              let was := s.tg.tpBad.getLsbD i.val
              let s := s.updTg fun t => { t with tpBad := if bad then t.tpBad ||| m else t.tpBad &&& ~~~m }
              if bad && !was then s.tpFault i 0x0703 5 else s)
           else
             let bad := low.getLsbD i.val && back.getLsbD i.val
             let was := s.tg.crossBad.getLsbD i.val
             let s := s.updTg fun t => { t with crossBad := if bad then t.crossBad ||| m else t.crossBad &&& ~~~m }
             if bad && !was then s.tpFault i 0x0702 4 else s) s).tgOutputs.tgNote)

/-- The output stage samples the torque-off requests (R382): asserted in two consecutive samples, `GEN` and `BRK` fall. -/
def execTorqueOffSample (s : State) : Out :=
  .next
    (let now := s.torLines
     let off := now &&& s.tg.torSample
     let s := s.updTg fun t => { t with torSample := now }
     ((s.setBrk (s.tg.brk &&& ~~~off)).setGen (s.tg.gen &&& ~~~off)).tgNote)

/-- The output-stage watchdog acts (R383): the cores, once they run cycles, have not toggled it for 1 ms. -/
def execOutputWatchdogExpiry (s : State) : Out :=
  .next
    (if s.tg.st = .selftest ∨ s.tgPast s.tg.toggled 1 = true then
       (s.updTg fun t => { t with watchdog := true }).tgOutputs.tgNote
     else s)

/-- The main domain signals a `TGOSC` fault on its line (R383). -/
def execTgoscFaultLine (s : State) : Out := .next s.tgHalt

/-- `TGSEQ` unchanged for 10 ms (R120, Table 12.20). -/
def execTgSilent (s : State) : Out :=
  .next (if s.boot.inReset || s.activeFault 0x070F .device 0 || !s.tgPast s.tg.mirror.since 10 then s else
    (s.updTg fun t => { t with mirror := { t.mirror with silent := t.mirror.seq } }).raiseDev 0x070F 6)

/-! ### Timers -/

/-- The elapsed time since a mark exceeds a number of ms. -/
def State.tgLonger (s : State) (t0 : Option Nat) (ms : Nat) : Bool :=
  match t0 with
  | some t => decide (t + ms * tgMs < s.tg.clk)
  | none => false

/-- R394: `SF.PT_SS1TIME` has elapsed, and the port enters `STO`. -/
def execSs1Timeout (p : Fin 64) (s : State) : Out :=
  .next
    (if s.tgActive ∧ (s.tg.ports[p]).st = .ss1 ∧ s.tgPast (s.tg.ports[p]).ss1At (s.sf P.sfPtSs1time p.val) = true then
       ((s.tgEnter p .sto).safetyEvent 4 0 0 (BitVec.ofNat 64 (2 ^ p.val))).tgOutputs.tgNote
     else s)

/-- R389: the channels of a function have differed for longer than `SF.FN_DISC`. -/
def execDiscrepancyTimer (f : Fin 16) (s : State) : Out :=
  .next
    (if s.tgActive ∧ s.fnDiffers f = true ∧ s.tgLonger (s.tg.fns[f]).diffSince (s.sf P.sfFnDisc f.val) = true
         ∧ (s.tg.fns[f]).st ≠ .fault then
       (s.fnFault f 0x0701 3 f.val).tgOutputs.tgNote
     else s)

/-- R392: every port of the function has been stopped for `SF.FN_LOCKDLY`. -/
def State.stoppedLong (s : State) (f : Fin 16) : Bool :=
  match (s.tg.fns[f]).stopSince with
  | some t => s.tgPast t (s.sf P.sfFnLockdly f.val)
  | none => false

/-- R392: the lock output switches to unlocked. -/
def execLockDelayExpiry (f : Fin 16) (s : State) : Out :=
  .next
    (if s.tgActive ∧ s.fnType f = 3 ∧ (s.tg.fns[f]).unlocking = true ∧ s.fnStopped f = true ∧ s.stoppedLong f = true then
       (s.updFn f fun x => { x with locked := false, fbWait := false }).tgOutputs.tgNote
     else s)

/-- R392: 1 s after relocking. -/
def execLockFbTimeout (f : Fin 16) (s : State) : Out :=
  .next
    (if s.tgActive ∧ s.fnType f = 3 ∧ (s.tg.fns[f]).fbWait = true ∧ s.tgPast (s.tg.fns[f]).relockAt 1000 = true then
       (let s := s.updFn f fun x => { x with fbWait := false }
        if s.fnLvl f 2 then s else (s.fnFault f 0x0704 6 f.val).tgOutputs.tgNote)
     else s)

/-- R397: `BRKFB` has not confirmed within `SF.PT_BRKFBT`. -/
def State.brkfbTimeout (s : State) (p : Fin 64) : State :=
  if s.tgActive ∧ s.sf P.sfPtBrake p.val = 1 ∧ (s.tg.ports[p]).brkWait = true
      ∧ s.tgPast (s.tg.ports[p]).brkAt (s.sf P.sfPtBrkfbt p.val) = true then
    ((s.updTp p fun x => { x with brkWait := false, brkBad := true }).tgPortFault p 0x0705 7).tgOutputs.tgNote
  else s

def execBrkfbTimeout (p : Fin 64) (s : State) : Out := .next (s.brkfbTimeout p)

/-- R400: `EDM` has not followed within `SF.EDMTIME`. -/
def execEdmTimeout (o : Fin 16) (s : State) : Out :=
  .next (if s.tgActive ∧ (s.tg.sos[o]).edmWait = true ∧ s.tgPast (s.tg.sos[o]).edmAt (s.sf P.sfEdmtime) = true then (s.soFault o 0x070A 0x0B).tgOutputs.tgNote else s)

/-- R400: the off-pulse of an output that is on; operands: the readback was low inside the pulse and high outside. -/
def execSoOffPulse (o : Fin 16) (low high : Bool) (s : State) : Out :=
  .next
    (if s.tgActive ∧ o.val < 8 ∧ (s.tg.sos[o]).on = true ∧ (low && high) = false then
       (s.soFault o 0x0709 0x0A).tgOutputs.tgNote
     else s)

/-- R402: the press reaches 5 s. -/
def execResetStuckTimer (s : State) : Out :=
  .next
    (let long := match s.tg.reset.press with
       | some (t0, _) => s.tgPast t0 5000
       | none => false
     if long = true ∧ s.tg.reset.stuck = false then
       (((s.updReset fun r => { r with stuck := true, stuckGone := none }).tgRaiseDev 0x070B 1 s.resetIdx).safetyEvent 8
         s.resetIdx 2 0).tgNote
     else s)

/-- R405: no brake test has passed within `SF.BTINTERVAL`. -/
def execBrakeTestDueTimer (p : Fin 64) (s : State) : Out :=
  .next
    (if s.tgActive ∧ s.sf P.sfBtinterval ≠ 0 ∧ s.sf P.sfPtBrake p.val = 1
         ∧ s.tgPast (s.tg.ports[p]).passAt (s.sf P.sfBtinterval * 3600000) = true then
       ((s.updTg fun t => { t with btDue := t.btDue ||| BitVec.ofNat 64 (2 ^ p.val) }).tgRaisePort p 0x0707 1 p.val).tgNote
     else s)

/-! ### Requests of Byway (R381) -/

/-- Release or apply a brake (R381, R396): a release acts only while the port's `GEN` is high. -/
def execBrakeReleaseRequest (p : Fin 64) (release : Bool) (s : State) : Out :=
  .next
    (let m : BitVec 64 := BitVec.ofNat 64 (2 ^ p.val)
     if !release then (s.setBrk (s.tg.brk &&& ~~~m)).tgNote
     else if s.tgActive ∧ s.tg.gen.getLsbD p.val = true ∧ s.sf P.sfPtBrake p.val = 1 ∧ (s.tg.ports[p]).test = none then
       (s.setBrk (s.tg.brk ||| m)).tgNote
     else s)

/-- The sealed-configuration buffer of the service area (Table 15.4). -/
def sealedBuffer : Nat := 0x900000

/-- Byway passes the sealed image that Turnpike chose and copied into its Crossroads buffer, or its absence, and Tollgate accepts or
refuses it (R65, R407). -/
def State.cfgTransfer (s : State) (copy0 copy1 : List Byte) : State :=
  match s.tg.flash.chosen copy0 copy1 with
  | none => (s.tgRaiseDev 0x070D 1 1).tgNote
  | some (im, k) =>
    let s : State := { s with xr := (s.xr.write sealedBuffer im).clearBad sealedBuffer im.length }
    match acceptImage im k with
    | .ok c => (s.acceptCfg c 1).tgNote
    | .error d => (s.tgRaiseDev 0x070D 1 d).tgNote

/-- `CFG_TRANSFER`: in the boot that follows a cold reset, once Byway runs, while Tollgate waits for a configuration (R65, R66). -/
def execCfgTransfer (copy0 copy1 : List Byte) (s : State) : Out :=
  .next
    (let s := s.bootStep.bootStep
     if s.tg.st ≠ .waitCfg ∨ s.boot.bywayUp = false ∨ s.boot.coldBoot = false then s
     else s.cfgTransfer copy0 copy1)

/-! ### Commands -/

/-- `SAFE_STATUS` (Table 12.15). -/
def opSafeStatus (_ : Instant) (p : Packet) (s : State) : HRes :=
  .ofCheck s do
    need (p.args.length == 0) .badLength 0x0004
    return .okBody s (s.tgStatus ++ leBytes 8 s.tg.lastChange ++ leBytes 4 s.tg.cycles ++ zeros 4)

/-- The state checks that `SAFE_CFG_LOAD` and `SAFE_CFG_CONFIRM` share (Table 12.13). -/
def State.cfgState (s : State) : Check Unit := do
  need (s.tg.st != .confirming) .state 0x0101
  need (s.tg.st != .safeHalt && s.tg.st != .selftest) .state 0x0104

/-- `SAFE_CFG_LOAD` (R408). -/
def opSafeCfgLoad (_ : Instant) (p : Packet) (s : State) : HRes :=
  .ofCheck s do
    let a := p.args
    need (decide (12 ≤ a.length) && decide (a.length ≤ 4080)) .badLength 0x0004
    let off := u32 a 0
    let total := u32 a 4
    let data := a.drop 8
    let got := if off = 0 then [] else (s.tg.load.map (·.2)).getD []
    need (off == got.length) .range 0x0101
    need (decide (64 ≤ total) && decide (total ≤ 65536) && total % 4 == 0 && decide (off + data.length ≤ total)) .range 0x0102
    s.cfgState
    let all := got ++ data
    if all.length = total then
      return .accepted (s.updTg fun t => { t with load := none, checking := t.checking ++ [(all, some (s.refOf p))] })
    else return .ok (s.updTg fun t => { t with load := some (total, all) })

/-- Tollgate has checked the oldest complete image (R408). -/
def execSafeCfgCheckComplete (s : State) : Out :=
  .next
    (match s.tg.checking with
     | [] => s
     | (im, r) :: rest =>
       let s := s.updTg fun t => { t with checking := rest }
       match checkLoaded im with
       | .ok _ =>
         let s := s.updTg fun t => { t with pending := some im }
         match r with
         | some r => s.complete r .done 0 s.now (leBytes 4 (u32 im 8) ++ leBytes 4 (u32 im 40))
         | none => s
       | .error (d, i) =>
         match r with
         | some r => s.complete r .denied d s.now (leBytes 4 i)
         | none => s)

/-- `SAFE_CFG_CONFIRM` (R409). -/
def opSafeCfgConfirm (_ : Instant) (p : Packet) (s : State) : HRes :=
  .ofCheck s do
    let a := p.args
    need (a.length == 12) .badLength 0x0004
    s.cfgState
    match s.tg.pending with
    | none => .error (.state, 0x0102)
    | some im =>
      need (u32 a 0 == u32 im 8 && u32 a 4 == u32 im 40) .denied 0x0106
      need (s.tg.gen == 0) .state 0x0103
      need (decide (10 ≤ u16 a 8) && decide (u16 a 8 ≤ 300) && rsvZero a 10 2) .range 0
      let s := s.updTg fun t => { t with st := .confirming, confirm := some { ref := some (s.refOf p), due := t.clk + u16 a 8 * 1000 * tgMs } }
      return .accepted (s.watchReset).tgOutputs.tgNote

/-- The confirmation ends without a switch: the configuration in force and the pending image stay (R409). -/
def State.confirmEnd (s : State) (st : Status) (det : Nat) : State :=
  match s.tg.confirm with
  | none => s
  | some c =>
    let s := s.updTg fun t => { t with confirm := none, st := if t.cfg.isSome then .run else .waitCfg }
    ((s.complete? c.ref st det s.now).watchReset).tgNote

/-- R409: no valid press within `timeout_s`. -/
def execConfirmTimeout (s : State) : Out :=
  .next
    (match s.tg.confirm with
     | some c => if c.image.isSome || decide (s.tg.clk < c.due) then s else s.confirmEnd .timeout 0
     | none => s)

/-- Turnpike has written the sealed image, or failed to (R409): into the copy that does not hold the image in force. -/
def execSealedImageWriteComplete (ok : Bool) (s : State) : Out :=
  .next
    (match s.tg.confirm with
     | none => s
     | some c =>
       match c.image with
       | none => s
       | some im =>
         if !ok then s.confirmEnd .aborted 0x0101
         else
           let k : Fin 2 := match s.tg.cfg with | some g => (if g.copy = 0 then 1 else 0) | none => 0
           let s := s.updTg fun t =>
             { t with confirm := none, pending := none
                      flash := if k = 0 then { t.flash with copy0 := some im } else { t.flash with copy1 := some im } }
           let s := match acceptImage im k with
             | .ok g => s.acceptCfg g 2
             | .error d => (s.tgRaiseDev 0x070D 1 d).updTg fun t => { t with st := if t.cfg.isSome then .run else .waitCfg }
           ((s.complete? c.ref .done 0 s.now).tgOutputs).tgNote)

/-- `BRAKE_TEST` (R404, Table 12.8). -/
def opBrakeTest (_ : Instant) (p : Packet) (s : State) : HRes :=
  .ofCheck s do
    let a := p.args
    need (a.length == 4) .badLength 0x0004
    match p.axis? with
    | none => .error (.badTarget, 0)
    | some i =>
      match s.portOf i with
      | none => .error (.badTarget, 0)
      | some n =>
        need (decide (u8 a 0 ≤ 1) && rsvZero a 1 3) .range 0
        let cur := fpToRat (BitVec.ofNat 32 (s.sf P.sfPtBtcur n.val))
        need (decide (cur ≤ s.axF P.axIlimpos i) && decide (cur ≤ s.axF P.axIlimneg i)) .range 0x0101
        need (s.axes[i].st == .enabledIdle) .state 0x0101
        need (s.sf P.sfPtBrake n.val == 1) .state 0x0102
        need ((s.tg.ports[n]).st != .lockout) .lockedOut 0
        need (s.tg.ports[n]).test.isNone .busy 0x0101
        let s := s.updTp n fun x => { x with test := some { ref := some (s.refOf p), both := u8 a 0 == 1, since := s.tg.clk } }
        return .accepted (s.setBrk (s.tg.brk &&& ~~~(BitVec.ofNat 64 (2 ^ n.val)))).tgNote

/-- A timed step of a brake test elapses (Table 12.7). Operand: the mean |i_q| that Byway reports for the direction that ends. -/
def execBrakeTestStep (p : Fin 64) (mean : BitVec 32) (s : State) : Out :=
  .next
    (match (s.tg.ports[p]).test with
     | none => s
     | some b =>
       match b.phase with
       | .confirm =>
         if s.brkShows p then s.updTp p fun x => { x with test := some { b with phase := .settle, since := s.tg.clk }, brkWait := false }
         else if s.tgPast b.since (s.sf P.sfPtBrkfbt p.val) = false then s
         else (((s.updTp p fun x => { x with brkWait := false, brkBad := true }).abortBrakeTest p).tgPortFault p 0x0705 7).tgOutputs.tgNote
       | .settle =>
         if s.tgPast b.since 100 = false then s
         else s.updTp p fun x => { x with test := some { b with phase := .drive, since := s.tg.clk, p0 := (s.fb[p]).count } }
       | .drive =>
         let low := fpToRat mean < mkRat 9 10 * fpToRat (BitVec.ofNat 32 (s.sf P.sfPtBtcur p.val))
         if s.tgPast b.since (s.sf P.sfPtBttime p.val) = false then s
         else if low then (s.endBrakeTest p b 2).tgNote
         else if b.both && !b.neg then
           s.updTp p fun x => { x with test := some { b with phase := .settle, since := s.tg.clk, neg := true } }
         else (s.endBrakeTest p b 0).tgNote)

end Sys2Proof.Machine
end

