-- ==== Sys2Proof/Machine/FaultOps.lean ====
section
/-!
DEFINITION. Reading and clearing faults: `FAULT_READ`, `FAULT_ACK` (R128, R506) and `RETIRE_STATUS` (R513); and the die
temperature (R518).
-/
namespace Sys2Proof.Machine

/-! ### Causes that persist -/

/-- The axis a record concerns, and its port. -/
def FaultRec.axis? (r : FaultRec) : Option (Fin 512) := fin? 512 r.axis

def State.recPort (s : State) (r : FaultRec) : Option (Fin 64) := r.axis?.bind s.portOf

/-- A condition on the feedback unit of a record's axis. -/
def State.onFb (s : State) (r : FaultRec) (f : Feedback → Bool) : Bool :=
  match s.recPort r with
  | some p => f (s.fb[p])
  | none => false

/-- A condition on the axis of a record. -/
def State.onAxis (s : State) (r : FaultRec) (f : Axis → Bool) : Bool :=
  match r.axis? with
  | some i => f s.axes[i]
  | none => false

/-- A condition on the port that is a record's unit. -/
def State.onPort (s : State) (r : FaultRec) (f : Port → Bool) : Bool :=
  match fin? 64 r.unit with
  | some p => f (s.ports[p])
  | none => false

/-- A condition on the bus that is a record's unit. -/
def State.onBus (s : State) (r : FaultRec) (f : Fin 8 → Bus → Bool) : Bool :=
  match fin? 8 r.unit with
  | some b => f b (s.buses[b])
  | none => false

/-- Level of the input that `INPUT_STUCK` names (Table 8.5): still active. -/
def State.stuckActive (s : State) (r : FaultRec) : Bool :=
  if r.detail < 0x100 then
    s.onFb r fun f => match r.detail with | 0 => f.a | 1 => f.b | _ => f.z
  else
    match fin? 32 (r.detail - 0x100), r.axis? with
    | some n, some i =>
      let a := s.axes[i]
      a.latches.toList.any (fun l => l.armed && l.cfg.source == n.val && !inactiveFor l.cfg.edge (s.probes[n]).level)
        || ((s.refInput i a.home.method).1 == n.val && s.refActive i)
    | _, _ => false

/-- A safety function that a Tollgate fault names is in `FAULT` (Table 12.20). -/
def State.fnStuck (s : State) (r : FaultRec) : Bool :=
  allFns.any fun f =>
    (s.tg.fns[f]).st == .fault &&
      (if r.code = 0x0701 ∨ r.code = 0x0704 then f.val == r.detail
       else (fnInputs ((s.tg.cfg.map (·.values)).getD []) f.val).contains r.detail)

/-- The port that is a record's unit is in `LOCKOUT`. -/
def State.tgLocked (s : State) (r : FaultRec) : Bool :=
  match fin? 64 r.unit with
  | some p => (s.tg.ports[p]).st == .lockout
  | none => false

/-- A word that a `CR_UNCORRECTABLE` record stands for has not been rewritten whole. -/
def State.wordBad (s : State) (r : FaultRec) : Bool :=
  s.xr.bad.any fun w => xrBank (8 * w) == r.unit && (s.wordOwner (8 * w)).map (·.val) == r.axis?.map (·.val)

/-- A condition on the CAN controller that is a record's unit. -/
def State.onCan (s : State) (r : FaultRec) (f : Can → Bool) : Bool :=
  match fin? 4 r.unit with
  | some c => f s.can[c]
  | none => false

/-- Faults that only a reset clears, or that clear automatically. -/
def neverAcked : List Nat := [0x070C, 0x070E, 0x0A06, 0x0C02]

/-- The cause of an active fault persists, as the last column of its table has it (R128). -/
def State.persists (s : State) (r : FaultRec) : Bool :=
  match r.code with
  | 0x0101 => s.onPort r (·.trip == .latched)
  | 0x0103 | 0x0104 => s.onPort r fun x => x.trip == .latched || x.drvflt
  | 0x0107 => s.onPort r (·.dlFallback)
  | 0x0108 => match (fin? 64 r.unit).bind s.ownerOf with
    | some e => (s.eng[e]).halted
    | none => false
  | 0x0202 | 0x0306 => s.onFb r fun f => f.hall == 0 || f.hall == 7
  | 0x0203 => s.onFb r fun f => f.refused != 0
  | 0x0204 => s.onFb r fun f => f.ampOut != 0
  | 0x0205 => s.onFb r fun f => !f.resLock
  | 0x0207 => s.stuckActive r
  | 0x0303 => match s.recPort r with
    | some p => s.recStuck p 0 || s.recStuck p 1
    | none => false
  | 0x0405 => s.onAxis r fun a =>
      match r.detail with | 1 => a.pos.staleSp | 2 => a.pos.staleCur | _ => a.coord.masterStale
  | 0x0407 => s.onAxis r fun a => decide (mkRat 19 20 ≤ a.pos.theta)
  | 0x0409 => s.onAxis r fun a => a.net.missed != 0
  | 0x040A => s.onAxis r fun a => a.net.fault.isSome
  | 0x040C => match fin? 512 r.detail with
    | some j => s.faults.table.any fun x => x.code != 0x040C && decide (2 ≤ x.cls) && s.reachesAxis x j
    | none => false
  | 0x0603 => s.onBus r fun b x => decide (s.bp P.dvDcbOv2 b - s.bp P.dvDcbHyst b ≤ x.v)
  | 0x0604 => s.onBus r fun b x => decide (s.bp P.dvDcbOv1 b - s.bp P.dvDcbHyst b ≤ x.v)
  | 0x0607 => s.onBus r fun _ x => x.chfb
  | 0x0608 => s.onBus r fun b x => decide (s.bp P.dvDcbChemax b * mkRat 4 5 ≤ x.chw)
  | 0x0609 => s.onBus r fun _ x => x.lastStuck
  | 0x0701 | 0x0702 | 0x0703 | 0x0704 => s.fnStuck r
  | 0x0705 | 0x0706 | 0x0708 => s.tgLocked r
  | 0x0707 => match fin? 64 r.unit with
    | some p => s.tg.btDue.getLsbD p.val
    | none => false
  | 0x0709 | 0x070A => match fin? 16 r.detail with
    | some o => (s.tg.sos[o]).lockout
    | none => false
  | 0x070B => s.tg.si.getLsbD s.resetIdx
  | 0x070D => s.tg.st == .waitCfg
  | 0x070F => s.tg.mirror.seq == s.tg.mirror.silent
  | 0x0802 | 0x0803 => s.time.servo == .holdover
  | 0x0804 => match fin? 4 r.unit with
    | some e => !(s.net.ports[e]).link
    | none => false
  | 0x0805 => match fin? 2 r.detail with
    | some q => (s.net.ports[(⟨2 * q.val, by omega⟩ : Fin 4)]).silent != 0 || (s.net.ports[(⟨2 * q.val + 1, by omega⟩ : Fin 4)]).silent != 0
    | none => false
  | 0x0807 => match fin? 15 (r.detail - 1) with
    | some m => (s.net.members[m]).st != .member
    | none => false
  | 0x0808 => s.net.missed != 0
  | 0x0809 => s.net.split
  | 0x0902 => s.onCan r (·.st == .errorPassive)
  | 0x0905 => s.onCan r (·.st == .rateDetect)
  | 0x0906 => s.onCan r (·.refLost)
  | 0x0A02 => s.wordBad r
  | 0x0B04 | 0x0B05 => s.onAxis r (·.st == .retired)
  | 0x0D01 => s.boot.tgoscFault
  | 0x0D04 => decide (110 < s.dbg.temp)
  | 0x0D05 => decide (115 < s.dbg.temp)
  | n => neverAcked.contains n

/-! ### `FAULT_ACK` -/

/-- What the clear of a fault does beside its record. -/
def State.ackEffect (s : State) (r : FaultRec) : State :=
  match r.code with
  | 0x0203 => match s.recPort r with
    | some p => s.updFb p fun f => { f with word := none }
    | none => s
  | 0x040A => match r.axis? with
    | some i => s.updAxis i fun a => { a with net := { a.net with ack := true } }
    | none => s
  | 0x0901 => match fin? 4 r.unit with
    | some c =>
      if s.can[c].st = .busOff ∧ s.dv P.dvCanBorecov c.val = 1 then
        s.updCan c fun x => { x with st := .recovering, runs := 0 } else s
    | none => s
  | _ => s

/-- Clear one fault if its cause has gone. -/
def State.ackOne (s : State) (r : FaultRec) : State :=
  if s.persists r then s else (s.clearRec r).ackEffect r

/-- The faults that a `FAULT_ACK` names (R128). -/
def State.named (s : State) (axis : Option (Fin 512)) (code : Nat) : List FaultRec :=
  s.faults.table.filter fun r =>
    (match axis with | some i => s.reachesAxis r i | none => true) && (code == 0 || r.code == code)

/-- Clear the named faults whose cause has gone, oldest first, and those that follow another fault after it; then the code of the
earliest-raised one that stays. -/
def State.ack (s : State) (axis : Option (Fin 512)) (code : Nat) : State × Option Nat :=
  let l := (s.named axis code).reverse
  let s := (l.filter (·.code != 0x040C)).foldl State.ackOne s
  let s := (l.filter (·.code == 0x040C)).foldl State.ackOne s
  let s := s.afterClear
  (s, (l.find? fun r => s.faults.table.contains r).map (·.code))

/-- `FAULT_ACK` (R128). -/
def opFaultAck (_ : Instant) (p : Packet) (s : State) : HRes :=
  .ofCheck s do
    need (p.args.length == 4) .badLength 0x0004
    let ax := u16 p.args 0
    need (decide (ax < 512) || ax == 0xFFFF) .range 0
    match s.ack (fin? 512 ax) (u16 p.args 2) with
    | (s, none) => return .ok s
    | (s, some c) => return .fail s .clearRefused c

/-! ### `FAULT_READ` -/

/-- The records of a log, newest first, and its overflow counter (R507). -/
def State.logOf (s : State) (n : Nat) : List FaultRec × Nat :=
  match n with
  | 0 => (s.faults.crlog.recs, s.faults.crlog.overflow)
  | 1 => (s.faults.plog.recs, s.faults.plog.overflow)
  | _ => (s.faults.table, 0)

/-- `FAULT_READ` (Table 3.27); after `BYWAY_DEAD` only the persistent log is read (R519). -/
def opFaultRead (_ : Instant) (p : Packet) (s : State) : HRes :=
  .ofCheck s do
    let a := p.args
    need (a.length == 8) .badLength 0x0004
    let log := u8 a 0
    let first := u16 a 2
    let count := u16 a 4
    let ax := u16 a 6
    need (decide (log ≤ 2) && rsvZero a 1 1) .range 0
    need (decide (1 ≤ count) && decide (count ≤ (if s.versionOf p = 1 then 31 else 127))) .range 0
    need (decide (ax < 512) || ax == 0xFFFF) .range 0
    need (!s.boot.recovery || log == 1) .state 0x00FF
    let (recs, ovf) := s.logOf log
    let sel := recs.filter fun r => ax == 0xFFFF || r.axis == ax
    let out := (sel.drop first).take count
    return .okBody s
      (leBytes 2 sel.length ++ leBytes 2 out.length ++ leBytes 4 ovf ++ out.flatMap FaultRec.bytes)

/-! ### `RETIRE_STATUS` -/

/-- Hard shoulders that are available (Table 17.5). -/
def State.shoulders (s : State) : Nat := (allEngines.filter fun e => (s.eng[e]).role == .shoulder).length

/-- `DV.LESHOULDER`: bit n for a hard shoulder `LE`n. -/
def State.shoulderMask (s : State) : Nat := ofBools (allEngines.map fun e => (s.eng[e]).role == .shoulder)

/-- `RETIRE_STATUS` (Table 17.5). -/
def opRetireStatus (_ : Instant) (p : Packet) (s : State) : HRes :=
  .ofCheck s do
    need p.args.isEmpty .badLength 0x0004
    let f := s.faults
    return .okBody s
      (leBytes 4 f.enginesRetired ++ leBytes 4 s.shoulderMask ++ leBytes 8 f.portsRetired ++ leBytes 8 f.fbRetired
        ++ leBytes 1 ((s.xr.retired.map (·.val)).getD 255) ++ leBytes 1 s.shoulders ++ leBytes 2 f.migrations
        ++ leBytes 4 f.totalUpsets ++ leBytes 8 f.lastRetire)

/-! ### Die temperature (R518) -/

/-- A fault of device scope that is detected again and again: raised unless it is active. -/
def State.raiseDevOnce (s : State) (code cls : Nat) : State :=
  if s.activeFault code .device 0 then s else s.raiseDev code cls

/-- The die temperature, FP32 °C. -/
def execDieTempSample (v : BitVec 32) (s : State) : Out :=
  s.main
    (let t := fpToRat v
     let s : State := { s with dbg := { s.dbg with temp := t } }
     s.axisCycle fun s =>
       let s := if 115 ≤ t then s.raiseDevOnce 0x0D04 1 else s
       if 125 ≤ t then s.raiseDevOnce 0x0D05 4 else s)

end Sys2Proof.Machine
end

