-- ==== Sys2Proof/Machine/Current.lean ====
section
/-!
DEFINITION. Program 0x0001: rotor angle (R192 to R197), the law (R199 to R208), modulation (R209 to R214), supervision (R215 to
R217); and energising (R190, R191, R198, R555).
-/
namespace Sys2Proof.Machine

/-! ### Coefficients (R202 to R204) -/

/-- Coefficients of one axis of the dq frame: R, L, φ, Γ, l1, l2 and α, β at T/2 and T. -/
structure LoopCoef where
  phi : Rat
  gam : Rat
  l1 : Rat
  l2 : Rat
  aHalf : Rat
  bHalf : Rat
  aFull : Rat
  bFull : Rat

def loopCoef (r l t obs : Rat) : LoopCoef :=
  let phi := Config.exp (-(r * t / l))
  let gam := (1 - phi) / r
  let z := Config.exp (-(2 * Config.pi * obs * t))
  let ah := Config.exp (-(r * (t / 2) / l))
  { phi := phi, gam := gam, l1 := 1 - z * z / phi, l2 := -((1 - z) * (1 - z) / gam)
    aHalf := ah, bHalf := (1 - ah) / r, aFull := phi, bFull := gam }

/-- α and β at τ̂: exact at T/2 and T, linear between 0, T/2 and T (R204). -/
def LoopCoef.alphaBeta (c : LoopCoef) (tau t : Rat) : Rat × Rat :=
  let x := ratClamp 0 t tau
  if 2 * x ≤ t then
    let f := 2 * x / t
    (1 + f * (c.aHalf - 1), f * c.bHalf)
  else
    let f := (2 * x - t) / t
    (c.aHalf + f * (c.aFull - c.aHalf), c.bHalf + f * (c.bFull - c.bHalf))

/-! ### Frames (R182) -/

/-- √3 (log 21). -/
def sqrt3 : Rat := ratSqrt 3

/-- Stationary frame to dq at θ. -/
def toDq (v : Rat × Rat) (th : Rat) : Rat × Rat :=
  let c := Config.cos th
  let s := Config.sin th
  (v.1 * c + v.2 * s, v.2 * c - v.1 * s)

/-- dq at θ to the stationary frame. -/
def fromDq (v : Rat × Rat) (th : Rat) : Rat × Rat :=
  let c := Config.cos th
  let s := Config.sin th
  (v.1 * c - v.2 * s, v.1 * s + v.2 * c)

/-- Phase currents to the stationary frame. -/
def clarke (ia ib : Rat) : Rat × Rat := (ia, (ia + 2 * ib) / sqrt3)

/-- Stationary frame to phase voltages. -/
def phases (v : Rat × Rat) : Rat × Rat × Rat :=
  (v.1, -v.1 / 2 + sqrt3 / 2 * v.2, -v.1 / 2 - sqrt3 / 2 * v.2)

/-! ### Rotor angle -/

/-- 2π × frac(m p / d), the fraction formed to 32 bits (R192); `p` is a raw `pos64`. -/
def turnAngle (m : Nat) (p : Int) (d : Nat) : Rat :=
  if d = 0 then 0
  else
    let u := (m * p * 65536) / (d : Int) % 4294967296
    2 * Config.pi * (u : Rat) / 4294967296

/-- ω̂_e (R192). -/
def State.omegaE (s : State) (i : Fin 512) (v : Rat) : Rat :=
  let c := s.crev i
  if c = 0 then 0 else 2 * Config.pi * (s.ax P.axPolepairs i : Rat) * v / (c : Rat)

/-- Lower edge of the sector of a Hall code in sixths of a turn (Table 6.3). -/
def hallSector (c : Nat) : Option Nat :=
  match c with
  | 5 => some 0 | 1 => some 1 | 3 => some 2 | 2 => some 3 | 6 => some 4 | 4 => some 5 | _ => none

/-- Centre of the sector of a code (R194). -/
def State.hallCentre (s : State) (i : Fin 512) (c : Nat) : Rat :=
  match hallSector c with
  | some k => ((2 * k + 1 : Nat) : Rat) * Config.pi / 6 + s.axF P.axHalloff i
  | none => 0

/-- Angle of the edge on entry to a code (R194, R196). -/
def State.hallEntry (s : State) (i : Fin 512) (c : Nat) (neg : Bool) : Rat :=
  match hallSector c with
  | some k => ((if neg then k + 1 else k : Nat) : Rat) * Config.pi / 3 + s.axF P.axHalloff i
  | none => 0

/-- θ_k of a position source before θ_w (R192). -/
def State.baseAngle (s : State) (i : Fin 512) (p : Fin 64) (om : Rat) : Rat :=
  turnAngle (s.ax P.axPolepairs i) (s.recPos p) (s.crev i) + om * ((s.ax P.axAnglelat i : Nat) : Rat) / 1000000000

/-- θ_k with Hall signals only (R196): the last edge carried on and held to its 60°, or the sector centre after 100 ms. -/
def State.hallAngle (s : State) (i : Fin 512) (p : Fin 64) (om : Rat) : Rat :=
  let f := s.fb[p]
  let t : Rat := (s.recPair p 0x080 : Nat)
  match f.hallEdge with
  | some (ts, c, neg) =>
    if 100000000 < t - ts then s.hallCentre i f.hall
    else
      let e := s.hallEntry i c neg
      let x := e + om * (t - ts) / 1000000000
      if neg then ratClamp (e - Config.pi / 3) e x else ratClamp e (e + Config.pi / 3) x
  | none => s.hallCentre i f.hall

/-- The angle initialisation of an axis (Table 6.2). -/
def State.angleInit (s : State) (i : Fin 512) : Nat := s.ax P.axAngleinit i

/-- θ_w in use: `AX.ANGLEOFF` for an absolute source (Table 6.2), otherwise the working offset. -/
def State.workOffset (s : State) (i : Fin 512) : Rat :=
  if s.angleInit i = 0 then s.axF P.axAngleoff i else s.axes[i].cur.thetaW

/-- Angle forced by an alignment step (R197). -/
def CurLoop.forced (c : CurLoop) : Option Rat :=
  match c.alignStep with
  | 1 => some (Config.pi / 2)
  | 2 => some 0
  | _ => none

/-- θ_k and ω̂_e of a release. A forced angle stands still. -/
def State.angles (s : State) (i : Fin 512) (p : Fin 64) : Rat × Rat :=
  let om := s.omegaE i (s.recVel p)
  match s.axes[i].cur.forced with
  | some a => (a, 0)
  | none =>
    if s.ax P.axAnglesrc i = 1 then (s.hallAngle i p om, om) else (s.baseAngle i p om + s.workOffset i, om)

/-- The first Hall edge after INIT began (R195): θ_w such that θ_k equals the edge angle, and `ANGLE_COARSE` clears;
`ANGLE_INIT_FAILED` when the correction exceeds 45°. -/
def State.refineHall (s : State) (i : Fin 512) (p : Fin 64) : State :=
  let c := s.axes[i].cur
  match (s.fb[p]).hallEdge with
  | some (ts, code, neg) =>
    if c.angleCoarse && decide (c.hallMark < ts) then
      let e := s.hallEntry i code neg
      let th := if s.ax P.axAnglesrc i = 1 then c.theta else (s.angles i p).1
      let d := wrapAngle (e - th)
      let s := s.updCur i fun c =>
        { c with angleCoarse := false, thetaW := if s.ax P.axAnglesrc i = 1 then c.thetaW else fp32 (wrapAngle (c.thetaW + d)) }
      if Config.pi / 4 < ratAbs d then s.raiseAxis i 0x0306 4 2 else s
    else s
  | none => s

/-! ### Modulation -/

/-- m_Q of a port (R211). -/
def State.modQ (s : State) (p : Fin 64) : Rat :=
  let w := if s.pt P.ptQuietwin p = 0 then 3 * s.pt P.ptSdosr p * s.pt P.ptSddiv p else s.pt P.ptQuietwin p
  if s.period p = 0 then 1 else 1 - 2 * ((w + 2 * s.pt P.ptDeadtime p : Nat) : Rat) / (s.period p : Rat)

/-- m_B of a port (R211). -/
def State.modB (s : State) (p : Fin 64) : Rat := 2 * s.dutyCap p - 1

/-- m_lim (R211). -/
def State.modLim (s : State) (p : Fin 64) : Rat := ratMin 1 (ratMin (s.modQ p) (s.modB p))

/-- The voltage limit (R213): the limited vector and whether it was limited. -/
def limitVector (v : Rat × Rat) (vlim2 : Rat) : (Rat × Rat) × Bool :=
  if vlim2 < v.1 * v.1 + v.2 * v.2 then
    let lim := ratSqrt vlim2
    let d := ratClamp (-lim) lim v.1
    ((d, ratSign v.2 * ratSqrt (vlim2 - d * d)), true)
  else (v, false)

/-- Duties of R209 and R210, before they become on-times. -/
def State.duties (s : State) (i : Fin 512) (p : Fin 64) (v : Rat × Rat) (vdc ia ib : Rat) : List Rat :=
  let (va, vb, vc) := phases v
  let v0 := -(ratMax va (ratMax vb vc) + ratMin va (ratMin vb vc)) / 2
  let band := mkRat 1 50 * s.axF P.axIscale i
  let comp (x : Rat) : Rat :=
    if s.ax P.axDtcomp i = 1 ∧ s.period p ≠ 0 then
      ratClamp (-1) 1 (x / band) * (s.pt P.ptDeadtime p : Rat) / (s.period p : Rat)
    else 0
  let m := s.modLim p
  [(va, ia), (vb, ib), (vc, -ia - ib)].map fun (x, ix) =>
    ratClamp ((1 - m) / 2) ((1 + m) / 2) (mkRat 1 2 + (x + v0) / vdc + comp ix)

/-- The words of a set: on-times of legs A to C, leg D with both switches off (R183). -/
def State.dutySet (s : State) (p : Fin 64) (ds : List Rat) : List Word :=
  (ds.map fun d => BitVec.ofNat 32 (roundAway (d * ((32 * s.period p : Nat) : Rat))).toNat) ++ [BitVec.ofNat 32 (2 ^ 30)]

/-! ### The law -/

/-- What the stamps of the record say of the write of the release before (R199, R200): applied by this extremum, τ in s, and
applied only at this extremum. -/
def State.stamp (s : State) (p : Fin 64) : Bool × Rat × Bool :=
  let ext := s.recPair p 0x080
  let prev := s.recPair p 0x088
  let app := s.recPair p 0x090
  let frac := (s.recWord p 0x098).toNat / 65536
  (decide (prev < app), ((app : Rat) + mkRat frac 65536 - (prev : Rat)) / 1000000000, decide (ext ≤ app))

/-- Take in the stamps: v_{k−1} where it was not applied, τ, `REPEAT`, `LATE` (R199, R200). -/
def State.takeStamp (s : State) (i : Fin 512) (p : Fin 64) : State :=
  let (applied, tau, atEnd) := s.stamp p
  let j := s.sampleCount p
  let single := s.pt P.ptUpdate p != 1
  s.updCur i fun c =>
    let ran := (c.smp + 1) % 65536 == j
    let c := { c with smp := j, repeat_ := !applied, late := applied && single && atEnd }
    let c := { c with lateCnt := if c.late then satInc 16 c.lateCnt else c.lateCnt }
    if applied then { c with tau := tau }
    else if ran then { c with v1 := c.v2 }
    else { c with v2 := c.v1 }

/-- Voltages that the duty in force stands for (R208). -/
def State.dutyVolts (s : State) (i : Fin 512) (p : Fin 64) : Rat × Rat :=
  let d (k : Nat) : Rat := ((s.recWord p (0x0C8 + 4 * k)).toNat : Rat) / ((32 * s.period p : Nat) : Rat)
  let v := s.vdc i p
  (v * (2 * d 0 - d 1 - d 2) / 3, v * (d 1 - d 2) / sqrt3)

/-- ĉ (Current control, "Model"): −ω̂_e L_q î_q and ω̂_e (L_d î_d + ψ_m). -/
def coupling (om ld lq psi iD iQ : Rat) : Rat × Rat := (-(om * lq * iQ), om * (ld * iD + psi))

/-- Measured currents in dq (R182). -/
def State.measured (s : State) (i : Fin 512) (p : Fin 64) (th : Rat) : Rat × Rat :=
  toDq (clarke (s.recAmps i p 0) (s.recAmps i p 1)) th

/-- The observer (R202) at angle θ_k: the innovation is the result beside the state. -/
def State.observe (s : State) (i : Fin 512) (p : Fin 64) (th om : Rat) : State × (Rat × Rat) :=
  let c := s.axes[i].cur
  let k := s.axes[i].coef
  let t := s.tcS i
  let m := s.measured i p th
  if c.restored then
    (s.updCur i fun c => { c with iD := fp32 m.1, iQ := fp32 m.2, v1 := s.dutyVolts i p, restored := false }, (0, 0))
  else
    let kd := loopCoef (fpVal k.rs) (fpVal k.ld) t (fpVal k.obsbw)
    let kq := loopCoef (fpVal k.rs) (fpVal k.lq) t (fpVal k.obsbw)
    let tau := ratClamp 0 t c.tau
    let vb : Rat × Rat := ((tau * c.v2.1 + (t - tau) * c.v1.1) / t, (tau * c.v2.2 + (t - tau) * c.v1.2) / t)
    let vd := toDq vb (c.theta + om * t / 2)
    let id := kd.phi * c.iD + kd.gam * (vd.1 - c.cD - c.eD)
    let iq := kq.phi * c.iQ + kq.gam * (vd.2 - c.cQ - c.eQ)
    let nd := m.1 - id
    let nq := m.2 - iq
    (s.updCur i fun c =>
      { c with iD := fp32 (id + kd.l1 * nd), iQ := fp32 (iq + kq.l1 * nq), eD := fp32 (c.eD + kd.l2 * nd)
               eQ := fp32 (c.eQ + kq.l2 * nq) }, (nd, nq))

/-- Loss of synchronism (R216): one of its conditions holds at this release. -/
def State.losing (s : State) (i : Fin 512) (om : Rat) (nu : Rat × Rat) : Bool :=
  let c := s.axes[i].cur
  let inn := s.axF P.axLosinnov i
  let ang := s.axF P.axLosangle i
  let psi := fpVal s.axes[i].coef.psim
  let a := inn != 0 && decide (inn * inn < nu.1 * nu.1 + nu.2 * nu.2)
  let b := ang != 0 && !c.angleCoarse && s.axes[i].energ == .off && decide (s.axF P.axLosminspd i ≤ ratAbs om)
    && decide (ang < ratAbs (wrapAngle (Config.atan2 (om * psi + c.eQ) c.eD - Config.atan2 (om * psi) 0)))
  a || b

/-- The conditions of R216 at a release: since when one of them has held. -/
def State.watchLoss (s : State) (i : Fin 512) (om : Rat) (nu : Rat × Rat) : State :=
  let now := s.losing i om nu
  s.updCur i fun c => { c with los := now, losSince := s.heldSince now c.losSince }

/-- `LOSS_OF_SYNC` once a condition of R216 has held for `AX.LOSTIME`. -/
def State.checkLoss (s : State) (i : Fin 512) : State :=
  if s.heldFor s.axes[i].cur.losSince (s.ax P.axLostime i) then s.raiseOnce i 0x0304 (s.ax P.axLosclass i) else s

/-- One axis of the law (R203): i_a, the new integral, u′ and v before the limit. -/
def lawAxis (k : LoopCoef) (t tau p g : Rat) (hold : Bool) (i e sI u r : Rat) : Rat × Rat :=
  let ab := k.alphaBeta tau t
  let ia := ab.1 * i + ab.2 * (u - e)
  let sI := if hold then sI else fp32 (sI + (r - i))
  let tgt := ia + (1 - p) * (r - ia) + g * sI
  (sI, fp32 (e + (tgt - k.phi * ia) / k.gam))

/-- The control law, voltage limit and modulation of a release (R203, R205, R209 to R214); it stores the duties. -/
def State.control (s : State) (i : Fin 512) (p : Fin 64) (th om rd rq : Rat) : State :=
  let c := s.axes[i].cur
  let k := s.axes[i].coef
  let t := s.tcS i
  let kd := loopCoef (fpVal k.rs) (fpVal k.ld) t (fpVal k.obsbw)
  let kq := loopCoef (fpVal k.rs) (fpVal k.lq) t (fpVal k.obsbw)
  let pole := Config.exp (-(2 * Config.pi * fpVal k.curbw * t))
  let g := fpVal k.curint * t
  let tau := ratClamp 0 t c.tau
  let xd := lawAxis kd t tau pole g c.intHold c.iD c.eD c.sD c.uD rd
  let xq := lawAxis kq t tau pole g c.intHold c.iQ c.eQ c.sQ c.uQ rq
  let ch := coupling om (fpVal k.ld) (fpVal k.lq) (fpVal k.psim) c.iD c.iQ
  let v : Rat × Rat := (xd.2 + ch.1, xq.2 + ch.2)
  let vdc := s.vdc i p
  let full := vdc * vdc / 3
  let m := s.modLim p
  let mb := ratMin 1 (s.modB p)
  let lim := limitVector v (m * m * full)
  let modl := lim.2 && decide (v.1 * v.1 + v.2 * v.2 ≤ mb * mb * full)
  let out := fromDq lim.1 (th + om * (tau + t / 2))
  let out : Rat × Rat := (fp32 out.1, fp32 out.2)
  let s := s.updCur i fun c =>
    { c with
      sD := xd.1, sQ := xq.1, uD := xd.2, uQ := xq.2, cD := fp32 ch.1, cQ := fp32 ch.2, v2 := c.v1, v1 := out, theta := th
      omega := om, voltLimited := lim.2, modLimited := modl, intHold := lim.2, alignVolt := c.alignVolt || lim.2 }
  let s := s.flagFault i c.voltLimited lim.2 c.voltAt 0x0307 1
  let s := s.flagFault i c.modLimited modl c.modAt 0x0308 1
  let s := s.updCur i fun c =>
    { c with voltAt := if lim.2 then some s.now else c.voltAt, modAt := if modl then some s.now else c.modAt }
  s.slotStore p 0 (s.dutySet p (s.duties i p out vdc (s.recAmps i p 0) (s.recAmps i p 1)))

/-- i_d reference: zero outside alignment, `AX.ALIGNCUR` there, ramped over the first 10 % of step 1 (R197, R203). -/
def State.dRef (s : State) (i : Fin 512) : Rat :=
  let c := s.axes[i].cur
  let cur := s.axF P.axAligncur i
  match c.alignStep with
  | 1 =>
    let r : Rat := (s.ax P.axAligntime i : Rat) / 20
    let x : Rat := ((s.now - c.alignT0 : Nat) : Rat)
    if x < r then cur * x / r else cur
  | 2 => cur
  | _ => 0

/-- During the last 10 % of step 2 the extremes of the position are kept (R197). -/
def State.trackAlign (s : State) (i : Fin 512) (p : Fin 64) : State :=
  let c := s.axes[i].cur
  let half := s.ax P.axAligntime i / 2
  if c.alignStep = 2 ∧ 9 * half ≤ 10 * (s.now - c.alignT0) then
    let x := ofPos64 (s.recPos p)
    s.updCur i fun c =>
      match c.alignLo with
      | none => { c with alignLo := some x, alignHi := x }
      | some l => { c with alignLo := some (ratMin l x), alignHi := ratMax c.alignHi x }
  else s

/-- Outside INIT and RUN the program drives nothing and its law starts from rest. -/
def CurLoop.rest (c : CurLoop) : CurLoop :=
  { c with
    iD := 0, iQ := 0, eD := 0, eQ := 0, sD := 0, sQ := 0, v1 := (0, 0), v2 := (0, 0), cD := 0, cQ := 0, uD := 0, uQ := 0
    voltLimited := false, modLimited := false, intHold := false, los := false, losSince := none }

/-- The switches of the axis are handed to its current program: phases INIT and RUN of Table 6.4. -/
def State.drives (s : State) (i : Fin 512) : Bool :=
  s.lawOn i || (s.axes[i].st == .ready && (s.axes[i].energ == .init || s.axes[i].energ == .running))

/-- A release of program 0x0001. It evaluates R189, R215 and R216 on its samples before it writes v_k; their reactions follow the
release (R217, R505). -/
def State.currentRelease (s : State) (i : Fin 512) (p : Fin 64) : State :=
  let s := s.updAxis i fun a => { a with curOld := a.cur }
  let s := ((s.countStuck i p).checkStuck i).readCurRef i (s.sampleCount p)
  let ia := s.recAmps i p 0
  let ib := s.recAmps i p 1
  let comp (s : State) : State := s.compensate i (ofPos64 (s.recPos p)) (s.recVel p) s.axes[i].cur.tau
  if !s.drives i then
    let s := comp ((s.updCur i CurLoop.rest).takeStamp i p)
    s.checkOvercurrent i ia ib (-ia - ib)
  else
    let s := (s.takeStamp i p).refineHall i p
    let (th, om) := s.angles i p
    let (s, nu) := s.observe i p th om
    let s := ((s.checkOvercurrent i ia ib (-ia - ib)).watchLoss i om nu).checkLoss i
    let s := s.trackAlign i p
    let s := comp s
    let rq := if s.lawOn i then s.torqueRef i else 0
    let s := s.control i p th om (s.dRef i) rq
    if s.axes[i].energ == .init && s.angleInit i == 1 then
      (s.updAxis i fun a => { a with energ := .running, cur := { a.cur with angleValid := true } })
    else s

def execCurrentLoopRelease (i : Fin 512) (s : State) : Out :=
  s.main
    (match s.portOf i with
     | some p => if s.isServo i && s.ax P.axCurprog i == 0 && s.releases i 0 then (s.axisCycle fun s => s.currentRelease i p).checkpoint i 0 else s
     | none => s)

/-- A condition of R216 has held for `AX.LOSTIME`: raised unless a release has raised it already (R217). -/
def execLossOfSync (i : Fin 512) (s : State) : Out := s.main (if s.isServo i then s.checkLoss i else s)

/-! ### Energising (R190, R191, R195, R197, R555) -/

/-- What follows CAL: the precharge of a `BOOTSTRAP` port, then INIT at the next sample event. -/
def State.afterCal (s : State) (i : Fin 512) (p : Fin 64) : State :=
  s.updAxis i fun a => { a with energ := if s.bootstrap p then .precharge else .preInit }

/-- CAL starts, or is skipped under R191; this sample counts. -/
def State.startCal (s : State) (i : Fin 512) (p : Fin 64) : State :=
  let skip := s.isServo i && decide (s.axF P.axOffcalvel i < ratAbs (s.omegaE i (s.recVel p)))
  let s := s.updAxis i fun a =>
    { a with
      energ := .calibrate
      cur := { a.cur.rest with
        offsetSkipped := skip, lateCnt := 0, calA := 0, calB := 0, calN := 0, angleCoarse := false, alignStep := 0
        angleValid := s.angleInit i == 0 && s.isServo i }
      step := { a.step with o1 := 0, o2 := 0, catching := none, caught := none, open1 := 0, open2 := 0 } }
  if skip then s.afterCal i p else s

/-- A sample of CAL (R190). -/
def State.calSample (s : State) (i : Fin 512) (p : Fin 64) : State :=
  s.updCur i fun c =>
    if c.calN < 1024 then
      { c with calA := c.calA + (s.recWord p 0x0A0).toNat, calB := c.calB + (s.recWord p 0x0A4).toNat, calN := c.calN + 1 }
    else c

/-- End energising after a failure (R190, R195, R197). -/
def State.failEnergise (s : State) (i : Fin 512) (code detail : Nat) : State :=
  (s.raiseAxis i code 4 detail).endEnable i .aborted 0

/-- The Hall code of the axis, as the unit reads it. -/
def State.hallCode? (s : State) (p : Fin 64) : Nat := (s.fb[p]).hall

/-- INIT starts (Table 6.4, R195, R197, R326, R337); a user program has no INIT of the spec's. -/
def State.startInit (s : State) (i : Fin 512) (p : Fin 64) : State :=
  if s.ax P.axCurprog i ≠ 0 then s.updAxis i fun a => { a with energ := .running }
  else if s.isStep i then
    if s.openLoop i then
      s.updAxis i fun a =>
        { a with energ := .init, step := { a.step with catching := some false, samples := [], catchT0 := s.now, caught := none } }
    else
      let n := 4 * s.ax P.axMicrostep i
      s.updAxis i fun a => { a with energ := .init, step := { a.step with initAngle := turnAngle 1 (s.recPos p) n } }
  else
    match s.angleInit i with
    | 1 =>
      let h := s.hallCode? p
      if h = 0 ∨ h = 7 then s.failEnergise i 0x0306 1
      else
        let om := s.omegaE i (s.recVel p)
        let w := if s.ax P.axAnglesrc i = 1 then s.hallCentre i h else s.hallCentre i h - s.baseAngle i p om
        s.updAxis i fun a =>
          { a with
            energ := .init
            cur := { a.cur with
              thetaW := fp32 (wrapAngle w), angleCoarse := true, theta := s.hallCentre i h
              hallMark := match (s.fb[p]).hallEdge with | some e => e.1 | none => -1 } }
    | 2 =>
      s.updAxis i fun a =>
        { a with energ := .init, cur := { a.cur with alignStep := 1, alignT0 := s.now, alignVolt := false, alignLo := none } }
    | _ => s.updAxis i fun a => { a with energ := .running, cur := { a.cur with angleValid := true } }

/-- Energising follows the sample events of the port (R555). -/
def State.energiseSample (s : State) (i : Fin 512) (p : Fin 64) : State :=
  if s.axes[i].st ≠ .ready then s
  else
    match s.axes[i].energ with
    | .start =>
      let s := s.startCal i p
      if s.axes[i].energ = .calibrate then s.calSample i p else s
    | .calibrate => s.calSample i p
    | .preInit => s.startInit i p
    | _ => s

/-- Sample event (R187, R226): the port decimates the windows of its four data lines (R186) and writes its sample record. -/
def execSampleEvent (p : Fin 64) (w0 w1 w2 w3 : BitVec 192) (s : State) : Out :=
  s.main
    (let s := (s.sampleEvent p (#v[w0, w1, w2, w3].map fun w => w32 (s.decimate p w.toNat))).strobe 3 p.val
     match s.axisOf p with
     | some i => s.energiseSample i p
     | none => s)

/-- The means of the 1,024 samples of CAL become the offsets, or `CUR_OFFSET` ends the energising (R190). -/
def execOffsetCalComplete (i : Fin 512) (s : State) : Out :=
  s.main
    (match s.portOf i with
     | none => s
     | some p =>
       let c := s.axes[i].cur
       if s.axes[i].energ ≠ .calibrate ∨ c.calN < 1024 then s
       else
         let n : Rat := ((s.pt P.ptSdosr p ^ 3 : Nat) : Rat)
         let mean (x : Nat) : Rat := fp32 (s.axF P.axIscale i * ((x : Rat) / 1024 / n - mkRat 1 2))
         let a := mean c.calA
         let b := mean c.calB
         let m := s.axF P.axIoffmax i
         if m < ratAbs a ∨ m < ratAbs b then s.failEnergise i 0x0301 0
         else (s.updCur i fun c => { c with ioffA := a, ioffB := b }).afterCal i p)

/-- The precharge of R233 ends; INIT starts at the next sample event (R555). -/
def execBootstrapPrechargeEnd (i : Fin 512) (s : State) : Out :=
  s.main (if s.axes[i].energ = .precharge then s.updAxis i fun a => { a with energ := .preInit } else s)

/-- An alignment step ends (R197): step 2 follows step 1; at the end of step 2 θ_w is set and the checks run. -/
def State.alignEnd (s : State) (i : Fin 512) (p : Fin 64) : State :=
  let c := s.axes[i].cur
  let x := ofPos64 (s.recPos p)
  match c.alignStep with
  | 1 => s.updCur i fun c => { c with alignStep := 2, alignT0 := s.now, alignP0 := x, alignLo := none }
  | 2 =>
    let om := s.omegaE i (s.recVel p)
    let w := fp32 (wrapAngle (-(s.baseAngle i p om)))
    let s := s.updCur i fun c => { c with alignStep := 0, thetaW := w }
    let turned := if s.crev i = 0 then 0 else ratAbs (x - c.alignP0) * 360 * (s.ax P.axPolepairs i : Rat) / (s.crev i : Rat)
    let span := match c.alignLo with | some l => ratMax c.alignHi x - ratMin l x | none => 0
    if turned < 45 then s.failEnergise i 0x0305 1
    else if (s.ax P.axAlignsettle i : Rat) < span then s.failEnergise i 0x0305 2
    else if c.alignVolt then s.failEnergise i 0x0305 3
    else s.updAxis i fun a => { a with energ := .running, cur := { a.cur with angleValid := true } }
  | _ => s

def execAlignStepEnd (i : Fin 512) (s : State) : Out :=
  s.main
    (match s.portOf i with
     | some p => if s.axes[i].energ = .init then s.alignEnd i p else s
     | none => s)

end Sys2Proof.Machine
end

