-- ==== Sys2Proof/Machine/Stepper.lean ====
section
/-!
DEFINITION. Program 0x0002 (R326 to R338): winding currents, the chopper set, catching, the load indicator and stall; and the
chopper of a `STEP2` port (R329).
-/
namespace Sys2Proof.Machine

/-! ### References (R326, R327) -/

/-- 4n, the counts of one electrical turn (R325). -/
def State.stepTurn (s : State) (i : Fin 512) : Nat := 4 * s.ax P.axMicrostep i

/-- arcsine of a value in [−1, 1]. -/
def arcsin (x : Rat) : Rat := Config.atan2 x (ratSqrt (1 - x * x))

/-- I (R327). -/
def State.stepCurrent (s : State) (i : Fin 512) : Rat :=
  if s.axes[i].st == .enabledIdle && s.ax P.axHoldmode i == 1 then s.axF P.axStepihold i else s.axF P.axStepirun i

/-- θ of a release at sample count `j` (R326, R337). -/
def State.stepAngle (s : State) (i : Fin 512) (p : Fin 64) (j : Nat) : Rat :=
  let c := s.axes[i].cur
  let n := s.stepTurn i
  let whole (x : Rat) : Rat := turnAngle 1 (x.floor * 65536) n
  if s.openLoop i then
    (if s.lawOn i then
      let d : Rat := (signed 16 (j + 65536 - c.takeAt) : Int)
      whole (ofPos64 c.pRef + c.vRef * d * s.tcS i)
     else whole (ofPos64 s.axes[i].prof.cmdPos))
  else if s.axes[i].energ == .init then s.axes[i].step.initAngle
  else
    let r := s.torqueRef i
    let phi := if s.lawOn i then arcsin (ratClamp (-1) 1 (r / s.stepCurrent i)) else 0
    turnAngle 1 (s.recPos p) n + c.thetaW + phi

/-! ### Chopper set (R332) -/

/-- A threshold in fast-filter units (R332). -/
def State.chopUnits (s : State) (i : Fin 512) (x ioff : Rat) : Int :=
  let m : Rat := ((s.ax P.axChoposr i ^ 3 : Nat) : Rat)
  roundAway ((x + ioff) / s.axF P.axIscale i * m)

/-- The word of a winding's thresholds around i_ref + o. -/
def State.chopWord (s : State) (i : Fin 512) (iref o ioff : Rat) : Word :=
  let h := s.axF P.axChophyst i
  if ratAbs iref < h / 2 then 0
  else
    let d := ratSign iref
    let c := iref + o
    let up := s.chopUnits i (c + d * h / 2) ioff
    let lo := s.chopUnits i (c - d * h / 2) ioff
    BitVec.ofNat 32 (unsigned 16 up + unsigned 16 lo * 65536)

/-- `CHOP_CTL`: decay, off bits, fast part. -/
def State.chopCtlWord (s : State) (i : Fin 512) (off : Bool) : Word :=
  let d := s.ax P.axChopdecay i
  BitVec.ofNat 32 (d + 4 * d + (if off then 0x30 else 0) + 256 * s.ax P.axChopfast i)

/-- Store a chopper set and the legs that arm it, every leg in `MODE` 0b00. -/
def State.storeChop (s : State) (p : Fin 64) (w1 w2 ctl : Word) : State :=
  (s.slotStore p 0x10 [w1, w2, ctl]).slotStore p 0 [0, 0, 0, 0]

/-- The adaptive offset of a winding (R332). -/
def State.adapt (s : State) (i : Fin 512) (o iref imeas : Rat) (dOld : Int) : Rat :=
  let h := s.axF P.axChophyst i
  let d : Int := if iref < 0 then -1 else 1
  if s.axF P.axStepirun i / 10 ≤ ratAbs iref ∧ d = dOld then
    fp32 (ratClamp (-h) h (o + s.axF P.axChopadapt i * s.tcS i * (iref - imeas)))
  else o

/-! ### Load indicator, open windings, catch samples -/

/-- Back-EMF of a winding (R338): mean voltage of its legs X and Y, present and previous current. -/
def State.backEmf (s : State) (i : Fin 512) (p : Fin 64) (w : Nat) (iw prev : Rat) : Rat :=
  let on (k : Nat) : Rat := ((s.recWord p (0x0C8 + 4 * k)).toNat : Rat)
  let taps := 32 * s.tc i * mkRat 2 5
  let v := if taps = 0 then 0 else s.vdc i p * (on (2 * w) - on (2 * w + 1)) / taps
  v - s.axF P.axSteprw i * (iw + prev) / 2 - s.axF P.axSteplw i * (iw - prev) / s.tcS i

/-- The winding stayed in `DRIVE` for the whole interval (R333). -/
def State.droveAll (s : State) (i : Fin 512) (p : Fin 64) (w : Nat) : Bool :=
  let on (k : Nat) : Rat := ((s.recWord p (0x0C8 + 4 * k)).toNat : Rat)
  let taps := 32 * s.tc i * mkRat 2 5
  (decide (taps ≤ on (2 * w)) && on (2 * w + 1) == 0) || (decide (taps ≤ on (2 * w + 1)) && on (2 * w) == 0)

/-- The condition of `WINDING_OPEN` at one release (R333). -/
def State.openNow (s : State) (i : Fin 512) (p : Fin 64) (w : Nat) (iref iw : Rat) : Bool :=
  s.droveAll i p w && decide (s.axF P.axStepirun i / 5 ≤ ratAbs iref) && decide (ratAbs iw < ratAbs iref / 10)

/-- The load indicator and the stall conditions (R338). -/
def State.loadCheck (s : State) (i : Fin 512) (p : Fin 64) (i1 i2 cur : Rat) : State :=
  let x := s.axes[i].step
  let e1 := s.backEmf i p 0 i1 x.i1
  let e2 := s.backEmf i p 1 i2 x.i2
  let em := ratSqrt (e1 * e1 + e2 * e2)
  let im := ratSqrt (i1 * i1 + i2 * i2)
  let raw := if em = 0 ∨ im = 0 then 0 else (e1 * i1 + e2 * i2) / (em * im)
  let li := fp32 (x.load + (1 - Config.exp (-(s.tcS i * 1000))) * (raw - x.load))
  let v := s.axes[i].cur.vRef
  let valid := decide (s.axVel P.axStallminvel i ≤ ratAbs v) && decide (s.axF P.axStepirun i / 5 ≤ cur)
  let n : Rat := (s.stepTurn i : Rat)
  let low := valid && decide (em < s.axF P.axStepke i * ratAbs (2 * Config.pi * v / n) / 2)
  let high := valid && decide (s.axF P.axStallthr i ≤ li)
  s.updStep i fun x =>
    { x with
      load := li, loadValid := valid, stalled := high || low, stallLi := s.heldSince high x.stallLi
      stallEmf := s.heldSince low x.stallEmf }

/-- No load indicator is formed (R338). -/
def Stepper.noLoad (x : Stepper) : Stepper := { x with loadValid := false, stalled := false, stallLi := none, stallEmf := none }

/-- A sample of a running catch (R335): e of the shorted windings. -/
def State.catchSample (s : State) (i : Fin 512) (p : Fin 64) (i1 i2 : Rat) : State :=
  let x := s.axes[i].step
  let e (iw prev : Rat) : Rat := s.axF P.axSteprw i * iw + s.axF P.axSteplw i * (iw - prev) / s.tcS i
  let sat := s.recStuck p 0 || s.recStuck p 1
  s.updStep i fun y => { y with samples := (e i1 x.i1, e i2 x.i2, sat, (s.recPair p 0x080 : Rat) / 1000000000) :: y.samples }

/-! ### The release -/

/-- Both windings carry no reference: `ZERO` for a catch, `OFF` while coasting (R334, R335). -/
def State.stepIdle (s : State) (i : Fin 512) (p : Fin 64) (off : Bool) : State := s.storeChop p 0 0 (s.chopCtlWord i off)

/-- The windings driven at a release (R326, R332, R333, R338). -/
def State.stepDrive (s : State) (i : Fin 512) (p : Fin 64) (j : Nat) (i1 i2 : Rat) : State :=
  let cur := s.stepCurrent i
  let th := s.stepAngle i p j
  let r1 := fp32 (cur * Config.cos th)
  let r2 := fp32 (cur * Config.sin th)
  let x := s.axes[i].step
  let c := s.axes[i].cur
  let s := s.loadCheck i p i1 i2 cur
  let s := s.storeChop p (s.chopWord i r1 x.o1 c.ioffA) (s.chopWord i r2 x.o2 c.ioffB) (s.chopCtlWord i false)
  s.updStep i fun y =>
    { y with
      o1 := s.adapt i x.o1 r1 i1 x.d1, o2 := s.adapt i x.o2 r2 i2 x.d2
      d1 := if r1 < 0 then -1 else 1, d2 := if r2 < 0 then -1 else 1
      open1 := if s.openNow i p 0 r1 i1 then satInc 16 y.open1 else 0
      open2 := if s.openNow i p 1 r2 i2 then satInc 16 y.open2 else 0 }

/-- The axis coasts while `AX.HOLDMODE` is 2 in `ENABLED_IDLE`, and until a start command that waits is taken over (R334, R335). -/
def State.coastNow (s : State) (i : Fin 512) : Bool :=
  let a := s.axes[i]
  if a.st == .enabledIdle then s.ax P.axHoldmode i == 2
  else a.step.coasting && (a.st == .moving || a.st == .homing)

/-- A release of program 0x0002. -/
def State.stepRelease (s : State) (i : Fin 512) (p : Fin 64) : State :=
  let s := s.updAxis i fun a => { a with curOld := a.cur }
  let j := s.sampleCount p
  let s := ((s.countStuck i p).checkStuck i).readCurRef i j
  let i1 := s.recAmps i p 0
  let i2 := s.recAmps i p 1
  let s := s.updAxis i fun a =>
    { a with
      cur := { a.cur with smp := j, restored := false }
      step := { a.step with
        coasting := s.coastNow i, holdReduced := a.st == .enabledIdle && s.ax P.axHoldmode i == 1
        refresh := (s.recWord p 0x09C).getLsbD 4 } }
  let s := s.checkOvercurrent i i1 i2 0
  let s := if s.openLoop i then s else s.compensate i (ofPos64 (s.recPos p)) (s.recVel p) 0
  let s :=
    if !s.drives i then s.updAxis i fun a => { a with cur := a.cur.rest, step := a.step.noLoad }
    else if s.axes[i].step.catching.isSome then ((s.catchSample i p i1 i2).updStep i Stepper.noLoad).stepIdle i p false
    else if s.axes[i].step.coasting then
      (s.updStep i Stepper.noLoad).stepIdle i p true
    else s.stepDrive i p j i1 i2
  s.updStep i fun x => { x with i1 := i1, i2 := i2 }

def execStepperCurrentRelease (i : Fin 512) (s : State) : Out :=
  s.main
    (match s.portOf i with
     | some p => if s.isStep i && s.ax P.axCurprog i == 0 && s.releases i 0 then (s.axisCycle fun s => s.stepRelease i p).checkpoint i 0 else s
     | none => s)

/-- The open-winding condition has held for 10 releases (R333). -/
def execWindingOpen (i : Fin 512) (s : State) : Out :=
  s.main
    (let x := s.axes[i].step
     if !s.isStep i then s
     else if 10 ≤ x.open1 then s.raiseAxis i 0x0504 4 1
     else if 10 ≤ x.open2 then s.raiseAxis i 0x0504 4 2
     else s)

/-! ### Stall (R338, R346) -/

/-- Stall homing runs its `STALL` phase. -/
def State.stallHoming (s : State) (i : Fin 512) : Bool := s.axes[i].st == .homing && s.axes[i].home.phase == .stall

/-- A stall condition has held for `AX.STALLTIME`, on a servo axis for `AX.HOMESTALLT`: the phase of stall homing ends, otherwise
`STALL` is raised. -/
def State.stallTimer (s : State) (i : Fin 512) : State :=
  if s.isStep i then
    let x := s.axes[i].step
    if !(s.heldFor x.stallLi (s.ax P.axStalltime i) || s.heldFor x.stallEmf (s.ax P.axStalltime i)) then s
    else if s.stallHoming i then s.updHome i fun h => { h with stall := true }
    else
      let s := s.raiseAxis i 0x0501 (s.ax P.axStallclass i)
      if s.openLoop i then s.updHome i fun h => { h with referenced := false } else s
  else if s.isServo i && s.stallHoming i && s.heldFor s.axes[i].pos.satStill (s.ax P.axHomestallt i) then
    s.updHome i fun h => { h with stall := true }
  else s

def execStallTimer (i : Fin 512) (s : State) : Out := s.main (s.stallTimer i)

/-- INIT of a stepper with an encoder ends: θ_w such that θ_k equals the angle it applied (R326). -/
def execStepInitEnd (i : Fin 512) (s : State) : Out :=
  s.main
    (match s.portOf i with
     | none => s
     | some p =>
       if s.isStep i && !s.openLoop i && s.axes[i].energ == .init then
         s.updAxis i fun a =>
           { a with
             energ := .running
             cur := { a.cur with
               angleValid := true
               thetaW := fp32 (wrapAngle (a.step.initAngle - turnAngle 1 (s.recPos p) (s.stepTurn i))) } }
       else s)

/-! ### The end of a catch (R335 to R337) -/

/-- Angles of the back-EMF with their times, oldest first, unwrapped. -/
def unwrapFrom (last : Rat) : List (Rat × Rat) → List (Rat × Rat)
  | [] => []
  | (t, a) :: rest => let u := last + wrapAngle (a - last); (t, u) :: unwrapFrom u rest

def unwrap : List (Rat × Rat) → List (Rat × Rat)
  | [] => []
  | (t, a) :: rest => (t, a) :: unwrapFrom a rest

def sumOf (l : List Rat) : Rat := l.foldl (· + ·) 0

/-- Least-squares line through points: slope, value at time `t`, and rms residual. -/
def fitLine (l : List (Rat × Rat)) (t : Rat) : Rat × Rat × Rat :=
  let n : Rat := (l.length : Rat)
  if l.isEmpty then (0, 0, 0)
  else
    let mt := sumOf (l.map (·.1)) / n
    let ma := sumOf (l.map (·.2)) / n
    let sxx := sumOf (l.map fun q => (q.1 - mt) * (q.1 - mt))
    let sxy := sumOf (l.map fun q => (q.1 - mt) * (q.2 - ma))
    let k := if sxx = 0 then 0 else sxy / sxx
    let res := sumOf (l.map fun q => let d := q.2 - ma - k * (q.1 - mt); d * d)
    (k, ma + k * (t - mt), ratSqrt (res / n))

/-- Outcome of a catch. -/
inductive Catch where
  | standstill
  /-- ω_e and θ_e at the end of the window -/
  | motion (w th : Rat)
  | invalid (detail : Nat)

/-- The estimate of R335 at the end of the window. -/
def State.judgeCatch (s : State) (i : Fin 512) : Catch :=
  let x := s.axes[i].step
  let l := x.samples.reverse
  let emin := s.axF P.axCatchemin i
  let big (q : Rat × Rat × Bool × Rat) : Bool := decide (emin * emin ≤ q.1 * q.1 + q.2.1 * q.2.1)
  let t0 : Rat := (x.catchT0 : Rat) / 1000000000
  let lead : Rat := (s.ax P.axCatchtime i : Rat) / 10000000000
  let late := l.filter fun q => decide (t0 + lead ≤ q.2.2.2)
  let fit := fitLine (unwrap (late.map fun q => (q.2.2.2, Config.atan2 q.2.1 q.1))) (s.nowRat / 1000000000)
  let vc := fit.1 * (s.stepTurn i : Rat) / (2 * Config.pi)
  let fast := decide (s.axVel P.axCatchvmax i < ratAbs vc)
  if l.all fun q => !big q then .standstill
  else if late.all big && !late.isEmpty && decide (fit.2.2 ≤ mkRat 1 5) && !fast then .motion fit.1 fit.2.1
  else if l.any fun q => q.2.2.1 then .invalid 0x0101
  else if fast then .invalid 0x0102
  else .invalid 0x0103

/-- The count whose angle is nearest `th`, nearest to the frozen commanded position (R336). -/
def nearestCount (turn : Nat) (frozen th : Rat) : Rat :=
  if turn = 0 then frozen
  else
    let n : Rat := (turn : Rat)
    let r : Rat := ((roundAway (th * n / (2 * Config.pi))) : Int)
    r + n * ((roundAway ((frozen - r) / n) : Int) : Rat)

/-- The catch window ends (R335 to R337). -/
def State.catchEnd (s : State) (i : Fin 512) : State :=
  let forStart := s.axes[i].step.catching == some true
  let r := s.judgeCatch i
  let s0 := s.updStep i fun x => { x with catching := none, samples := [], catchT0 := s.now }
  let frozen := ofPos64 s.axes[i].prof.cmdPos
  let valid (b : Bool) (s : State) : State := s.updStep i fun x => { x with catchValid := b }
  if !forStart then
    let s := s0.updAxis i fun a => { a with energ := .running }
    match r with
    | .standstill => valid true s
    | .motion _ _ => ((valid true s).setParam P.axHoldmode i.val 0 2).updStep i fun x => { x with coasting := true }
    | .invalid _ => ((valid false s).setParam P.axHoldmode i.val 0 2).updStep i fun x => { x with coasting := true }
  else
    match r with
    | .standstill => (valid true s0).updStep i fun x => { x with caught := some (frozen, 0) }
    | .motion w th =>
      let q := nearestCount (s.stepTurn i) frozen (th - ratSign w * Config.pi / 2)
      let v := w * (s.stepTurn i : Rat) / (2 * Config.pi)
      ((valid true s0).updStep i fun x => { x with caught := some (q, v) }).updHome i fun h => { h with referenced := false }
    | .invalid d =>
      let s := s0.endMotion i .spinning d
      ((valid false s).motionIdle i).setParam P.axHoldmode i.val 0 2 |>.updStep i fun x => { x with coasting := true }

def execCatchWindowEnd (i : Fin 512) (s : State) : Out :=
  s.main (if s.axes[i].step.catching.isSome then s.catchEnd i else s)

/-! ### Chopper states of a port (Table 10.9) -/

/-- The parameters of the chopper are those of the axis bound to the port. -/
def State.chopParam (s : State) (p : Fin 64) (d : PDef) : Nat :=
  match s.axisOf p with
  | some i => s.ax d i
  | none => d.dfltAt d.idx

/-- Enter `DECAY` (Table 10.9): slow, fast, or mixed, which begins fast. -/
def State.chopDecay (s : State) (p : Fin 64) (w : Nat) (c : Chop) : Chop :=
  let kind := chopCtl (s.ports[p]).inForce / 4 ^ w % 4
  { c with st := if kind = 0 then .decaySlow else .decayFast, offDone := false }

/-- q of a winding from the window of 3M modulator bits that its fast filter holds (R328), `M` the ratio `AX.CHOPOSR`. -/
def State.fastFilter (s : State) (p : Fin 64) (win : BitVec 96) : Int :=
  let m := s.chopParam p P.axChoposr
  (sinc3 m (s.pt P.ptSdedge p) win.toNat : Int) - ((m ^ 3 / 2 : Nat) : Int)

/-- The fast-filter current `q` of a winding crosses a threshold (Table 10.9). -/
def State.chopCross (s : State) (p : Fin 64) (w : Nat) (q : Int) : State :=
  let v := (s.ports[p]).inForce
  let c := (s.ports[p]).chop w
  let d : Int := if c.neg then -1 else 1
  let c' := match c.st with
    | .drive =>
      if d * chopUp v w ≤ d * q ∧ c.at_ + s.chopParam p P.axChopblank ≤ s.ticks then s.chopDecay p w c else c
    | .decayFast | .decaySlow =>
      if c.offDone ∧ d * q ≤ d * chopLo v w then { c with st := .drive, at_ := s.ticks, offDone := false }
      else if c.st = .decayFast ∧ d * q ≤ 0 then { c with st := .decaySlow }
      else c
    | _ => c
  (s.updPort p fun x => x.setChop w c').portEval p

def execChopperThresholdCross (p : Fin 64) (w : Fin 2) (win : BitVec 96) (s : State) : Out :=
  s.main (s.chopCross p w.val (s.fastFilter p win))

/-- The fast part of a mixed decay ends, or `AX.CHOPTOFF` has elapsed (Table 10.9). -/
def State.chopExpiry (s : State) (p : Fin 64) (w : Nat) (fastPart : Bool) (q : Int) : State :=
  let v := (s.ports[p]).inForce
  let c := (s.ports[p]).chop w
  let d : Int := if c.neg then -1 else 1
  let c' := match c.st with
    | .decayFast | .decaySlow =>
      if fastPart then (if chopCtl v / 4 ^ w % 4 = 2 then { c with st := .decaySlow } else c)
      else if d * q ≤ d * chopLo v w then { c with st := .drive, at_ := s.ticks, offDone := false }
      else { c with offDone := true }
    | _ => c
  (s.updPort p fun x => x.setChop w c').portEval p

def execChopperOffTimeExpiry (p : Fin 64) (w : Fin 2) (fastPart : Bool) (win : BitVec 96) (s : State) : Out :=
  s.main (s.chopExpiry p w.val fastPart (s.fastFilter p win))

end Sys2Proof.Machine
end

