-- ==== Sys2Proof/Machine/Position.lean ====
section
/-!
DEFINITION. Program 0x0003 (R282 to R292), the group law (R294 to R296) and Byway's supervision of a position release (R302 to
R306).
-/
namespace Sys2Proof.Machine

/-! ### What both laws share -/

/-- T_p in seconds. -/
def State.tpS (s : State) (i : Fin 512) : Rat := s.tp i / 1000000000

/-- δ in seconds (R282). -/
def State.deltaS (s : State) (i : Fin 512) : Rat := (s.axes[i].pos.m : Rat) * s.tcS i

/-- t_k in ns: the extremum of the record. -/
def State.extTime (s : State) (p : Fin 64) : Rat := (s.recPair p 0x080 : Nat)

/-- The position law runs: the axis is enabled and no brake test drives it (Table 9.3, Table 12.7). -/
def State.posLaw (s : State) (i : Fin 512) : Bool := s.lawOn i && (s.brakeCurrent i).isNone

/-- The position task reads the setpoint mailbox (R22, R292): stale reads are counted, and a mailbox that stays overdue raises
`SETPOINT_STALE`. -/
def State.readSetpoint (s : State) (i : Fin 512) : State :=
  let r := s.setpoint i
  let x := s.axes[i].pos
  let fresh := r.seq != x.mboxSeq
  let s := s.updPos i fun x =>
    { x with
      tSet := r.tSet, pSet := r.p, vSet := r.v, aSet := r.a, noSource := r.noSource, mboxSeq := r.seq
      staleCnt := if fresh then x.staleCnt else satInc 16 x.staleCnt
      spSince := if fresh then s.now else x.spSince }
  let late := s.overdue i s.axes[i].pos.spSince (s.spPeriod i : Rat)
  let s := s.judgeStale i x.staleSp late 1
  s.updPos i fun x => { x with staleSp := late }

/-- Position, velocity and acceleration of the setpoint at an instant in ns (R285, Table 9.3): the commanded position is held in
`ENABLED_IDLE`. -/
def State.reference (s : State) (i : Fin 512) (t : Rat) : Rat × Rat × Rat :=
  let x := s.axes[i].pos
  if s.axes[i].st == .enabledIdle && s.axes[i].prof.source != .net then (ofPos64 s.axes[i].prof.cmdPos, 0, 0)
  else
    let r := extrapolate x.tSet (ofPos64 x.pSet) (ofVel64 x.vSet) (ofVel64 x.aSet) t
    (r.1, r.2, ofVel64 x.aSet)

/-- The thermal state of R289 step 2; `I2T_LIMIT` when derating begins. -/
def State.thermal (s : State) (i : Fin 512) : State :=
  let x := s.axes[i].pos
  let q := x.u1 / s.axF P.axIrated i
  let th := fp32 (x.theta + s.tpS i / s.axF P.axI2ttau i * (q * q - x.theta))
  let on := decide (1 ≤ th) || (x.i2t && !decide (th < mkRat 95 100))
  let s := s.updPos i fun x => { x with theta := th, i2t := on }
  if on && !x.i2t then s.raiseAxis i 0x0407 1 else s

/-- The limits L⁺ and L⁻ of R289 and R346, and whether the braking side is scaled; on an axis that a `NET` axis elsewhere names (R443)
at most those of its record (DEDUCED, log 111). -/
def State.limits (s : State) (i : Fin 512) : Rat × Rat × Bool :=
  let x := s.axes[i].pos
  let r := s.axF P.axIrated i
  let d (l : Rat) := if x.i2t then ratMin l r else l
  let sv := s.axF P.axStandvel i
  let regen := s.axisRegen i
  let k := s.regenFactor i
  let brakeNeg := regen && decide (sv < x.vHat)
  let brakePos := regen && decide (x.vHat < -sv)
  let h (l : Rat) := if s.isServo i && s.stallHoming i then ratMin l (s.axF P.axHomestallcur i) else l
  let owned := s.net.owned.contains i.val && s.axes[i].net.owned.isSome
  let o (w : Nat) (l : Rat) := if owned then ratMin l (fpToRat (BitVec.ofNat 32 w)) else l
  (o s.axes[i].net.ownLim.1 (h (if brakePos then k * d (s.axF P.axIlimpos i) else d (s.axF P.axIlimpos i))),
   o s.axes[i].net.ownLim.2 (h (if brakeNeg then k * d (s.axF P.axIlimneg i) else d (s.axF P.axIlimneg i))), brakeNeg || brakePos)

/-- s is held by the axis state (Table 9.3). -/
def State.stateHolds (s : State) (i : Fin 512) : Bool :=
  match s.axes[i].st with
  | .enabledIdle => false
  | .moving => s.ax P.axIntmove i != 1
  | _ => true

/-- `S_HOLD` (R290) for the error `e`. -/
def State.sHold (s : State) (i : Fin 512) (e : Rat) : Bool :=
  let x := s.axes[i].pos
  s.stateHolds i || (x.sat && decide (0 < e * x.satDir)) || s.axes[i].cur.intHold

/-- Publish u and its limits for the release δ after t_k (R282), and keep what the next release needs. -/
def State.publishU (s : State) (i : Fin 512) (p : Fin 64) (raw u lp ln vRef : Rat) (pRef : Int) (regen : Bool) : State :=
  let sat := u != raw
  let x := s.axes[i].pos
  let s := s.publishCur i u lp ln vRef pRef (s.sampleCount p + x.m) false
  let s := s.flagFault i x.sat sat x.satAt 0x0406 0
  s.updPos i fun x =>
    { x with
      u2 := x.u1, u1 := u, lPos := lp, lNeg := ln, sat := sat, satDir := if sat then ratSign raw else 0, regen := regen
      satAt := if sat then some s.now else x.satAt }

/-- The law is off (Table 9.3): `LAW_OFF`, u = 0, s = 0, and p_r follows the actual position; the limits are formed at every release
(R289). -/
def State.publishOff (s : State) (i : Fin 512) (p : Fin 64) (pRef : Int) : State :=
  let (lp, ln, regen) := s.limits i
  let s := s.publishCur i 0 lp ln 0 pRef (s.sampleCount p + s.axes[i].pos.m) true
  s.updPos i fun x =>
    { x with u2 := 0, u1 := 0, lPos := lp, lNeg := ln, s := 0, sat := false, satDir := 0, regen := regen, intHold := false, pRef := pRef, err := 0 }

/-! ### Supervision (R302 to R306) -/

/-- The following-error check of R302 and the drift check of R304. -/
def State.superviseFe (s : State) (i : Fin 512) (e : Rat) : State :=
  let checked := s.lawOn i && !(s.isServo i && s.stallHoming i)
  let x := s.axes[i].pos
  let warn : Rat := s.ax P.axFewarn i
  let lim : Rat := s.ax P.axFelim i
  let hold : Rat := s.ax P.axHoldwin i
  let m := ratAbs e
  let w := checked && warn != 0 && decide (warn < m)
  let s := s.flagFault i x.feWarn w x.warnAt 0x0402 1
  let s := s.updPos i fun x => { x with err := fp32 e, feWarn := w, warnAt := if w then some s.now else x.warnAt }
  let s := if checked && lim != 0 && decide (lim < m) then s.raiseAxis i 0x0401 (s.ax P.axFeclass i) else s
  if s.axes[i].st == .enabledIdle && s.axes[i].prof.source != .net && hold != 0 && decide (hold < m) then s.raiseAxis i 0x0404 (s.ax P.axHoldclass i) else s

/-- Byway's supervision at a position release of a local axis, whatever its program. -/
def State.supervise (s : State) (i : Fin 512) (e v p : Rat) : State :=
  let miss := s.axes[i].cur.tblMissed
  let s := s.updAxis i fun a => { a with pos := { a.pos with tblMiss := miss }, cur := { a.cur with tblMissed := false } }
  let still := s.axes[i].pos.sat && decide (ratAbs v ≤ s.axF P.axStandvel i)
  let s := s.updPos i fun x => { x with satStill := s.heldSince still x.satStill }
  (((s.keepStand i).superviseFe i e).superviseSpeed i v).superviseSw i p

/-! ### Program 0x0003 -/

/-- The observer (R284). With the law off it runs with u = 0. -/
def State.posObserve (s : State) (i : Fin 512) (p : Fin 64) (on : Bool) : State :=
  let x := s.axes[i].pos
  let k := s.axes[i].coef
  let t := s.tpS i
  let d := s.deltaS i
  let ka := fpVal k.kacc
  let u1 := if on then x.u1 else 0
  let u2 := if on then x.u2 else 0
  let z := Config.exp (-(2 * Config.pi * fpVal k.posobsbw * t))
  let b := 1 - z
  let l1 := 1 - z * z * z
  let l2 := (3 * b * b - mkRat 3 2 * b * b * b) / t
  let l3 := b * b * b / (t * t)
  let pb := ofPos64 x.pHat + t * x.vHat + t * t / 2 * x.aHat + ka * (u2 * (d * t - d * d / 2) + u1 * (t - d) * (t - d) / 2)
  let vb := x.vHat + t * x.aHat + ka * (u2 * d + u1 * (t - d))
  let nu := fp32 (ofPos64 (s.recPos p) - pb)
  let amax := mkRat 3 2 * ka * ratMax (s.axF P.axIlimpos i) (s.axF P.axIlimneg i)
  s.updPos i fun x =>
    { x with pHat := toPos64 (pb + l1 * nu), vHat := fp32 (vb + l2 * nu), aHat := fp32 (ratClamp (-amax) amax (x.aHat + l3 * nu)) }

/-- The law (R285, R289, R290). -/
def State.posControl (s : State) (i : Fin 512) (p : Fin 64) : State :=
  let x := s.axes[i].pos
  let k := s.axes[i].coef
  let t := s.tpS i
  let d := s.deltaS i
  let ka := fpVal k.kacc
  let om := 2 * Config.pi * fpVal k.posbw
  let ap := ka * x.u1 + x.aHat
  let pa := ofPos64 x.pHat + x.vHat * d + ap * d * d / 2
  let va := x.vHat + ap * d
  let r := s.reference i (s.extTime p + d * 1000000000)
  let e := fp32 (ofPos64 (toPos64 r.1) - pa)
  let hold := s.sHold i e
  let sI := if hold then x.s else fp32 (x.s + e * t)
  let acmd := fpVal k.aff * r.2.2 + 2 * om * (fpVal k.vff * r.2.1 - va) + om * om * e + fpVal k.posint * om * om * sI - x.aHat
  let (lp, ln, regen) := s.limits i
  let raw := fp32 (acmd / ka)
  let u := ratClamp (-ln) lp raw
  let s := s.updPos i fun x => { x with s := sI, intHold := hold, pRef := toPos64 (s.reference i (s.extTime p)).1 }
  s.publishU i p raw u lp ln r.2.1 (toPos64 r.1) regen

/-- An axis whose INIT has ended enters `ENABLED_IDLE` at this release: `q` becomes the commanded position, s and â start at 0
(R555, Table 9.3). -/
def State.enterIfReady (s : State) (i : Fin 512) (q : Int) : State :=
  if s.axes[i].st == .ready && s.axes[i].energ == .running && s.axes[i].enable.isSome then
    (s.updPos i fun x => { x with s := 0, aHat := 0, u1 := 0, u2 := 0 }).enterEnabled i q
  else s

/-- A release of program 0x0003 on an axis with feedback. -/
def State.posRelease (s : State) (i : Fin 512) (p : Fin 64) : State :=
  let s := s.updAxis i fun a => { a with posOld := a.pos }
  let s := (s.readSetpoint i).posObserve i p (s.posLaw i)
  let s := (s.enterIfReady i s.axes[i].pos.pHat).thermal i
  let s := if s.posLaw i then s.posControl i p else s.publishOff i p s.axes[i].pos.pHat
  let e := ofPos64 s.axes[i].pos.pRef - ofPos64 (s.recPos p)
  s.supervise i e s.axes[i].pos.vHat (ofPos64 s.axes[i].pos.pHat)

/-- A release on a stepper axis without an encoder (Table 9.2): p_ref is forwarded with `LAW_OFF`; p equals p_ref. -/
def State.openRelease (s : State) (i : Fin 512) (p : Fin 64) : State :=
  let s := (s.readSetpoint i).enterIfReady i s.axes[i].prof.cmdPos
  let r := if s.lawOn i then s.reference i (s.extTime p + s.deltaS i * 1000000000) else (ofPos64 s.axes[i].prof.cmdPos, 0, 0)
  let q := toPos64 r.1
  let s := s.publishCur i 0 (s.axF P.axIlimpos i) (s.axF P.axIlimneg i) r.2.1 q (s.sampleCount p + s.axes[i].pos.m) true
  let s := s.updPos i fun x => { x with pHat := q, vHat := fp32 r.2.1, pRef := q, err := 0 }
  s.supervise i 0 r.2.1 r.1

/-- Supervision of an axis under a user program: its actual position and velocity (Chapter 9, "Supervision"). -/
def State.userRelease (s : State) (i : Fin 512) (p : Fin 64) : State :=
  let s := s.readSetpoint i
  let s := s.updPos i fun x => { x with pHat := s.recPos p, vHat := fp32 (s.recVel p) }
  let s := s.enterIfReady i (s.recPos p)
  let r := if s.lawOn i then s.reference i (s.extTime p) else (ofPos64 (s.recPos p), 0, 0)
  let s := s.updPos i fun x => { x with pRef := toPos64 r.1 }
  s.supervise i (r.1 - ofPos64 (s.recPos p)) (s.recVel p) (ofPos64 (s.recPos p))

/-- A release of the position task of an axis. A member of a group has none of its own (R294). -/
def execPositionLoopRelease (i : Fin 512) (s : State) : Out :=
  s.main
    (match s.portOf i with
     | some p =>
       if !s.releases i 1 || s.ax P.axGroup i != 0 then s
       else
         let s := s.takeLate .ax i.val
         if s.ax P.axPosprog i != 0 then s.axisCycle fun s => s.userRelease i p
         else if s.openLoop i then (s.axisCycle fun s => s.openRelease i p).checkpoint i 1
         else (s.axisCycle fun s => s.posRelease i p).checkpoint i 1
     | none => s)

/-! ### Groups (R293 to R296) -/

/-- The axis leads its group (R293). -/
def State.leads (s : State) (i : Fin 512) : Bool := s.ax P.axGroup i != 0 && (s.groupMembers i).head? == some i

/-- A group table (Table 9.5). -/
structure GroupTable where
  n : Nat
  m : Nat
  nx : Nat
  bs : List Byte

def groupTable (bs : List Byte) : GroupTable := ⟨u8 bs 0, u8 bs 1, u8 bs 2, bs⟩

/-- Offset of matrix `k` in the order Φ, Γ, K, Ks, H. -/
def GroupTable.base (g : GroupTable) (k : Nat) : Nat :=
  let w := 3 * g.n + g.m
  16 + 12 * g.m + 4 * ([g.nx * g.nx, g.nx * w, g.n * g.nx, g.n * g.n, g.n * w].take k).sum

/-- An entry of a matrix with `cols` columns. -/
def GroupTable.entry (g : GroupTable) (k cols r c : Nat) : Rat := fpToRat (fp g.bs (g.base k + 4 * (r * cols + c)))

/-- Product of a matrix with a vector. -/
def GroupTable.mulVec (g : GroupTable) (k rows : Nat) (v : List Rat) : List Rat :=
  (List.range rows).map fun r => sumOf (v.zipIdx.map fun x => g.entry k v.length r x.2 * x.1)

def addVec (a b : List Rat) : List Rat := List.zipWith (· + ·) a b

/-- The tension errors tt_j (R295). -/
def State.tension (s : State) (l : Fin 512) (g : GroupTable) : List Rat :=
  (List.range g.m).map fun j =>
    let o := 16 + 12 * j
    let q : Fin 64 := ⟨u8 g.bs o % 64, Nat.mod_lt _ (by decide)⟩
    let ref := fpVal (s.ax P.axTensref l / 256 ^ (4 * j) % 2 ^ 32)
    fp32 (fpToRat (fp g.bs (o + 4)) * s.recY q (u8 g.bs (o + 1)) - fpToRat (fp g.bs (o + 8)) - ref)

/-- Error of a member against its own setpoint at t_k, and its reference (R295). -/
def State.memberError (s : State) (j : Fin 512) : Rat :=
  match s.portOf j with
  | some p => fp32 (ofPos64 (toPos64 (s.reference j (s.extTime p)).1) - ofPos64 (s.recPos p))
  | none => 0

/-- One member publishes its u (R289, R295). -/
def State.publishMember (s : State) (j : Fin 512) (raw : Rat) : State :=
  match s.portOf j with
  | none => s
  | some p =>
    let r := s.reference j (s.extTime p)
    if s.posLaw j then
      (let (lp, ln, regen) := s.limits j
       let raw := fp32 raw
       (s.updPos j fun x => { x with pRef := toPos64 r.1 }).publishU j p raw (ratClamp (-ln) lp raw) lp ln r.2.1 (toPos64 r.1) regen)
    else s.publishOff j p (s.recPos p)

/-- The measured state of a member: its position and velocity take the place of the estimates. -/
def State.memberRead (s : State) (j : Fin 512) : State :=
  match s.portOf j with
  | none => s
  | some p =>
    let s := (s.readSetpoint j).updPos j fun x => { x with pHat := s.recPos p, vHat := fp32 (s.recVel p) }
    (s.enterIfReady j (s.recPos p)).thermal j

/-- A release of the group task (R295, R296). -/
def State.groupRelease (s : State) (l : Fin 512) : State :=
  let ms := s.groupMembers l
  let g := groupTable ((assocGet? s.tables.group l.val).getD [])
  let s := ms.foldl State.memberRead s
  let t := s.tpS l
  let on := ms.all s.posLaw
  let es := ms.map fun j => if s.posLaw j then s.memberError j else 0
  let w := es ++ s.tension l g ++ ms.map (fun j => s.axes[j].pos.u1)
    ++ ms.map (fun j => (s.reference j s.nowRat).2.2)
  let x := if on then (addVec (g.mulVec 0 g.nx (s.axes[l].pos.x ++ List.replicate (g.nx - s.axes[l].pos.x.length) 0)) (g.mulVec 1 g.nx w)).map fp32
           else List.replicate g.nx 0
  let s := s.updPos l fun y => { y with x := x }
  let s := (ms.zip es).foldl (fun s je =>
    let hold := s.sHold je.1 je.2
    s.updPos je.1 fun y =>
      { y with s := if !on then 0 else if hold then y.s else fp32 (y.s + je.2 * t), intHold := on && hold }) s
  let sv := ms.map fun j => s.axes[j].pos.s
  let u := addVec (addVec (g.mulVec 2 g.n x) (g.mulVec 3 g.n sv)) (g.mulVec 4 g.n w)
  let s := (ms.zip u).foldl (fun s ju => s.publishMember ju.1 ju.2) s
  (ms.zip es).foldl (fun s je => s.supervise je.1 je.2 s.axes[je.1].pos.vHat (ofPos64 s.axes[je.1].pos.pHat)) s

def execGroupTaskRelease (l : Fin 512) (s : State) : Out :=
  s.main
    (if s.leads l && s.releases l 1 then
       (((s.groupMembers l).foldl (fun s j => s.takeLate .ax j.val) s).axisCycle fun s => s.groupRelease l).checkpoint l 1
     else s)

end Sys2Proof.Machine
end

