-- ==== Sys2Proof/Machine/NetAxes.lean ====
section
/-!
DEFINITION. `NET` axes: the setpoints this device sends and the reports it takes (R307 to R309), and the axes that are the remote
axes of `NET` axes elsewhere (R443).
-/
namespace Sys2Proof.Machine

/-! ### Setpoints and reports (Table 13.9) -/

def NetSp.bytes (x : NetSp) : List Byte :=
  leBytes 2 x.axis.toNat ++ leBytes 2 (ofBools [x.enable, x.quick, x.ack]) ++ zeros 4 ++ leBytes 8 x.t.toNat ++ leBytes 8 x.p.toNat
    ++ leBytes 8 x.v.toNat ++ leBytes 8 x.a.toNat ++ leBytes 4 x.limPos.toNat ++ leBytes 4 x.limNeg.toNat

def NetRep.bytes (x : NetRep) : List Byte :=
  leBytes 2 x.axis.toNat ++ leBytes 2 (ofBools [x.ready, x.enabled, x.fault, x.regen]) ++ leBytes 2 x.code.toNat ++ zeros 2
    ++ leBytes 8 x.t.toNat ++ leBytes 8 x.p.toNat ++ leBytes 8 x.v.toNat

def MImg.bytes (x : MImg) : List Byte :=
  leBytes 2 x.axis.toNat ++ zeros 2 ++ leBytes 4 x.path.toNat ++ leBytes 8 x.t.toNat ++ leBytes 8 x.p.toNat ++ leBytes 8 x.v.toNat
    ++ leBytes 8 x.a.toNat

/-- A report as its 32 bytes spell it (R466). -/
def netRepOf (b : List Byte) : NetRep :=
  let st := u16 b 2
  { axis := BitVec.ofNat 16 (u16 b 0), ready := bit st 0, enabled := bit st 1, fault := bit st 2, regen := bit st 3
    code := BitVec.ofNat 16 (u16 b 4), t := BitVec.ofNat 64 (u64 b 8), p := BitVec.ofNat 64 (u64 b 16)
    v := BitVec.ofNat 64 (u64 b 24) }

/-- `NET` axes over Jalut and over CAN (R443, R466). -/
def State.overJalut (s : State) (i : Fin 512) : Bool := s.isNet i && s.ax P.axNetkind i == 1
def State.overCan (s : State) (i : Fin 512) : Bool := s.isNet i && s.ax P.axNetkind i == 2

/-- Member index and remote axis of an axis over Jalut (R443). -/
def State.netMember (s : State) (i : Fin 512) : Nat := s.ax P.axNetaddr i % 16
def State.netRemote (s : State) (i : Fin 512) : Nat :=
  if s.overCan i then bits (s.ax P.axNetaddr i) 27 19 else bits (s.ax P.axNetaddr i) 24 16

/-- The remote drive is to be enabled: the axis is enabled, or is being enabled (R307). -/
def State.netEnable (s : State) (i : Fin 512) : Bool :=
  match s.axes[i].st with
  | .enabledIdle | .moving | .homing | .stopping => true
  | .ready => match s.axes[i].enable with | some e => e.phase == EnablePhase.energising | none => false
  | _ => false

/-- Current limits of a setpoint: each scaled on its braking side while the remote drive reports its DC bus flag (R289 step 3). -/
def State.netLimits (s : State) (i : Fin 512) : Word × Word :=
  let v := ofVel64 s.axes[i].net.vel
  let sv := s.axF P.axStandvel i
  let f (d : PDef) (brake : Bool) : Word :=
    if s.axes[i].net.regen && brake then ratToFp (s.regenFactor i * s.axF d i) else BitVec.ofNat 32 (s.ax d i)
  (f P.axIlimpos (decide (v < -sv)), f P.axIlimneg (decide (sv < v)))

/-- The setpoint of a `NET` axis for the instant `teff` (R307), in the remote axis's frame (R345). -/
def State.netSetpoint (s : State) (i : Fin 512) (teff : Nat) : NetSp :=
  let x := (s.setpoint i).at teff
  let lim := s.netLimits i
  { axis := BitVec.ofNat 16 (s.netRemote i), enable := s.netEnable i
    quick := s.axes[i].st == .stopping && s.axes[i].stop == .quick, ack := s.axes[i].net.ack
    t := BitVec.ofNat 64 teff, p := BitVec.ofInt 64 (toPos64 (x.1 - s.axes[i].net.offset)), v := BitVec.ofInt 64 (toVel64 x.2.1)
    a := BitVec.ofInt 64 (toVel64 x.2.2), limPos := lim.1, limNeg := lim.2 }

/-- Note a setpoint as sent: the device keeps the last 64 (R307); the fault acknowledge is sent once. -/
def State.netSent (s : State) (i : Fin 512) (teff : Nat) : State :=
  let x := (s.setpoint i).at teff
  s.updAxis i fun a =>
    { a with net := { a.net with sent := keep64 (teff, toPos64 x.1, toVel64 x.2.1) a.net.sent, ack := false } }

/-- The remote drive reports a fault, or that it is not enabled (R309). -/
def State.netFaults (s : State) (i : Fin 512) (old : Option Nat) (r : NetRep) : State :=
  let cls := s.ax P.axNetclass i
  if r.fault then (if old.isSome then s else s.raiseAxis i 0x040A cls r.code.toNat)
  else
    match s.axes[i].st with
    | .enabledIdle | .moving | .homing | .stopping =>
      if r.enabled || s.activeAxisFault 0x040B i then s else s.raiseAxis i 0x040B 4
    | _ => s

/-- The reported position against the device's own setpoint at its tag (R308); a report older than the oldest setpoint kept, or
newer than the newest, has none around it. -/
def State.netFollow (s : State) (i : Fin 512) (t : Nat) (pos : Int) : State :=
  match s.axes[i].net.sent.find? (·.1 == t), posAt s.axes[i].net.sent t with
  | some x, _ => s.superviseFe i (ofPos64 x.2.1 - ofPos64 pos)
  | none, some (q, _, false) => s.superviseFe i (q - ofPos64 pos)
  | _, _ => s

/-- What a valid report of the remote drive of an axis does (R308, R309). -/
def State.netTake (s : State) (i : Fin 512) (r : NetRep) : State :=
  let old := s.axes[i].net.fault
  let s := s.updAxis i fun a =>
    { a with net := { a.net with
        ready := r.ready, enabled := r.enabled, fault := if r.fault then some r.code.toNat else none, regen := r.regen
        t := r.t.toNat, pos := r.p.toInt, vel := r.v.toInt, missed := 0, got := true } }
  let pos := s.actPos i
  let s := s.updAxis i fun a => { a with hist := keep64 (r.t.toNat, pos, r.v.toInt) a.hist }
  let s := match s.axes[i].st, s.axes[i].enable with
    | .ready, some e => if e.phase = EnablePhase.energising ∧ r.enabled then s.enterEnabled i pos else s
    | _, _ => s
  let s := s.netFaults i old r
  let s := s.netFollow i r.t.toNat pos
  let s := (s.superviseSpeed i (ofVel64 r.v.toInt)).superviseSw i (ofPos64 pos)
  ((s.stones i).keepStand i).prereqChange i

/-- A valid report of the remote drive of an axis: its faults are taken in the order of R505. -/
def State.netReport (s : State) (i : Fin 512) (r : NetRep) : State := s.axisCycle fun s => s.netTake i r

/-- A cycle has ended without a valid report of an axis (R309). -/
def State.netMissed (s : State) (i : Fin 512) : State :=
  if s.axes[i].net.got then s.updAxis i fun a => { a with net := { a.net with got := false } }
  else
    let n := s.axes[i].net.missed + 1
    let s := s.updAxis i fun a => { a with net := { a.net with missed := n } }
    if s.ax P.axNetloss i ≤ n then s.raiseOnce i 0x0409 (s.ax P.axNetclass i) else s

/-! ### Remote axes of `NET` axes elsewhere (R443) -/

/-- Code of the oldest active fault that reaches an axis, 0 for none. -/
def State.oldestFault (s : State) (i : Fin 512) : Nat :=
  ((s.faults.table.filter fun r => s.reachesAxis r i).getLast?.map (·.code)).getD 0

/-- The report of an axis that is owned by a `NET` axis elsewhere, latched now. -/
def State.ownReport (s : State) (i : Fin 512) : NetRep :=
  let a := s.axes[i]
  let on := match a.st with | .enabledIdle | .moving | .homing | .stopping => true | _ => false
  { axis := BitVec.ofNat 16 i.val, ready := a.st == .ready, enabled := on, fault := a.st == .fault
    regen := match s.axisBus i with | some b => s.regenLimit b | none => false
    code := BitVec.ofNat 16 (if a.st = .fault then s.oldestFault i else 0)
    t := BitVec.ofNat 64 s.now, p := BitVec.ofInt 64 (s.actPos i), v := BitVec.ofInt 64 (s.actVel i) }

/-- The enable bit acts as `AXIS_ENABLE` when set and as `AXIS_DISABLE` mode 0 when cleared, on every member of a group (R296). -/
def State.ownEnable (s : State) (i : Fin 512) (on : Bool) : State :=
  if on then
    let ms := s.groupMembers i
    match ms.mapM fun j => s.judgeEnable j false with
    | .ok l =>
      if s.axes[i].enable.isSome then s
      else
        let op : EnableOp := { refs := [], phase := .energising, wait := false, timeoutMs := 0 }
        (ms.zip l).foldl (fun s x =>
          if !x.2 then s
          else if s.commitHolds i then s.updAxis x.1 fun a => { a with enable := some { op with phase := .commit } }
          else s.startEnable x.1 op) s
    | _ => s
  else
    ((s.groupMembers i).foldl (fun s j =>
      let s := s.endEnable j .aborted 0x0104
      if s.canDisable j 0 then s.disableOne j 0 [] else s) s).settle

/-- Quick stop acts as `STOP` mode 1, once as it sets. -/
def State.ownQuick (s : State) (i : Fin 512) (q was : Bool) : State :=
  if q && !was then
    match s.axes[i].st with
    | .moving | .homing | .stopping =>
      if s.axes[i].stop = .quick then s else (s.endStop i .aborted 0x0102).startStop i .quick 0x0102
    | .enabledIdle => if s.axes[i].prof.source = .net then s.startStop i .quick 0x0102 else s
    | _ => s
  else s

/-- A record for an owned axis. -/
def State.ownSetpoint (s : State) (x : NetSp) : State :=
  match fin? 512 x.axis.toNat with
  | none => s
  | some i =>
    if !s.net.owned.contains i.val then s
    else
      let was := s.axes[i].net.ownQuick
      let s := s.updAxis i fun a =>
        { a with net := { a.net with
            owned := some (x.t.toNat, x.p.toInt, x.v.toInt, x.a.toInt), ownLim := (x.limPos.toNat, x.limNeg.toNat)
            ownEnable := x.enable, ownQuick := x.quick } }
      let s := if x.ack then (s.ack (some i) 0).1 else s
      (s.ownEnable i x.enable).ownQuick i x.quick was

/-! ### Master images (R350, R444) -/

/-- The image of an axis of this device under a path. -/
def State.image (s : State) (i : Fin 512) (path : Nat) : MImg :=
  let x := s.setpoint i
  { axis := BitVec.ofNat 16 i.val, path := BitVec.ofNat 32 path, t := BitVec.ofNat 64 x.tSet, p := BitVec.ofInt 64 x.p
    v := BitVec.ofInt 64 x.v, a := BitVec.ofInt 64 x.a }

/-- An image from a member, or from the leader above (0), reaches the slaves of its master on this device, and is relayed in the next
cycle. -/
def State.takeImage (s : State) (from_ : Nat) (x : MImg) : State :=
  let s := allAxes.foldl (fun s i =>
    if s.ax P.axMaster i = x.axis.toNat ∧ s.ax P.axMasterpath i ≠ 0 ∧ s.ax P.axMasterpath i = x.path.toNat then
      s.updAxis i fun a => { a with coord := { a.coord with remote := some (x.t.toNat, x.p.toInt, x.v.toInt, x.a.toInt, s.now) } }
    else s) s
  s.updNet fun n => { n with relay := n.relay ++ [(from_, x)] }

end Sys2Proof.Machine
end

