-- ==== Sys2Proof/Machine/Can.lean ====
section
/-!
DEFINITION. The CAN controllers (chapter 14): frames, rate detection, node states, receive queues, event queue and time-triggered
schedule.
-/
namespace Sys2Proof.Machine

/-! ### Parameters of a controller -/

/-- Word k of a controller's array parameter. -/
def State.canWord (s : State) (d : PDef) (c : Fin 4) (k : Nat) : Nat := s.dv d c.val / 2 ^ (32 * k) % 2 ^ 32

/-- A matrix entry (Table 14.6). -/
structure SmEntry where
  mark : Nat
  rep : Nat
  ofs : Nat
  kind : Nat
  slot : Nat
  deriving DecidableEq, Repr

def smEntry (w : Nat) : SmEntry :=
  { mark := bits w 15 0, rep := bits w 18 16, ofs := bits w 24 19, kind := bits w 26 25, slot := bits w 31 27 }

/-- The matrix: the entries before the first all-zero word. -/
def State.canMatrix (s : State) (c : Fin 4) : List SmEntry :=
  (((List.range 64).map (s.canWord P.dvCanSm c)).takeWhile (· != 0)).map smEntry

/-- The entry acts in cycle n. -/
def SmEntry.acts (e : SmEntry) (n : Nat) : Bool := n % 2 ^ e.rep == e.ofs

/-- The entry sends the content of a slot. -/
def SmEntry.sends (e : SmEntry) : Bool := e.kind == 1 || e.kind == 2

/-- A slot's configuration (Table 14.8). -/
structure SlotCfg where
  id : Nat
  ide : Bool
  fmt : Nat
  maxLen : Nat
  brs : Bool
  rpt : Bool
  deriving DecidableEq, Repr

def State.slotCfg (s : State) (c : Fin 4) (k : Nat) : SlotCfg :=
  let a := s.canWord P.dvCanSlot c (2 * k)
  let b := s.canWord P.dvCanSlot c (2 * k + 1)
  { id := if bits a 31 30 = 3 then bits a 10 0 else bits a 28 0, ide := bit a 29, fmt := bits a 31 30, maxLen := bits b 11 0
    brs := bit b 12, rpt := bit b 13 }

/-- Length of a basic cycle in ns. -/
def State.bcycleNs (s : State) (c : Fin 4) : Nat := s.dv P.dvCanBcycle c.val * 1000

/-! ### Bit timing and durations -/

/-- Fields of a CAN timing word: bit in ns, time quanta of a bit, `SJW`, `TSEG1`, `TSEG2` and `TDCO` in quanta, `TDC`. -/
structure CanTiming where
  tBit : Nat
  quanta : Nat
  sjw : Nat
  seg1 : Nat
  seg2 : Nat
  tdco : Nat
  tdc : Bool
  deriving DecidableEq, Repr

/-- Table 14.2. -/
def nominalTiming (w : Nat) : CanTiming :=
  let a := bits w 16 9 + 1
  let b := bits w 23 17 + 1
  { tBit := 5 * (bits w 8 0 + 1) * (1 + a + b), quanta := 1 + a + b, sjw := bits w 30 24 + 1, seg1 := a, seg2 := b
    tdco := 0, tdc := true }

/-- Table 14.3. -/
def dataTiming (w : Nat) : CanTiming :=
  let a := bits w 9 5 + 1
  let b := bits w 13 10 + 1
  { tBit := 5 * (bits w 4 0 + 1) * (1 + a + b), quanta := 1 + a + b, sjw := bits w 17 14 + 1, seg1 := a, seg2 := b
    tdco := bits w 25 19, tdc := bit w 18 }

def State.canTn (d : State) (c : Fin 4) : CanTiming := nominalTiming (d.dv P.dvCanNbt c.val)
def State.canTd (d : State) (c : Fin 4) (fmt : Nat) : CanTiming :=
  dataTiming (if fmt = 3 then d.dv P.dvCanXbt c.val else d.dv P.dvCanDbt c.val)

/-- Time quantum in ns. -/
def CanTiming.tq (t : CanTiming) : Nat := t.tBit / t.quanta

/-- Transmitter delay compensation (R450): the measured delay and the secondary sample point, `TDCO` quanta behind it; a frame without
a data phase, or with `TDC` clear in the word of that phase, has none. -/
def State.canTdc (s : State) (c : Fin 4) (f : CanFrame) (delay : Nat) : Option (Nat × Nat) :=
  let t := s.canTd c f.fmt.val
  if t.tdc && (f.fmt == 3 || (f.fmt == 2 && f.brs)) then some (delay, delay + t.tdco * t.tq) else none

/-- The measured delay exceeds 127 data quanta: a bit error. -/
def State.canTdcError (s : State) (c : Fin 4) (f : CanFrame) (delay : Nat) : Bool :=
  (s.canTdc c f delay).isSome && decide (127 * (s.canTd c f.fmt.val).tq < delay)

/-- Worst-case duration in ns of a frame with n data bytes, on bits of `tn`, `fd` and `xl` ns (Table 14.9). -/
def frameTime (tn fd xl fmt n : Nat) (ide brs : Bool) : Nat :=
  match fmt with
  | 1 => (if ide then 67 + 8 * n + (53 + 8 * n) / 4 else 47 + 8 * n + (33 + 8 * n) / 4) * tn
  | 2 =>
    (if ide then 57 else 34) * tn + (9 + 8 * n + (4 + 8 * n) / 4 + (if n ≤ 16 then 23 else 28)) * (if brs then fd else tn)
  | _ => 40 * tn + ceilDiv (11 * (8 * n + 90)) 10 * xl

/-- The same under the controller's timing words. -/
def State.frameNs (d : State) (c : Fin 4) (fmt n : Nat) (ide brs : Bool) : Nat :=
  frameTime (d.canTn c).tBit (d.canTd c 2).tBit (d.canTd c 3).tBit fmt n ide brs

/-- Marks of a matrix in ns with the end of the cycle behind them. -/
def State.canMarks (d : State) (c : Fin 4) : List Nat := (d.canMatrix c).map (1000 * ·.mark) ++ [d.bcycleNs c]

/-- Candidates of rate detection: the words before the first zero (R451). -/
def State.abrWords (s : State) (c : Fin 4) : List Nat := ((List.range 8).map (s.canWord P.dvCanAbrlist c)).takeWhile (· != 0)

/-! ### Frames -/

/-- A frame's identifier, with `IDE` in bit 29. -/
def canKey (f : CanFrame) : Nat := f.id.toNat + 2 ^ 29 * b2n (f.ide && f.fmt != 3)

/-- Arbitration value: the arbitration field as it goes over the bus, most significant bit first (ISO 11898-1). -/
def canArb (f : CanFrame) : Nat :=
  if f.ide && f.fmt != 3 then
    bits f.id.toNat 28 18 * 2 ^ 21 + 2 ^ 20 + 2 ^ 19 + bits f.id.toNat 17 0 * 2 + b2n f.rtr
  else bits f.id.toNat 10 0 * 2 ^ 21 + b2n f.rtr * 2 ^ 20

/-- Data lengths of a format (Table 14.1). -/
def canLenOk (fmt n : Nat) : Bool :=
  match fmt with
  | 1 => decide (n ≤ 8)
  | 2 => decide (n ≤ 8) || [12, 16, 20, 24, 32, 48, 64].contains n
  | 3 => decide (1 ≤ n) && decide (n ≤ 2048)
  | _ => false

/-- A stamp of CAN has a resolution of 5 ns (Table 14.10). -/
def stamp5 (t : Nat) : Nat := t / 5 * 5

def Can.active (x : Can) : Bool := x.st == .errorActive || x.st == .errorPassive

/-! ### Windows not used -/

/-- A window frame was not sent or failed: counted, and `CAN_TX_MISSED` after 100 ms without (R453, Table 14.19). -/
def State.txMiss (s : State) (c : Fin 4) : State :=
  let quiet := ((s.can[c]).missedAt).all fun t => decide (t + 100000000 ≤ s.now)
  let s := s.updCan c fun x => { x with txMissed := satInc 32 x.txMissed, missedAt := some s.now }
  if quiet then s.raiseCan c 0x0907 0 c.val else s

/-! ### Node states (R452) -/

/-- `BUS_OFF`: the event queue empties; with `DV.CAN_BORECOV` = 0 recovery begins at once (R453). -/
def State.canBusOff (s : State) (c : Fin 4) : State :=
  let q := (s.can[c]).queue
  let auto := s.dv P.dvCanBorecov c.val = 0
  let s := s.updCan c fun x => { x with st := if auto then .recovering else .busOff, runs := 0, queue := [], refDue := none }
  (s.completeAll (q.filterMap (·.ref)) .aborted 0x0103).raiseCan c 0x0901 1 c.val

/-- Fault confinement after a change of the counters (Table 14.4). -/
def State.confine (s : State) (c : Fin 4) : State :=
  let x := s.can[c]
  if !x.active then s
  else if 255 < x.tec then s.canBusOff c
  else
    let high := decide (127 < x.tec) || decide (127 < x.rec_)
    if x.st = .errorActive ∧ high then
      (s.updCan c fun x => { x with st := .errorPassive }).raiseCan c 0x0902 1 c.val
    else if x.st = .errorPassive ∧ !high then s.updCan c fun x => { x with st := .errorActive }
    else s

/-- The receive error counter after a frame received without error: one less, or a value from 119 to 127 (ISO 11898-1). -/
def State.recDown (s : State) (c : Fin 4) : State :=
  let r := (s.can[c]).rec_
  let (n, s) := if 127 < r then (119 + s.draw.1 % 9, s.draw.2) else (r - 1, s)
  (s.updCan c fun x => { x with rec_ := n }).confine c

/-- The next candidate of rate detection (R451); after a pass without success `CAN_RATE_UNKNOWN` and the first one. -/
def State.nextRate (s : State) (c : Fin 4) : State :=
  let ws := s.abrWords c
  let k := (s.can[c]).cand + 1
  let wrap := decide (ws.length ≤ k)
  let k := if wrap then 0 else k
  let s := s.updCan c fun x => { x with cand := k, good := 0, candSince := s.ticks, nbt := ws.getD k 0 }
  if wrap then s.raiseCan c 0x0905 1 c.val else s

/-- Start a controller from `OFF` at a switch-over (Table 14.4); its counters, its rate detection and its schedule start anew. -/
def State.canStart (s : State) (c : Fin 4) : State :=
  let mode := s.dv P.dvCanOpmode c.val
  let det := mode == 2 || mode == 3
  s.updCan c fun x =>
    { queue := x.queue, slots := x.slots, rx := x.rx, clashId := x.clashId, txMissed := x.txMissed, missedAt := x.missedAt
      candSince := s.ticks
      st := if s.dv P.dvCanFmt c.val = 0 then .off else if det then .rateDetect else .integrating
      nbt := if det then (s.abrWords c).getD 0 0 else s.dv P.dvCanNbt c.val }

/-- 11 consecutive recessive bits: the bus is idle, which also ends the wait behind a protocol exception (R448). -/
def execCanRecessiveRun (c : Fin 4) (s : State) : Out :=
  s.main
    (let s := s.updCan c fun x => { x with waitIdle := false }
     match (s.can[c]).st with
     | .integrating =>
       let mode := s.dv P.dvCanOpmode c.val
       s.updCan c fun x => { x with st := if mode = 1 ∨ mode = 3 then .listen else .errorActive }
     | .recovering =>
       s.updCan c fun x =>
         if 128 ≤ x.runs + 1 then { x with st := .errorActive, tec := 0, rec_ := 0, runs := 0 } else { x with runs := x.runs + 1 }
     | _ => s)

/-- A candidate has been kept for 100 ms (R451). -/
def execCanRateCandidateTimeout (c : Fin 4) (s : State) : Out :=
  s.main
    (if (s.can[c]).st = .rateDetect ∧ s.heldFor (some (s.can[c]).candSince) 100000000 then s.nextRate c else s)

/-! ### Reception (R462, R463) -/

/-- The entry of a frame (Table 14.10). -/
def canEntry (f : CanFrame) (sof seq : Nat) : List Byte :=
  leBytes 8 (stamp5 sof) ++ leBytes 4 (canKey f + 2 ^ 30 * b2n f.rtr) ++ leBytes 1 f.fmt.val
    ++ leBytes 1 (ofBools [f.brs, f.esi, f.sec && f.fmt == 3]) ++ leBytes 2 f.data.length
    ++ (if f.fmt = 3 then [f.sdt, f.vcid] else zeros 2) ++ leBytes 2 seq
    ++ leBytes 4 (if f.fmt = 3 then f.af.toNat else 0) ++ pad4 f.data

/-- The queue that the filters send a frame to. -/
def State.canFilter (s : State) (c : Fin 4) (f : CanFrame) : Option (Fin 4) :=
  (List.range 32).findSome? fun k =>
    let a := s.canWord P.dvCanFilter c (2 * k)
    let b := s.canWord P.dvCanFilter c (2 * k + 1)
    if bit b 30 && bit a 29 == (f.ide && f.fmt != 3) && ((f.id.toNat ^^^ bits a 28 0) &&& bits b 28 0) == 0 then
      some ⟨bits a 31 30 % 4, Nat.mod_lt _ (by decide)⟩
    else none

/-- Put a frame into a receive queue, or count it as lost. -/
def State.canFile (s : State) (c q : Fin 4) (f : CanFrame) (sof : Nat) : State :=
  let x := (s.can[c]).rx[q]
  let e := canEntry f sof x.next
  if x.used + e.length ≤ s.canWord P.dvCanRxbytes c q.val then
    s.updCan c fun y =>
      { y with rx := upd y.rx q fun x =>
          { x with entries := x.entries ++ [(x.next, e)], next := (x.next + 1) % 65536, wrote := x.wrote + e.length } }
  else
    let s := s.updCan c fun y => { y with rx := upd y.rx q fun x => { x with lost := satInc 32 x.lost } }
    if s.mayRaise 0x0904 c.val then (s.noteRaise 0x0904 c.val).raiseCan c 0x0904 1 (c.val * 256 + q.val) else s

/-- The `NET` axis that takes a frame as its report (R466): an FD or XL frame of 32 bytes with its base identifier. -/
def State.canReportOf (s : State) (c : Fin 4) (f : CanFrame) : Option (Fin 512) :=
  if f.fmt.val < 2 ∨ (f.ide && f.fmt != 3) = true ∨ f.data.length ≠ 32 then none
  else allAxes.find? fun i =>
    let a := s.ax P.axNetaddr i
    s.overCan i && bits a 1 0 == c.val && bits a 18 8 == bits f.id.toNat 10 0

/-- A frame received without error, in a format that the controller takes (R448). -/
def State.canReceive (s : State) (c : Fin 4) (f : CanFrame) (sof : Nat) : State :=
  let s := if (s.can[c]).active then s.recDown c else s
  match s.canReportOf c f with
  | some i => s.netReport i (netRepOf f.data)
  | none => match s.canFilter c f with
    | some q => s.canFile c q f sof
    | none => s

/-- A good frame under a candidate: the second in a row accepts it (R451). -/
def State.goodRate (s : State) (c : Fin 4) : State :=
  s.updCan c fun x =>
    if 2 ≤ x.good + 1 then { x with st := .integrating, abrSel := x.cand, good := 0 } else { x with good := x.good + 1 }

/-- The controller follows the bus: it may see a protocol exception. -/
def Can.listens (x : Can) : Bool := x.active || x.st == .listen || x.st == .rateDetect

/-- A frame from another node reaches its end. Operands: the frame, the line time of its start-of-frame edge. A frame of a format that
`DV.CAN_FMT` does not allow is a protocol exception (R448). -/
def execCanFrameEnd (c : Fin 4) (f : CanFrame) (sof : BitVec 64) (s : State) : Out :=
  s.main
    (if f.fmt = 0 ∨ (s.can[c]).waitIdle then s
     else if s.dv P.dvCanFmt c.val < f.fmt.val then s.updCan c fun x => { x with waitIdle := x.waitIdle || x.listens }
     else match (s.can[c]).st with
      | .rateDetect => (s.canReceive c f sof.toNat).goodRate c
      | .listen | .errorActive | .errorPassive => s.canReceive c f sof.toNat
      | _ => s)

/-! ### Transmission (R454, R455) -/

/-- What the controller sends: its reference message, the captured frame of a window, or a frame of the event queue. -/
inductive OnBus where
  | ref (n : Nat)
  | window (k : Fin 32) (t : CanTx)
  | event (t : CanTx)
  | nothing
  deriving DecidableEq, Repr

/-- Event frames may be sent now (Table 14.7): always without a schedule, otherwise in free windows. -/
def State.eventWindow (s : State) (c : Fin 4) : Bool :=
  let x := s.can[c]
  s.dv P.dvCanTt c.val == 0 ||
    (x.running && !x.gap && !x.suspended &&
      match x.window with
      | none => false
      | some k => match (s.canMatrix c)[k.val]? with
        | none => false
        | some e => e.kind == 3 || !e.acts x.cycle)

/-- In a free window a frame starts only when its duration ends before the window does (Table 14.7, R460). -/
def State.txFits (s : State) (c : Fin 4) (sof : Nat) (f : CanFrame) : Bool :=
  let x := s.can[c]
  s.dv P.dvCanTt c.val == 0 ||
    match x.window with
    | none => false
    | some k =>
      decide (sof + frameTime (nominalTiming x.nbt).tBit (s.canTd c 2).tBit (s.canTd c 3).tBit f.fmt.val
          (if f.rtr then 0 else f.data.length) f.ide f.brs
        < x.mark + (s.canMarks c).getD (k.val + 1) 0)

/-- The frame of the event queue that was offered at an instant: lowest arbitration value, then first come (R454). -/
def bestTx : List CanTx → Option CanTx
  | [] => none
  | t :: ts =>
    match bestTx ts with
    | none => some t
    | some u => if canArb u.frame < canArb t.frame then some u else some t

/-- The frame that started at an instant; none while the controller waits for bus idle. -/
def State.canOnBus (s : State) (c : Fin 4) (sof : Nat) : OnBus :=
  let x := s.can[c]
  if x.waitIdle then .nothing else
  match x.refDue.filter (fun r => decide (r.2 ≤ sof)), x.captured, x.offered with
  | some n, _, _ => .ref n.1
  | none, some (k, t), true => .window k t
  | _, _, _ =>
    if s.eventWindow c then
      (match bestTx (x.queue.filter (fun t => decide (t.at_ ≤ sof))) with
       | some t => if s.txFits c sof t.frame then .event t else .nothing
       | none => .nothing)
    else .nothing

/-- A transmission failed: a window frame has had its one attempt, a `SINGLE_SHOT` frame is `LOST`, others are sent again. -/
def State.txFailed (s : State) (c : Fin 4) (b : OnBus) : State :=
  match b with
  | .window _ _ => (s.updCan c fun x => { x with offered := false, captured := none }).txMiss c
  | .event t =>
    if t.single then
      let s := s.updCan c fun x => { x with queue := x.queue.erase t }
      s.complete? t.ref .aborted 0x0101 s.now
    else s
  | _ => s

/-- Identifier of what was sent. -/
def State.onBusKey (s : State) (c : Fin 4) : OnBus → Option Nat
  | .ref _ => some (s.dv P.dvCanRefid c.val)
  | .window _ t | .event t => some (canKey t.frame)
  | .nothing => none

/-- Transmissions in a row of one identifier that ended in data-field bit errors (R455): `ID_CLASH` at the third. -/
def State.clashCount (s : State) (c : Fin 4) (key : Nat) : State :=
  let n := min 3 ((assocGet? (s.can[c]).clash key).getD 0 + 1)
  let s := s.updCan c fun x => { x with clash := (key, n) :: x.clash.filter (fun p => p.1 != key) }
  if n = 3 ∧ s.mayRaise 0x0903 c.val = true then
    ((s.noteRaise 0x0903 c.val).updCan c fun x => { x with clashId := key }).raiseCan c 0x0903 1 c.val
  else s

def State.clashClear (s : State) (c : Fin 4) (key : Nat) : State :=
  s.updCan c fun x => { x with clash := x.clash.filter (fun p => p.1 != key) }

/-- An error on the bus while the controller takes part in it. -/
def State.canError (s : State) (c : Fin 4) (e : CanErr) (b : OnBus) : State :=
  match e with
  | .receive => (s.updCan c fun x => { x with rec_ := min 255 (x.rec_ + 1) }).confine c
  | .receiveLong => (s.updCan c fun x => { x with rec_ := min 255 (x.rec_ + 8) }).confine c
  | .transmit data =>
    let s := match data, s.onBusKey c b with
      | true, some k => s.clashCount c k
      | false, some k => s.clashClear c k
      | _, none => s
    ((s.txFailed c b).updCan c fun x => { x with tec := x.tec + 8 }).confine c
  | .transmitFree => s.txFailed c b

/-- An error is detected; none is signalled behind a protocol exception (R448). Operands: what it was; the line time at which the frame started, when this device sent it. -/
def execCanErrorDetected (c : Fin 4) (e : CanErr) (sof : BitVec 64) (s : State) : Out :=
  s.main
    (if (s.can[c]).waitIdle then s
     else match (s.can[c]).st with
     | .rateDetect => s.nextRate c
     | .errorActive | .errorPassive => s.canError c e (s.canOnBus c sof.toNat)
     | _ => s)

/-- The own reference message has been sent: this device is time master of the cycle (R456, R457). -/
def Can.refSent (x : Can) (n sof : Nat) : Can :=
  { x with refDue := none, running := true, master := true, cycle := n, mark := stamp5 sof, gap := false, refLost := false
           missing := 0, suspended := false, window := none, offered := false }

/-- The content that a slot keeps after its frame has succeeded (Table 14.7). -/
def slotAfter (rpt : Bool) (sent : CanTx) (now : Option CanTx) : Option CanTx :=
  if now = some sent then (if rpt then some { sent with ref := none } else none) else now

/-- A frame of this controller has been sent without error. -/
def State.txDone (s : State) (c : Fin 4) (b : OnBus) (sof : Nat) : State :=
  match b with
  | .ref n => s.updCan c fun x => x.refSent n sof
  | .window k t =>
    let rpt := (s.slotCfg c k.val).rpt
    let s := s.updCan c fun x =>
      { x with captured := none, offered := false, slots := upd x.slots k fun now => slotAfter rpt t now }
    match t.ref with | some r => s.complete r .done 0 (stamp5 sof) (leBytes 8 (stamp5 sof)) | none => s
  | .event t =>
    let s := s.updCan c fun x => { x with queue := x.queue.erase t }
    match t.ref with | some r => s.complete r .done 0 (stamp5 sof) (leBytes 8 (stamp5 sof)) | none => s
  | .nothing => s

/-- The frame that is on the bus. -/
def OnBus.frame? : OnBus → Option CanFrame
  | .window _ t | .event t => some t.frame
  | _ => none

/-- The last edge before the data phase gives the delay from `Cn_TX` to `Cn_RX` (R450). -/
def State.canMeasure (s : State) (c : Fin 4) (b : OnBus) (delay : Nat) : State :=
  match b.frame? with
  | some f => s.updCan c fun x => { x with tdc := s.canTdc c f delay <|> x.tdc }
  | none => s

/-- A frame of this controller succeeds. Operands: the line time of its start-of-frame edge; the delay measured at the last edge before
its data phase, in ns. A delay above 127 data quanta is a bit error in the data field instead (R450). -/
def execCanTxSuccess (c : Fin 4) (sof : BitVec 64) (delay : BitVec 16) (s : State) : Out :=
  s.main
    (let b := s.canOnBus c sof.toNat
     if !(s.can[c]).active || b == .nothing then s
     else
       let bad := b.frame?.any (s.canTdcError c · delay.toNat)
       let s := s.canMeasure c b delay.toNat
       if bad then s.canError c (.transmit true) b else
       let s := match s.onBusKey c b with | some k => s.clashClear c k | none => s
       ((s.txDone c b sof.toNat).updCan c fun x => { x with tec := x.tec - 1 }).confine c)

/-- The frame that started at `sof` loses arbitration (R454, R456). -/
def execCanArbitrationLoss (c : Fin 4) (sof : BitVec 64) (s : State) : Out :=
  s.main (if (s.can[c]).active then s.txFailed c (s.canOnBus c sof.toNat) else s)

/-! ### Reference messages (R456, R457, R459) -/

/-- t = n × `DV.CAN_BCYCLE` µs. -/
def execCanReferenceInstant (c : Fin 4) (s : State) : Out :=
  s.main
    (if s.dv P.dvCanTt c.val ≠ 1 ∨ (s.can[c]).active = false ∨ (s.can[c]).follow then s
     else
       let n := s.now / s.bcycleNs c
       s.updCan c fun x => { x with refDue := some (n % 64, n * s.bcycleNs c) })

/-- `Master_Ref_Mark` of this device's reference message (R457). -/
def masterRefMark (t : Nat) : Nat := t / 1000 % 65536

/-- Data of this device's reference message for cycle n whose mark is at line time t (Table 14.5). -/
def refData (n t : Nat) : List Byte := leBytes 1 (n % 64) ++ zeros 1 ++ leBytes 2 (masterRefMark t)

/-- `DV.CAN_GTOFFS`, wrapped into ±32,768,000 ns. -/
def gtOffset (mrm stamp : Nat) : Int :=
  (((mrm * 1000 : Nat) : Int) - ((stamp % 65536000 : Nat) : Int) + 32768000) % 65536000 - 32768000

/-- A reference message of another node. -/
def State.refReceived (s : State) (c : Fin 4) (d : List Byte) (sof : Nat) : State :=
  let t := stamp5 sof
  let master := s.dv P.dvCanTt c.val = 1
  s.updCan c fun x =>
    { x with running := true, master := false, follow := x.follow || master, refDue := none, cycle := bits (u8 d 0) 5 0, mark := t
             gap := bit (u8 d 0) 7, gtOffs := gtOffset (u16 d 2) t, refLost := false, missing := 0, suspended := false
             window := none, offered := false }

/-- A frame that may be a reference message is received. Operands: the frame, the line time of its start-of-frame edge. -/
def execCanReferenceReceived (c : Fin 4) (f : CanFrame) (sof : BitVec 64) (s : State) : Out :=
  s.main
    (let st := (s.can[c]).st
     if s.dv P.dvCanTt c.val = 0 ∨ (st ≠ .listen ∧ st ≠ .errorActive ∧ st ≠ .errorPassive) ∨ f.fmt ≠ 1 ∨ f.ide ∨ f.rtr
       ∨ f.data.length ≠ 4 ∨ bits f.id.toNat 10 3 ≠ bits (s.dv P.dvCanRefid c.val) 10 3 then s
     else s.refReceived c f.data sof.toNat)

/-- `DV.CAN_TXENWIN` in ns. -/
def State.txenwinNs (s : State) (c : Fin 4) : Nat := s.dv P.dvCanTxenwin c.val * 1000

/-- No reference message starts within `DV.CAN_TXENWIN` of the expected mark (R459). -/
def execCanReferenceMissing (c : Fin 4) (s : State) : Out :=
  s.main
    (let x := s.can[c]
     if s.dv P.dvCanTt c.val = 0 ∨ !x.running ∨ x.gap ∨ s.now < x.mark + s.bcycleNs c + s.txenwinNs c then s
     else if s.dv P.dvCanTt c.val = 1 then
       (if x.active && x.refDue.isNone then s.updCan c fun x => { x with refDue := some ((x.cycle + 1) % 64, s.now) } else s)
     else
       let n := x.missing + 1
       let s := s.updCan c fun x =>
         { x with cycle := (x.cycle + 1) % 64, mark := x.mark + s.bcycleNs c, missing := n, refLost := true
                  suspended := decide (s.dv P.dvCanRefloss c.val ≤ n), window := none, offered := false }
       if x.refLost then s else s.raiseCan c 0x0906 1 c.val)

/-! ### Windows (R458, R460) -/

/-- The committed `NET` axis that owns a slot (R466). -/
def State.slotAxis (s : State) (c : Fin 4) (k : Nat) : Option (Fin 512) :=
  allAxes.find? fun i => s.overCan i && bits (s.ax P.axNetaddr i) 1 0 == c.val && bits (s.ax P.axNetaddr i) 6 2 == k

/-- The setpoint frame of a `NET` axis for a time of effect. -/
def State.setpointFrame (s : State) (c : Fin 4) (k : Nat) (i : Fin 512) (teff : Nat) : CanFrame :=
  let g := s.slotCfg c k
  { fmt := ⟨g.fmt % 4, Nat.mod_lt _ (by decide)⟩, id := BitVec.ofNat 29 g.id, ide := g.ide, rtr := false, brs := g.brs, esi := false
    sdt := 0, vcid := 0, af := 0, sec := false, data := NetSp.bytes (s.netSetpoint i teff) }

/-- Cycle count and reference mark of the cycle whose window is captured now: the next cycle's when the window's mark lies less
than 10 µs after its reference mark. -/
def State.captureCycle (s : State) (c : Fin 4) (e : SmEntry) : Nat × Nat :=
  let x := s.can[c]
  if e.mark < 10 then ((x.cycle + 1) % 64, x.mark + s.bcycleNs c) else (x.cycle, x.mark)

/-- 10 µs before the mark of entry k. -/
def State.slotCapture (s : State) (c : Fin 4) (e : SmEntry) : State :=
  let cm := s.captureCycle c e
  if !e.sends || !e.acts cm.1 || decide (s.now + 10000 < cm.2 + e.mark * 1000) then s
  else
    let k : Fin 32 := ⟨e.slot % 32, Nat.mod_lt _ (by decide)⟩
    let s := match s.slotAxis c k.val with
      | none => s
      | some i =>
        let teff := cm.2 + e.mark * 1000 + 2 ^ e.rep * s.bcycleNs c
        let f := s.setpointFrame c k.val i teff
        (s.netSent i teff).updCan c fun x =>
          { x with slots := upd x.slots k fun _ => some { frame := f, ref := none, single := false, at_ := s.now } }
    s.updCan c fun x => { x with captured := (x.slots[k]).map fun t => (k, t) }

def execCanSlotCapture (c : Fin 4) (k : Fin 64) (s : State) : Out :=
  s.main
    (match (s.canMatrix c)[k.val]? with
     | none => s
     | some e => if s.dv P.dvCanTt c.val = 0 ∨ !(s.can[c]).running ∨ (s.can[c]).gap then s else s.slotCapture c e)

/-- The mark of an entry that sends, in a cycle in which it acts. -/
def State.windowSends (s : State) (c : Fin 4) (e : SmEntry) : State :=
  let s := match s.slotAxis c e.slot with | some i => s.netMissed i | none => s
  let x := s.can[c]
  let mine := match x.captured with | some (k, _) => k.val == e.slot | none => false
  if !x.active then (s.updCan c fun x => { x with captured := none }).txMiss c
  else if !mine then s
  else if x.suspended then (s.updCan c fun x => { x with captured := none }).txMiss c
  else s.updCan c fun x => { x with offered := true }

/-- The mark of entry k. -/
def execCanWindowMark (c : Fin 4) (k : Fin 64) (s : State) : Out :=
  s.main
    (match (s.canMatrix c)[k.val]? with
     | none => s
     | some e =>
       if s.dv P.dvCanTt c.val = 0 ∨ !(s.can[c]).running ∨ (s.can[c]).gap ∨ s.now < (s.can[c]).mark + e.mark * 1000
         ∨ !((s.can[c]).window.all fun w => decide (w < k)) then s
       else
         let s := s.updCan c fun x => { x with window := some k, offered := false }
         if e.sends && e.acts (s.can[c]).cycle then s.windowSends c e else s)

/-- `DV.CAN_TXENWIN` µs have passed since the mark of the present window. -/
def State.txenwinPast (s : State) (c : Fin 4) : Bool :=
  let x := s.can[c]
  match x.window.bind fun k => (s.canMatrix c)[k.val]? with
  | some e => decide (x.mark + e.mark * 1000 + s.txenwinNs c ≤ s.now)
  | none => true

/-- `DV.CAN_TXENWIN` µs after a mark; `started` says whether the window's frame has started (R458). -/
def execCanTxenwinEnd (c : Fin 4) (started : Bool) (s : State) : Out :=
  s.main
    (if (s.can[c]).offered && !started && s.txenwinPast c then (s.updCan c fun x => { x with offered := false, captured := none }).txMiss c else s)

/-! ### `CAN_TX_QUEUE` (R465) -/

/-- The frame of a request. -/
def txFrame (a : List Byte) : CanFrame :=
  let fl := u8 a 2
  { fmt := ⟨u8 a 3 % 4, Nat.mod_lt _ (by decide)⟩, id := BitVec.ofNat 29 (u32 a 4), ide := bit fl 3, rtr := bit fl 4, brs := bit fl 2
    esi := false, sdt := BitVec.ofNat 8 (u8 a 10), vcid := BitVec.ofNat 8 (u8 a 11), af := BitVec.ofNat 32 (u32 a 12)
    sec := bit (u8 a 16) 0, data := (a.drop 20).take (u16 a 8) }

/-- Values that no field may hold (Table 14.12). -/
def txValuesOk (fmtMax : Nat) (a : List Byte) : Bool :=
  let fl := u8 a 2
  let fmt := u8 a 3
  let k := u8 a 1
  let idTop := if fmt = 3 ∨ bit fl 3 = false then 2 ^ 11 else 2 ^ 29
  decide (u8 a 0 ≤ 3) && (decide (k ≤ 31) || k == 255) && decide (fl < 32) && decide (1 ≤ fmt) && decide (fmt ≤ 3)
    && !(bit fl 4 && fmt != 1) && !(bit fl 3 && fmt == 3) && !(bit fl 2 && fmt != 2) && decide (u32 a 4 < idTop)
    && (if fmt = 3 then decide (u8 a 16 < 2) else rsvZero a 10 7) && rsvZero a 17 3
    && canLenOk fmt (u16 a 8) && decide (fmt ≤ fmtMax)

/-- A frame fits a slot's configuration. -/
def slotFits (g : SlotCfg) (f : CanFrame) : Bool :=
  g.fmt != 0 && f.fmt.val == g.fmt && f.id.toNat == g.id && f.ide == g.ide && (f.fmt != 2 || f.brs == g.brs)
    && decide (f.data.length ≤ g.maxLen)

/-- Write a slot (R465): an unfinished frame there is `SUPERSEDED`. -/
def State.writeSlot (s : State) (c : Fin 4) (k : Fin 32) (t : CanTx) : State :=
  let old := ((s.can[c]).slots[k]).bind (·.ref)
  let s := s.updCan c fun x =>
    { x with
      slots := upd x.slots k fun _ => some t
      captured := x.captured.map fun p => if p.1 = k then (p.1, { p.2 with ref := none }) else p }
  s.complete? old .aborted 0x0102 s.now

def opCanTxQueue (_ : Instant) (p : Packet) (s : State) : HRes :=
  .ofCheck s do
    let a := p.args
    need (decide (20 ≤ a.length) && a.length == 20 + (u16 a 8 + 3) / 4 * 4) .badLength 0x0004
    let c : Fin 4 := ⟨u8 a 0 % 4, Nat.mod_lt _ (by decide)⟩
    let f := txFrame a
    let single := bit (u8 a 2) 1
    need (txValuesOk (s.dv P.dvCanFmt c.val) a) .range 0
    let slot := fin? 32 (u8 a 1)
    need (match slot with | none => true | some k => slotFits (s.slotCfg c k.val) f) .range 0x0101
    need (!(single && slot.isSome)) .range 0x0102
    let st := (s.can[c]).st
    need (st != .off && st != .rateDetect && st != .listen) .state 0x0101
    need (match slot with | none => true | some k => (s.slotAxis c k.val).isNone) .state 0x0102
    need (slot.isSome || decide ((s.can[c]).queue.length < 64)) .queueFull 0x0101
    let conf := bit (u8 a 2) 0
    let t : CanTx := { frame := f, ref := if conf then some (s.refOf p) else none, single := single, at_ := s.now }
    let s := match slot with
      | some k => s.writeSlot c k t
      | none => s.updCan c fun x => { x with queue := x.queue ++ [t] }
    return if conf then .accepted s else .ok s

/-! ### `CAN_RX_ACK` (R464) -/

/-- As many of the oldest entries as fit into a number of bytes. -/
def takeFit : Nat → List (List Byte) → List (List Byte)
  | _, [] => []
  | room, e :: es => if e.length ≤ room then e :: takeFit (room - e.length) es else []

/-- Release every entry up to and including a sequence number. -/
def CanRx.release (x : CanRx) (seq : Nat) : CanRx :=
  { x with entries := (x.entries.dropWhile (fun e => e.1 != seq)).drop 1 }

def opCanRxAck (_ : Instant) (p : Packet) (s : State) : HRes :=
  .ofCheck s do
    let a := p.args
    need (a.length == 8) .badLength 0x0004
    need (decide (u8 a 0 ≤ 3) && decide (u8 a 1 ≤ 3) && decide (u8 a 3 < 2) && rsvZero a 6 2) .range 0
    let c : Fin 4 := ⟨u8 a 0 % 4, Nat.mod_lt _ (by decide)⟩
    let q : Fin 4 := ⟨u8 a 1 % 4, Nat.mod_lt _ (by decide)⟩
    need (s.canWord P.dvCanRxbytes c q.val != 0) .state 0x0101
    let x := (s.can[c]).rx[q]
    let ack := bit (u8 a 3) 0
    need (!ack || x.entries.any (fun e => e.1 == u16 a 4)) .range 0x0102
    let x := if ack then x.release (u16 a 4) else x
    let out := takeFit (payloadLimit (s.versionOf p) - 16) ((x.entries.take (u8 a 2)).map (·.2))
    let s := s.updCan c fun y => { y with rx := upd y.rx q fun _ => { x with told := x.lost } }
    return .okBody s
      (leBytes 1 c.val ++ leBytes 1 q.val ++ leBytes 2 out.length ++ leBytes 2 x.entries.length ++ zeros 2
        ++ leBytes 4 (x.lost - x.told) ++ out.flatten)

end Sys2Proof.Machine
end

