-- ==== Sys2Proof/Machine/Debug.lean ====
section
/-!
DEFINITION. Debug access (R245, R514 to R517): unlocking, debug halts, the JTAG port and the test multiplexer.
-/
namespace Sys2Proof.Machine

def State.updDbg (s : State) (f : Debug → Debug) : State := { s with dbg := f s.dbg }

/-- The debug level in force (Tables 17.7, 17.8): in `MANUFACTURE` every level is open. -/
def State.dbgLevel (s : State) : Nat := if s.dbg.lifecycle = 0x10 then 3 else s.dbg.level

/-- What a change of the level ends: below level 1 every `TMUX` pin is low (R517), below level 3 `EXTEST` drives nothing (Table 17.8). -/
def State.levelDrop (s : State) : State :=
  s.updDbg fun d =>
    { d with
      tmux := if s.dbgLevel < 1 then Vector.replicate 16 (0, 0) else d.tmux
      extest := if s.dbgLevel < 3 then [] else d.extest }

/-- The policy fuse allows `level` for a key slot (Table 17.7). -/
def Debug.policyAllows (d : Debug) (slot level : Nat) : Bool :=
  if d.lifecycle = 0x30 then
    d.policy != 0 && bit d.policy (8 * slot + 7) && decide (level ≤ bits d.policy (8 * slot + 1) (8 * slot))
  else d.lifecycle == 0x10 || d.lifecycle == 0x20

/-- The nonce of the n-th step 1 as bytes. -/
def nonceBytes (n : Nat) : List Byte := leBytes 32 (Config.nonce n).toNat

/-- `DBG_UNLOCK` (R515, Table 17.9). -/
def opDbgUnlock (_ : Instant) (p : Packet) (s : State) : HRes :=
  let a := p.args
  let step := u8 a 0
  let level := u8 a 1
  let slot := u8 a 2
  if a.length ≠ (if step = 2 then 196 else 4) then .fail s .badLength 0x0004
  else if step = 0 ∨ 3 < step ∨ 3 < level ∨ 3 < slot ∨ u8 a 3 ≠ 0 ∨ (step = 2 ∧ level = 0) then .fail s .range 0
  else if step = 1 then
    let n := s.dbg.nonces
    .okBody (s.updDbg fun d => { d with nonces := n + 1, nonceValid := true, nonceTime := s.now })
      (nonceBytes n ++ leBytes 8 Config.serial.toNat)
  else if step = 3 then .ok (s.updDbg fun d => { d with level := 0 }).levelDrop
  else if s.dbg.nonceValid = false ∨ s.dbg.nonceTime + 60000000000 < s.now then .fail s .state 0x0101
  else
    let key := (a.drop 4).take 96
    let sig := (a.drop 100).take 96
    let msg := nonceBytes (s.dbg.nonces - 1) ++ leBytes 8 Config.serial.toNat ++ leBytes 1 level
    let s := s.updDbg fun d => { d with nonceValid := false }
    if !s.dbg.policyAllows slot level then .fail s .denied 0x0101
    else if !Config.debugKey slot key || s.dbg.revoked.getLsbD slot then .fail s .denied 0x0102
    else if !Config.debugSignature key msg sig then .fail s .denied 0x0103
    else .ok (((s.updDbg fun d => { d with level := level }).levelDrop).raiseDev 0x0C05 1 level)

/-- Largest `inst` of a signal (Table 17.10). -/
def tmuxInst : Nat → Nat
  | 1 | 2 | 3 | 4 | 5 => 63
  | 6 | 7 => 23
  | 0x0A => 7
  | 0x0B => 191
  | 0x0F => 12
  | _ => 0

/-- `inst` names an instance of the signal; `inst` of 0x0B is 3 × port + pin. -/
def tmuxOk (signal inst : Nat) : Bool := decide (signal ≤ 0x0F) && decide (inst ≤ tmuxInst signal)

/-- `TMUX_SELECT` (R517). -/
def opTmuxSelect (_ : Instant) (p : Packet) (s : State) : HRes :=
  .ofCheck s do
    let a := p.args
    need (a.length == 4) .badLength 0x0004
    need (decide (1 ≤ s.dbgLevel)) .denied 0x0104
    match fin? 16 (u8 a 0) with
    | none => .error (.range, 0)
    | some n =>
      need (tmuxOk (u8 a 1) (u8 a 2) && u8 a 3 == 0) .range 0
      return .ok (s.updDbg fun d =>
        { d with tmux := upd d.tmux n fun _ => (u8 a 1, u8 a 2), strobes := upd d.strobes n fun _ => none })

/-! ### Debug halt of an engine (R245, R516) -/

/-- Tollgate uses the port and holds it in `PERMIT` or `SS1` (R516). -/
def State.tgHolds (s : State) (p : Fin 64) : Bool :=
  s.tg.cfg.isSome && bit (s.sf P.sfPortsused) p.val
    && ((s.tg.ports[p]).st == .permit || (s.tg.ports[p]).st == .ss1)

/-- A port acts as `SAFE` on a debug halt: by `PT.HALTMODE`, or because Tollgate uses it (R516). -/
def State.haltSafe (s : State) (p : Fin 64) : Bool :=
  s.pt P.ptHaltmode p == 0 || (s.tg.cfg.isSome && bit (s.sf P.sfPortsused) p.val)

/-- A debugger halts an engine: level 2 or above, refused under R516. -/
def execEngineDebugHalt (e : Fin 24) (s : State) : Out :=
  s.main
    (if s.dbgLevel < 2 ∨ (s.eng[e]).halted = true ∨ (s.portsOwned e).any s.tgHolds = true then s
     else
       let ps := s.portsOwned e
       let s := s.updEng e fun x => { x with halted := true }
       ps.foldl (fun s p => s.haltPort p (s.haltSafe p)) s)

/-- A halted engine resumes dispatch. -/
def execEngineDebugResume (e : Fin 24) (s : State) : Out :=
  s.main
    (if s.dbgLevel < 2 ∨ (s.eng[e]).halted = false then s
     else
       let s := s.updEng e fun x => ({ x with halted := false, stepOne := false }).schedule
       (s.portsOwned e).foldl (fun s p => s.resumePort p) s)

/-! ### JTAG (R514, Table 17.8) -/

/-- Size of an engine memory in bytes (Table 5.1). -/
def engMemSize : EngMem → Nat
  | .plm => 0x10000 | .clmX => 0x8000 | .clmY => 0x8000 | .dlm => 0x20000

def Engine.memOf (x : Engine) : EngMem → Memory
  | .plm => x.plm | .clmX => x.clmX | .clmY => x.clmY | .dlm => x.dlm

def Engine.setMem (x : Engine) (k : EngMem) (m : Memory) : Engine :=
  match k with
  | .plm => { x with plm := m }
  | .clmX => { x with clmX := m }
  | .clmY => { x with clmY := m }
  | .dlm => { x with dlm := m }

/-- A boundary-scan cell that `EXTEST` can drive (R514). -/
def jpinDrivable : JPin → Bool
  | .pwm _ _ | .other _ => true
  | _ => false

/-- Bytes of Crossroads that a level 3 debugger may not write: the sealed-configuration buffer that Turnpike fills and the
detour area (log 26). -/
def turnpikeArea (off : Nat) : Bool := (decide (0x900000 ≤ off) && decide (off < 0x910000)) || decide (detourBase ≤ off)

/-- Level of a PWM pad: low under the pad block or the safe path, otherwise what `EXTEST` or the port drives (R380, R514). -/
def State.pwmPad (s : State) (p : Fin 64) (k : Fin 8) : Bool :=
  !(s.tg.pad.getLsbD p.val || s.boot.safePath) &&
    (match s.dbg.extest.find? (fun q => q.1 == .pwm p k) with
     | some q => q.2
     | none => (s.ports[p]).gate.getLsbD k.val)

/-- Level of a pin that a boundary-scan cell reads; none where the model holds no level of it (log 27). -/
def State.padLevel (s : State) : JPin → Option Bool
  | .pwm p k => some (s.pwmPad p k)
  | .gen p => some (s.tg.gen.getLsbD p.val)
  | .brk p => some (s.tg.brk.getLsbD p.val)
  | .so o => some (s.soPin o)
  | .tpo n => some (s.tpoPin n.val)
  | .other _ => none

/-- JTAG IDCODE (Table 19.11). -/
def idCode : Nat := 0x25120C35

/-- One access through the JTAG port; below its level it does nothing. `BYPASS`, `IDCODE` and `SAMPLE` need none. Route-core state that is read is a free value (log 27). -/
def State.jtag (s : State) : JtagOp → State
  | .bypass => s
  | .idcode => s.updDbg fun d => { d with jtag := leBytes 4 idCode }
  | .sample q =>
    match s.padLevel q with
    | some v => s.updDbg fun d => { d with jtag := leBytes 1 (b2n v) }
    | none =>
      let d := s.draw
      d.2.updDbg fun x => { x with jtag := leBytes 1 (d.1 % 2) }
  | .readEngine e m a n =>
    if s.dbgLevel < 1 then s
    else s.updDbg fun d => { d with jtag := ((s.eng[e]).memOf m).readN a.toNat (min n.toNat (engMemSize m - a.toNat)) }
  | .writeEngine e m a bs =>
    if s.dbgLevel < 2 then s
    else s.updEng e fun x => x.setMem m ((x.memOf m).writeN a.toNat (bs.take (engMemSize m - a.toNat)))
  | .stepEngine e =>
    if s.dbgLevel < 2 ∨ (s.eng[e]).halted = false then s else s.updEng e fun x => { x with stepOne := true }
  | .readXr off n =>
    if s.dbgLevel < 1 then s
    else s.updDbg fun d => { d with jtag := s.xrBytes off.toNat (min n.toNat (xrSize - off.toNat)) }
  | .writeXr off bs =>
    if s.dbgLevel < 3 ∨ (List.range bs.length).any (fun k => turnpikeArea (off.toNat + k)) then s
    else { s with xr := (s.xr.write off.toNat bs).clearBad off.toNat bs.length }
  | .readCore _ =>
    if s.dbgLevel < 1 then s
    else (let d := s.draw
          d.2.updDbg fun x => { x with jtag := leBytes 8 d.1 })
  | .haltCore rc => if s.dbgLevel < 2 then s else s.updDbg fun d => { d with rcHalted := d.rcHalted ||| BitVec.ofNat 4 (2 ^ rc.val) }
  | .stepCore _ => s
  | .resumeCore rc =>
    if s.dbgLevel < 2 then s else s.updDbg fun d => { d with rcHalted := d.rcHalted &&& ~~~(BitVec.ofNat 4 (2 ^ rc.val)) }
  | .extest pins => if s.dbgLevel < 3 then s else s.updDbg fun d => { d with extest := pins.filter fun q => jpinDrivable q.1 }

def execJtagDebugAccess (op : JtagOp) (s : State) : Out := s.main (s.jtag op)

end Sys2Proof.Machine
end

