-- ==== Sys2Proof/Machine/Verifier.lean ====
section
/-!
DEFINITION. The verifier of loop-engine program images: the checks of Table 5.18 and the figures C, H, haul words and w of R170
(R151 to R179).
-/
namespace Sys2Proof.Machine

/-! ### Fields of a code word (Tables 5.5, 5.6) -/

def wFmt (w : Nat) : Nat := bits w 63 62
def wAop (w : Nat) : Nat := if wFmt w ≤ 1 then bits w 61 56 else 0
def wFd (w : Nat) : Nat := bits w 55 51
def wFa (w : Nat) : Nat := bits w 50 46
def wFx (w : Nat) : Nat := bits w 40 36
def wMop (w : Nat) : Nat := if wFmt w = 0 then bits w 35 31 else 0
def wR (w : Nat) : Nat := bits w 30 26
def wAn (w : Nat) : Nat := bits w 25 22
def wMode (w : Nat) : Nat := bits w 21 19
def wCop (w : Nat) : Nat := if wFmt w = 0 then bits w 13 10 else 0
def wArg (w : Nat) : Nat := bits w 9 0
def wLcop (w : Nat) : Nat := if wFmt w = 1 then bits w 35 32 else 0
def wCond (w : Nat) : Nat := bits w 31 28
def wImm (w : Nat) : Nat := bits w 23 0

/-- `BR`, `CALL` or `RET`. -/
def wBranch (w : Nat) : Bool := wLcop w == 1 || wLcop w == 2 || wLcop w == 3
def wLoop (w : Nat) : Bool := wLcop w == 4 || wLcop w == 5
def wRpt (w : Nat) : Bool := wCop w == 1 || wCop w == 2
def wEnd (w : Nat) : Bool := wCop w == 6

/-- Words of a loop body. -/
def wBody (w : Nat) : Nat := wImm w / 65536 + 1

/-- Index of a branch target. -/
def wTarget (i w : Nat) : Int := (i : Int) + signed 24 (wImm w)

/-! ### Encoding (Tables 5.7 to 5.11) -/

def aopDefined (a : Nat) : Bool :=
  decide (a ≤ 0x16) || (decide (0x20 ≤ a) && decide (a ≤ 0x2E)) || a == 0x30 || a == 0x38 || a == 0x39 || a == 0x3A
    || a == 0x3C || a == 0x3D || a == 0x3E

def mopDefined (m : Nat) : Bool :=
  m == 0 || m == 1 || (decide (3 ≤ m) && decide (m ≤ 9)) || (decide (0xC ≤ m) && decide (m ≤ 0xF)) || m == 0x12 || m == 0x13

/-- The word uses no reserved format, opcode or field value. -/
def wordValid (w : Nat) : Bool :=
  let a := aopDefined (wAop w) && !((wAop w == 0x0D || wAop w == 0x2A) && wFx w % 4 == 3)
    && !(wAop w == 0x3A && decide (4 < wFx w))
  match wFmt w with
  | 0 =>
    let dbl := wMop w == 0x12 || wMop w == 0x13
    a && mopDefined (wMop w) && decide (wCop w ≤ 6)
      && (wMop w == 0 ||
          (decide (wMode w ≤ 5) && (decide (wMode w < 4) || decide (wAn w < 8)) && (!dbl || decide (wAn w < 8))
            && !(wMop w == 0x12 && wR w % 2 == 1) && !(wMop w == 0x13 && wR w == 31)))
      && !((wCop w == 3 || wCop w == 4) && wArg w % 4 == 3)
  | 1 => a && decide (1 ≤ wLcop w) && decide (wLcop w ≤ 5) && (wLoop w || decide (wCond w ≤ 8))
  | 2 => decide (bits w 61 58 ≤ 1) && bits w 50 32 == 0
  | _ => false

/-! ### Results of a word and the write clash of R164 -/

/-- Latency of an A-slot opcode that writes `v`fd (Table 5.7), 0 when it writes none. -/
def aopLatency (a : Nat) : Nat :=
  if a = 3 ∨ a = 0x16 ∨ a = 0x2B ∨ a = 0x2C then 2
  else if (1 ≤ a ∧ a ≤ 0x0C) ∨ a = 0x0E ∨ a = 0x28 ∨ a = 0x29 ∨ a = 0x38 ∨ a = 0x39 ∨ a = 0x3A ∨ a = 0x3D then 1
  else if a = 0x0F ∨ a = 0x2D ∨ a = 0x2E then 6
  else if (0x20 ≤ a ∧ a ≤ 0x27) ∨ a = 0x30 then 4
  else 0

/-- Registers a word writes with the latency of each: `v`n as n, `a`n as 32 + n. `win`: it accesses a Crossroads window, so that its
load acts with L = 1 (R172). -/
def wordResults (w : Nat) (win : Bool) : List (Nat × Nat) :=
  let a := wAop w
  let va := if wFmt w ≤ 1 ∧ aopLatency a ≠ 0 then [(wFd w, aopLatency a)] else []
  let aa := if wFmt w ≤ 1 ∧ (a = 0x3C ∨ a = 0x3E) then [(32 + wFd w % 16, 1)] else []
  let sx := if wFmt w ≤ 1 ∧ (a = 0x12 ∨ a = 0x24 ∨ a = 0x30) then [(46, 1)] else []
  let sy := if wFmt w ≤ 1 ∧ (a = 0x13 ∨ a = 0x25 ∨ a = 0x30) then [(47, 1)] else []
  let m := wMop w
  let dbl := m == 0x12 || m == 0x13
  let lm := if win then 1 else 4
  let mv := if m = 1 ∨ (4 ≤ m ∧ m ≤ 7) ∨ dbl then [(wR w, lm)] else if m = 3 then [(32 + wR w % 16, lm)] else []
  let md := if m = 0x12 then [(wR w + 1, 4)] else []
  let upd := m != 0 && (wMode w == 1 || wMode w == 3 || wMode w == 4 || wMode w == 5)
  let mp := if upd then [(32 + wAn w, 1)] ++ (if dbl then [(40 + wAn w % 8, 1)] else []) else []
  let im := if wFmt w = 2 then [if bits w 61 58 = 0 then (32 + bits w 56 53, 1) else (bits w 57 53, 1)] else []
  va ++ aa ++ sx ++ sy ++ mv ++ md ++ mp ++ im

/-- A code, its bound table, and the words that access a Crossroads window. -/
structure Code where
  ws : List Nat
  bounds : List (Nat × Nat)
  win : List Nat

def Code.word (c : Code) (i : Nat) : Nat := c.ws.getD i 0
def Code.bound? (c : Code) (i : Nat) : Option Nat := (c.bounds.find? (fun b => b.1 == i)).map (·.2)
def Code.idx (c : Code) : List Nat := List.range c.ws.length

/-- Largest count of a repeat or loop word (R170). -/
def Code.count (c : Code) (i : Nat) : Nat :=
  let w := c.word i
  if wCop w = 1 then wArg w % 256 + 1
  else if wLcop w = 4 then wImm w % 65536 + 1
  else (c.bound? i).getD 1

/-- Index `i` lies in a delay slot. -/
def Code.delaySlot (c : Code) (i : Nat) : Bool :=
  (decide (1 ≤ i) && wBranch (c.word (i - 1))) || (decide (2 ≤ i) && wBranch (c.word (i - 2)))

def Code.rptBody (c : Code) (i : Nat) : Bool := decide (1 ≤ i) && wRpt (c.word (i - 1))

/-- Loop words whose body holds index `i`. -/
def Code.enclosing (c : Code) (i : Nat) : List Nat :=
  c.idx.filter (fun j => wLoop (c.word j) && decide (j < i) && decide (i ≤ j + wBody (c.word j)))

/-- Control that R163 bans from delay slots and bodies. -/
def wBanned (w : Nat) : Bool :=
  wBranch w || wCop w == 3 || wCop w == 4 || wCop w == 5 || wCop w == 6

/-- Indices that may follow the words up to index `i`: the next word, and the first word of each loop whose body ends there and that
repeats; `skip` is a loop word that has just been skipped (R162). -/
def Code.past (c : Code) (i : Nat) (skip : Option Nat) : List Nat :=
  (i + 1) :: (c.idx.filter fun j =>
    wLoop (c.word j) && some j != skip && i == j + wBody (c.word j) && decide (1 < c.count j)).map (· + 1)

/-- The word two places before `i` when that is a branch: `i` is its second delay slot. -/
def Code.branchOf (c : Code) (i : Nat) : Option Nat := if decide (2 ≤ i) && wBranch (c.word (i - 2)) then some (i - 2) else none

/-- Indices that may follow a word that is no second delay slot (R159 to R162). -/
def Code.flow (c : Code) (i : Nat) : List Nat :=
  let w := c.word i
  let rep := if c.rptBody i && decide (1 < c.count (i - 1)) then [i] else []
  (if wEnd w then []
   else if wLcop w = 5 then (i + 1) :: c.past (i + wBody w) (some i)
   else if wCop w = 2 then (i + 1) :: c.past (i + 1) none
   else c.past i none) ++ rep

/-- Indices that may follow at the same call level: a `CALL` goes on after its return (R159). -/
def Code.level (c : Code) (i : Nat) : List Nat :=
  match c.branchOf i with
  | none => c.flow i
  | some b =>
    let w := c.word b
    (if wLcop w = 1 then [(wTarget b w).toNat] else []) ++ (if wLcop w = 2 ∨ wCond w ≠ 0 then [i + 1] else [])

/-- Every index that `f` reaches from `l` in `n` rounds. -/
def reach (f : Nat → List Nat) : Nat → List Nat → List Nat
  | 0, l => l
  | n + 1, l =>
    let l' := (l ++ l.flatMap f).eraseDups
    if l'.length = l.length then l else reach f n l'

/-- Words after which a `RET` at index `r` goes on: those behind the calls whose callee reaches it. -/
def Code.returns (c : Code) (r : Nat) : List Nat :=
  (c.idx.filter fun j =>
    wLcop (c.word j) == 2 && (reach c.level c.ws.length [(wTarget j (c.word j)).toNat]).contains r).map (· + 3)

/-- Indices that may follow index `i` in issue order (R159 to R162). -/
def Code.succ (c : Code) (i : Nat) : List Nat :=
  match c.branchOf i with
  | none => c.flow i
  | some b =>
    let w := c.word b
    let t := if wLcop w = 3 then c.returns b else [(wTarget b w).toNat]
    if wCond w = 0 then t else (i + 1) :: t

/-- Results of the word at an index. -/
def Code.results (c : Code) (i : Nat) : List (Nat × Nat) := wordResults (c.word i) (c.win.contains i)

/-- A result of register `r` due in `l` cycles meets another result of that register on some path from `i`. -/
def Code.clash (c : Code) (r : Nat) : Nat → Nat → Bool
  | 0, _ => false
  | 1, _ => false
  | l + 1, i => (c.succ i).any fun j => (c.results j).any (fun q => q.1 == r && q.2 == l) || c.clash r l j

/-- R164 holds for the word at `i`. -/
def Code.noClash (c : Code) (i : Nat) : Bool :=
  let rs := c.results i
  (rs.zipIdx.all fun q => rs.zipIdx.all fun q' => q.2 == q'.2 || q.1 != q'.1)
    && rs.all (fun q => !c.clash q.1 q.2 i)

/-! ### Paths and charges (R170, Table 5.13) -/

/-- Figures along a path: cycles, waits of R170, window accesses, longest hold-off. Of several paths the longest gives the window
accesses (R175), the others are the largest on any path. -/
structure Fig where
  c : Nat
  w : Nat
  win : Nat
  h : Nat

def Fig.add (a b : Fig) : Fig := ⟨a.c + b.c, a.w + b.w, a.win + b.win, max a.h b.h⟩
def Fig.sup (a b : Fig) : Fig :=
  ⟨max a.c b.c, max a.w b.w, if b.c < a.c then a.win else if a.c < b.c then b.win else max a.win b.win, max a.h b.h⟩

/-- Cycles beyond the one of issue that the window access of a word is charged: 63 for a load, 55 for a store. -/
def Code.winExtra (c : Code) (i : Nat) : Nat :=
  let m := wMop (c.word i)
  if !c.win.contains i then 0 else if m = 1 ∨ m = 3 then 63 else if m = 8 ∨ m = 9 then 55 else 0

/-- Charge of one word apart from `HWAIT` (Table 5.13): 64 for a window load, 56 for a window store, 6 for `END`, else 1; what a word
contains adds to its one cycle of issue (log 100). -/
def Code.charge (c : Code) (i : Nat) : Nat := 1 + c.winExtra i + (if wEnd (c.word i) then 5 else 0)

def Code.winCount (c : Code) (i : Nat) : Nat := if 0 < c.winExtra i then 1 else 0

/-- Cycles and window accesses of the straight run `[i, stop)`, repeats and loops at their bounds. -/
def Code.span (c : Code) : Nat → Nat → Nat → Nat × Nat
  | 0, _, _ => (0, 0)
  | f + 1, i, stop =>
    if stop ≤ i then (0, 0)
    else
      let w := c.word i
      if wLoop w then
        let b := c.span f (i + 1) (i + 1 + wBody w)
        let r := c.span f (i + 1 + wBody w) stop
        (1 + c.count i * b.1 + r.1, c.count i * b.2 + r.2)
      else if wRpt w then
        let r := c.span f (i + 2) stop
        (1 + c.count i * c.charge (i + 1) + r.1, c.count i * c.winCount (i + 1) + r.2)
      else
        let r := c.span f (i + 1) stop
        (c.charge i + r.1, c.winCount i + r.2)

/-- What can happen from a word on, with the channels started so far: a word from which a path leaves the code, figures to `END`,
figures to `RET` with the channels started there, the first such `RET`, and the deepest chain of calls, outermost first. -/
structure PathRes where
  bad : Option Nat
  fin : Option Fig
  rets : List (Nat × Fig)
  ret : Option Nat
  calls : List Nat

/-- A path leaves the code from the word at `i`. -/
def PathRes.leaves (i : Nat) : PathRes := ⟨some i, none, [], none, []⟩

/-- Nothing happens on this path. -/
def PathRes.none : PathRes := ⟨.none, .none, [], .none, []⟩

def supO : Option Fig → Option Fig → Option Fig
  | none, b => b
  | a, none => a
  | some a, some b => some (a.sup b)

/-- Merge figures of equal channel sets. -/
def mergeRet (l : List (Nat × Fig)) (q : Nat × Fig) : List (Nat × Fig) :=
  if l.any (fun x => x.1 == q.1) then l.map (fun x => if x.1 = q.1 then (x.1, x.2.sup q.2) else x) else q :: l

/-- The lower of two indices. -/
def lowest (a b : Option Nat) : Option Nat :=
  match a, b with
  | some x, some y => some (min x y)
  | some x, .none => some x
  | .none, y => y

def PathRes.join (a b : PathRes) : PathRes :=
  ⟨lowest a.bad b.bad, supO a.fin b.fin, b.rets.foldl mergeRet a.rets, lowest a.ret b.ret,
   if a.calls.length < b.calls.length then b.calls else a.calls⟩

/-- Put figures before a result. -/
def PathRes.after (f : Fig) (r : PathRes) : PathRes :=
  { r with fin := r.fin.map f.add, rets := r.rets.map (fun q => (q.1, f.add q.2)) }

/-- The results of a later word: `tab` holds those of `i + 1`, `i + 2`, …, each for the 8 channel sets. -/
def look (tab : List (List PathRes)) (i : Nat) (j : Int) (m : Nat) : PathRes :=
  if j ≤ i then .leaves i else ((tab[(j - i - 1).toNat]?).bind (fun l => l[m]?)).getD (.leaves i)

/-- Results of the word at `i` for the channel set `m` (R170). -/
def Code.paths (c : Code) (budget : Nat) (tab : List (List PathRes)) (i m : Nat) : PathRes :=
  let w := c.word i
  let one (n : Nat) : Fig := ⟨n, 0, c.winCount i, n⟩
  if wEnd w then { PathRes.none with fin := some (one (c.charge i)) }
  else if wBranch w then
    let s := c.span 3 (i + 1) (i + 3)
    let f : Fig := ⟨1 + s.1, 0, s.2, 1 + s.1⟩
    let fall : PathRes := if wCond w = 0 then .none else look tab i ((i : Int) + 3) m
    let taken : PathRes :=
      if wLcop w = 3 then { PathRes.none with rets := [(m, ⟨0, 0, 0, 0⟩)], ret := some i }
      else if wLcop w = 1 then look tab i (wTarget i w) m
      else
        let r := look tab i (wTarget i w) m
        r.rets.foldl (fun a q => a.join ((look tab i ((i : Int) + 3) q.1).after q.2))
          { r with rets := [], ret := .none, calls := i :: r.calls }
    if c.ws.length ≤ i + 2 then .leaves i else (fall.join taken).after f
  else if wLoop w then
    let b := c.span (c.ws.length + 1) (i + 1) (i + 1 + wBody w)
    let n := 1 + c.count i * b.1
    (look tab i ((i : Int) + 1 + wBody w) m).after ⟨n, 0, c.count i * b.2, n⟩
  else if wRpt w then
    let n := 1 + c.count i * c.charge (i + 1)
    (look tab i ((i : Int) + 2) m).after ⟨n, 0, c.count i * c.winCount (i + 1), n⟩
  else if wCop w = 3 then (look tab i ((i : Int) + 1) (m ||| 2 ^ (wArg w % 4) % 8)).after (one (c.charge i))
  else if wCop w = 4 ∧ bit m (wArg w % 4) = true then
    (look tab i ((i : Int) + 1) m).after ⟨48 * budget + c.winExtra i, 1, c.winCount i, c.charge i⟩
  else (look tab i ((i : Int) + 1) m).after (one (c.charge i))

/-- Results of all words from the last to the first; `n` words are still to do. -/
def Code.table (c : Code) (budget : Nat) : Nat → List (List PathRes) → List (List PathRes)
  | 0, tab => tab
  | n + 1, tab => c.table budget n ((List.range 8).map (c.paths budget tab n) :: tab)

/-- Results from an entry with no channel started. -/
def Code.fromEntry (c : Code) (budget i : Nat) : PathRes :=
  (((c.table budget c.ws.length [])[i]?).bind (fun l => l[0]?)).getD (.leaves i)

/-- A word reachable from an entry that starts a channel: a budget of 0 forbids it (Table 5.18). -/
def Code.startsHaul (c : Code) (i : Nat) : Option Nat :=
  let r := reach (fun j => (c.succ j).filter fun k => decide (k < c.ws.length)) c.ws.length [i]
  c.idx.find? fun j => r.contains j && wCop (c.word j) == 3

/-- A `CALL` that its own callee reaches: recursion (Table 5.18). -/
def Code.recursive (c : Code) (i : Nat) : Bool :=
  wLcop (c.word i) == 2 &&
    (reach (fun j => ((c.succ j) ++ c.level j).filter fun k => decide (k < c.ws.length)) c.ws.length
      [(wTarget i (c.word i)).toNat]).contains i

/-! ### The verdict -/

/-- A refusal of an image: the detail and the code byte offset. -/
abbrev Verdict := Except (Nat × Nat) (List (Nat × Nat × Nat × Nat))

def noCode : Nat := 0xFFFFFFFF

/-- Refuse with detail `d` at the first word of the code for which `f` holds. -/
def Code.refuse (c : Code) (d : Nat) (f : Nat → Bool) : Except (Nat × Nat) Unit :=
  match c.idx.find? f with
  | some i => .error (d, 8 * i)
  | none => .ok ()

/-- Section (offset, length) pairs of an image that must not overlap. -/
def disjoint : List (Nat × Nat) → Bool
  | [] => true
  | (o, l) :: rest => rest.all (fun q => l == 0 || q.2 == 0 || decide (o + l ≤ q.1) || decide (q.1 + q.2 ≤ o)) && disjoint rest

/-- A task declaration is in range (Table 5.15). -/
def declValid (d : List Byte) (dlm : Nat) : Bool :=
  let tr := u8 d 4
  let k := u16 d 6
  let t := u32 d 8
  let dd := u32 d 12
  decide (tr ≤ 4) && decide (u8 d 5 ≤ 1) && (if tr = 1 then decide (1 ≤ k) && decide (k ≤ 1024) else k == 0)
    && (if tr = 2 then decide (5000 ≤ t) && decide (t ≤ 4000000) else t == 0)
    && (tr != 2 || decide (dd ≤ t))
    && u32 d 16 % 16 == 0 && u32 d 20 % 16 == 0 && decide (u32 d 20 ≤ 4096) && decide (u32 d 16 + u32 d 20 ≤ dlm)
    && decide (u32 d 24 ≤ 16384) && rsvZero d 28 4

/-- The header of an image is in range (Table 5.14). -/
def headerValid (im : List Byte) (id : Nat) : Bool :=
  let n := u8 im 12
  let nb := u8 im 13
  let secs : List (Nat × Nat) :=
    [(0, 64), (u32 im 16, u32 im 20), (u32 im 24, u32 im 28), (u32 im 32, u32 im 36), (u32 im 40, u32 im 44),
     (u32 im 48, 32 * n), (u32 im 52, 4 * nb)]
  u32 im 0 == 0x50454C58 && u16 im 4 == 1 && u16 im 6 == id && decide (1 ≤ n) && decide (n ≤ 8) && rsvZero im 14 2
    && u32 im 20 % 8 == 0 && decide (0 < u32 im 20) && decide (u32 im 20 ≤ 65536)
    && u32 im 28 % 16 == 0 && decide (u32 im 28 ≤ 32768) && u32 im 36 % 16 == 0 && decide (u32 im 36 ≤ 32768)
    && u32 im 44 % 16 == 0 && decide (u32 im 44 + 1280 * n ≤ 131072)
    && u32 im 56 == im.length && decide (im.length ≤ 266240)
    && secs.all (fun q => decide (q.1 + q.2 ≤ im.length)) && disjoint secs
    && (List.range n).all (fun k => declValid ((im.drop (u32 im 48 + 32 * k)).take 32) (u32 im 44))
    && (List.range nb).all (fun k =>
        decide (u16 im (u32 im 52 + 4 * k) < u32 im 20 / 8) && decide (1 ≤ u16 im (u32 im 52 + 4 * k + 2)))

/-- The code of an image. -/
def codeOf (im : List Byte) (win : List Nat) : Code :=
  { ws := (List.range (u32 im 20 / 8)).map (fun i => u64 im (u32 im 16 + 8 * i))
    bounds := (List.range (u8 im 13)).map (fun k => (u16 im (u32 im 52 + 4 * k), u16 im (u32 im 52 + 4 * k + 2)))
    win := win }

/-- Loops nest deeper than three levels, or a body ends beyond the body that encloses it (R162), or a call recurs. -/
def Code.badNest (c : Code) (j : Nat) : Bool :=
  (wLoop (c.word j) &&
    (decide (3 ≤ (c.enclosing j).length) || (c.enclosing j).any (fun o => decide (o + wBody (c.word o) < j + wBody (c.word j)))))
  || c.recursive j

/-- Verify an image (R180): its checks in the order of Table 5.18, and C, H, haul words and w of each task. Which words access
a Crossroads window is an operand (log 15). -/
def verifyImage (im : List Byte) (id : Nat) (win : List Nat) : Verdict := do
  let crc := crc32c (im.take 60 ++ zeros 4 ++ im.drop 64)
  if crc.toNat ≠ u32 im 60 then .error (0x0101, noCode)
  if !headerValid im id then .error (0x0102, noCode)
  let c := codeOf im win
  c.refuse 0x0103 fun i => !wordValid (c.word i)
  c.refuse 0x0104 fun i => c.delaySlot i && (wBanned (c.word i) || wLoop (c.word i))
  c.refuse 0x0105 fun i =>
    (c.rptBody i && (wBanned (c.word i) || wLoop (c.word i) || !((wFmt (c.word i) == 0 && wCop (c.word i) == 0)
      || wFmt (c.word i) == 2)))
      || (!(c.enclosing i).isEmpty && wBanned (c.word i))
      || ((wLcop (c.word i) == 1 || wLcop (c.word i) == 2) && !(c.enclosing (wTarget i (c.word i)).toNat).isEmpty)
  c.refuse 0x0106 c.badNest
  c.refuse 0x0107 fun i => (wLcop (c.word i) == 1 || wLcop (c.word i) == 2) && decide (wTarget i (c.word i) ≤ i)
  c.refuse 0x0108 fun i => (wCop (c.word i) == 2 || wLcop (c.word i) == 5) && (c.bound? i).isNone
  let n := u8 im 12
  let decl (k : Nat) := (im.drop (u32 im 48 + 32 * k)).take 32
  let res := (List.range n).map (fun k => (decl k, c.fromEntry (u32 (decl k) 24) (u32 (decl k) 0 / 8)))
  if (List.range n).any (fun k => u32 (decl k) 0 % 8 != 0 || decide (u32 im 20 ≤ u32 (decl k) 0)) then .error (0x010B, noCode)
  let at_ (det : Nat) (l : List Nat) : Except (Nat × Nat) Unit := match l with | i :: _ => .error (det, 8 * i) | [] => .ok ()
  at_ 0x0106 (res.filterMap fun r => r.2.calls[4]?)
  at_ 0x0109 (res.filterMap fun r => lowest r.2.bad r.2.ret)
  c.refuse 0x010A fun i => !c.noClash i
  at_ 0x010C (res.filterMap fun r => if u32 r.1 24 = 0 then c.startsHaul (u32 r.1 0 / 8) else none)
  return res.map fun r =>
    let f := r.2.fin.getD ⟨0, 0, 0, 0⟩
    (92 + f.c, f.h, u32 r.1 24 + f.win, f.w)

end Sys2Proof.Machine
end

