-- ==== Sys2Proof/Machine/Images.lean ====
section
/-!
DEFINITION. The program store: `LEP_LOAD`, the end of an image's verification, and `LEP_INFO` (R179 to R181, Tables 5.14 to 5.20).
-/
namespace Sys2Proof.Machine

/-- Declaration and worst-case figures of one task of a program (Tables 5.15, 5.19). -/
structure TaskFig where
  trigger : Nat
  k : Nat := 0
  t : Nat := 0
  d : Nat := 0
  stateLen : Nat
  stateOff : Nat := 0
  budget : Nat
  entry : Nat := 0
  c : Nat
  h : Nat
  haul : Nat
  w : Nat := 0
  port : Bool := true
  deriving DecidableEq, Repr

/-- Footprint of a program with its tasks (Table 5.20). -/
structure ProgFig where
  id : Nat
  version : Nat
  plm : Nat
  cx : Nat
  cy : Nat
  /-- DLM bytes with the save areas of R168 -/
  dlm : Nat
  tasks : List TaskFig
  deriving DecidableEq, Repr

/-- The standard programs (Table 5.20); trigger as Table 4.3, no T or D of their own (log 12). -/
def stdProg (id : Nat) : Option ProgFig :=
  let f (tr c h plm cx cy dlm sb haul : Nat) : Option ProgFig :=
    some { id := id, version := (Config.stdVersion id).toNat, plm := plm, cx := cx, cy := cy, dlm := dlm,
           tasks := [{ trigger := tr, stateLen := sb, budget := haul, c := c, h := h, haul := haul }] }
  match id with
  | 1 => f 0 1560 240 6144 1024 1024 4096 256 12
  | 2 => f 0 1180 180 5120 512 512 3072 192 12
  | 3 => f 1 2400 360 4096 512 512 3072 128 16
  | 4 => f 1 960 120 12288 256 256 6144 512 24
  | _ => none

/-- Figures of a verified user program. -/
def Program.fig (p : Program) : ProgFig :=
  let im := p.image
  let n := u8 im 12
  { id := p.id, version := u32 im 8, plm := u32 im 20, cx := u32 im 28, cy := u32 im 36, dlm := u32 im 44 + 1280 * n
    tasks := (List.range n).map fun k =>
      let d := (im.drop (u32 im 48 + 32 * k)).take 32
      let g := p.figures.getD k (0, 0, 0, 0)
      { trigger := u8 d 4, k := u16 d 6, t := u32 d 8, d := if u32 d 12 = 0 then u32 d 8 else u32 d 12,
        stateOff := u32 d 16, stateLen := u32 d 20, budget := u32 d 24, entry := u32 d 0, port := bit (u8 d 5) 0,
        c := g.1, h := g.2.1, haul := g.2.2.1, w := g.2.2.2 } }

/-- Figures of a program that is loaded or standard. -/
def State.prog (s : State) (id : Nat) : Option ProgFig :=
  match s.cfg.programs.find? (fun p => p.id == id) with
  | some p => some p.fig
  | none => stdProg id

def userId (n : Nat) : Bool := decide (0x0100 ≤ n) && decide (n ≤ 0x7FFF)

/-- `LEP_LOAD` (R180, Table 5.18). -/
def opLepLoad (_ : Instant) (p : Packet) (s : State) : HRes :=
  .ofCheck s do
    let a := p.args
    need (decide (16 ≤ a.length) && decide (a.length ≤ 4080)) .badLength 0x0004
    let id := u16 a 0
    let off := u32 a 4
    let total := u32 a 8
    let data := a.drop 12
    need (userId id) .range 0x0103
    need (rsvZero a 2 2) .range 0
    let open_ := s.cfg.lepLoad
    need (off == 0 || (match open_ with | some o => o.1 == id | none => true)) .busy 0x0101
    let got := if off = 0 then [] else (match open_ with | some o => o.2.2.1 | none => [])
    need (off == got.length) .range 0x0101
    need (decide (total ≤ 266240) && total % 4 == 0 && decide (off + data.length ≤ total)) .range 0x0102
    need (!s.cfg.tasks.any (fun t => t.prog == id)) .state 0x0101
    let others := s.cfg.programs.filter (fun q => q.id != id)
    need (decide (others.length < 64) &&
      decide ((others.map (fun q => q.image.length)).foldl (· + ·) 0 + total ≤ 4194304)) .queueFull 0x0101
    let all := got ++ data
    if all.length = total then
      return .accepted (s.updCfg fun c => { c with lepLoad := none, lepVerify := c.lepVerify ++ [(id, all, s.refOf p)] })
    else return .ok (s.updCfg fun c => { c with lepLoad := some (id, total, all, s.refOf p) })

/-- Verification of the oldest complete image ends (R180): `DONE` with the image in the store in place of an earlier one, or
`DENIED` with the code byte offset (R181). Which words access a Crossroads window is an operand (log 15). -/
def execImageVerifyComplete (win : List Nat) (s : State) : Out :=
  s.main
    (match s.cfg.lepVerify with
     | [] => s
     | (id, im, r) :: rest =>
       let s := s.updCfg fun c => { c with lepVerify := rest }
       match verifyImage im id win with
       | .ok fs =>
         (s.updCfg fun c =>
           { c with programs := c.programs.filter (fun q => q.id != id) ++ [{ id := id, image := im, figures := fs }] }).complete
           r .done 0 s.now
       | .error (d, off) => s.complete r .denied d s.now (leBytes 4 off))

/-- `LEP_INFO` (Table 5.19). -/
def opLepInfo (_ : Instant) (p : Packet) (s : State) : HRes :=
  .ofCheck s do
    let a := p.args
    need (a.length == 4) .badLength 0x0004
    need (rsvZero a 2 2) .range 0
    match s.prog (u16 a 0) with
    | none => .error (.range, 0x0103)
    | some g =>
      return .okBody s
        (leBytes 2 g.id ++ leBytes 2 g.tasks.length ++ leBytes 4 g.version ++ leBytes 4 g.plm ++ leBytes 4 g.cx
          ++ leBytes 4 g.cy ++ leBytes 4 g.dlm
          ++ (g.tasks.zipIdx.flatMap fun t =>
                leBytes 1 t.2 ++ leBytes 1 t.1.trigger ++ leBytes 2 t.1.k ++ leBytes 4 t.1.t ++ leBytes 4 t.1.d
                  ++ leBytes 4 t.1.c ++ leBytes 4 t.1.h ++ leBytes 4 t.1.haul ++ leBytes 4 t.1.w))

end Sys2Proof.Machine
end

