-- ==== Sys2Proof/Machine/Feedback.lean ====
section
/-!
DEFINITION. Feedback units and probes (R257 to R274).
-/
namespace Sys2Proof.Machine

/-! ### Who uses a unit -/

/-- The axis whose parameters a unit decodes with, and its mode: that of its own port, or mode 5 for the follower that names it
as step source (R257, R339). -/
def State.unitUse (s : State) (p : Fin 64) : Option (Fin 512 × Nat) :=
  match s.axisOf p with
  | some i => some (i, s.ax P.axFbmode i)
  | none => (allAxes.find? fun i => s.stepSource i == some p).map fun i => (i, 5)

/-- The axis in mode 2 whose Hall lines are wired to the pins of port `q` (R257). -/
def State.hallUser (s : State) (q : Fin 64) : Option (Fin 512 × Fin 64) :=
  (allAxes.find? fun i => (s.portOf i).isSome && s.ax P.axFbmode i == 2 && s.ax P.axHallport i == q.val).bind fun i =>
    (s.portOf i).map fun p => (i, p)

/-- The axis that a unit serves: by its own mode, or as the Hall companion of a unit in mode 2. -/
def State.unitAxis (s : State) (p : Fin 64) : Option (Fin 512) :=
  match s.unitUse p with
  | some x => some x.1
  | none => (s.hallUser p).map (·.1)

/-- `FBA` as an output (R257, R265): driven in mode 4 only, an input (none) otherwise. It is high between frames; in a frame it is low
from the extremum on and clocks at `AX.SSIFREQ`, so that sample k, half a clock after its rising edge, falls at k + 1 clocks
(DEDUCED, log 107). -/
def State.fbaOut (s : State) (p : Fin 64) : Option Bool :=
  match s.unitUse p with
  | some (i, 4) =>
    some (match s.fb[p].frameOpen with
      | some (t, _) => (s.now - t) * s.ax P.axSsifreq i / 500000000 % 2 == 1
      | none => true)
  | _ => none

/-! ### Counting (R262 to R264, R267) -/

/-- Count one edge: sign and stamp. -/
def Feedback.countEdge (f : Feedback) (sgn : Int) (t : Rat) : Feedback :=
  let c := f.count + sgn
  { f with count := c, edges := (t, c, sgn) :: f.edges, dirNeg := decide (sgn < 0) }

/-- A counting error (R262): counted within `AX.QERRWIN`, and `QUAD_FAULT` beyond `AX.QERRMAX`. -/
def State.countError (s : State) (p : Fin 64) (i : Fin 512) : State :=
  let f := s.fb[p]
  let fresh := decide (f.errT0 + s.ax P.axQerrwin i ≤ s.now)
  let n := if fresh then 1 else f.errs + 1
  let s := s.updFb p fun f =>
    { f with
      errs := n, errT0 := if fresh then s.now else f.errT0, errTotal := satInc 32 f.errTotal, quadErr := true }
  if s.ax P.axQerrmax i < n ∧ s.activeAxisFault 0x0201 i = false then
    let s := (s.updFb p fun f => { f with refLost := true }).updHome i fun h => { h with referenced := false }
    (s.raiseAxis i 0x0201 (s.ax P.axFbclass i)).prereqChange i
  else s

/-- State (A, B) of the quadrature (R262). -/
def quadState (a b : Bool) : Nat := if a then (if b then 2 else 1) else if b then 3 else 0

/-- Place of a Hall code in the positive sequence 5, 1, 3, 2, 6, 4 (R264). -/
def hallPlace (c : Nat) : Option Nat := if c = 0 ∨ 7 ≤ c then none else some ([5, 1, 3, 2, 6, 4].idxOf c)

def hallCode (a b z : Bool) : Nat := b2n a + 2 * b2n b + 4 * b2n z

/-- Count a step of ±1, +1 counting as σ, or an error for any other; `m` is the number of states. -/
def State.countStep (s : State) (p : Fin 64) (i : Fin 512) (σ : Int) (d m : Nat) (t : Rat) : State :=
  if d = 0 then s
  else if d = 1 then s.updFb p fun f => f.countEdge σ t
  else if d + 1 = m then s.updFb p fun f => f.countEdge (-σ) t
  else s.countError p i

/-- The sense of `AX.FBDIR`, which inverts quadrature and step counts (R262, R267). -/
def State.fbSign (s : State) (i : Fin 512) : Int := if s.ax P.axFbdir i = 1 then -1 else 1

/-- An index event (R263): recorded and offered to homing and to latches; index capture takes it once the input has been inactive since
it was armed (R261). -/
def State.indexEvent (s : State) (p : Fin 64) (i : Fin 512) (stamp : Nat) : State :=
  let t := stampNs stamp
  let s := s.updFb p fun f => { f with idxCount := f.count, idxStamp := t, index := true }
  let s := if s.axes[i].st == .homing && s.axes[i].home.idxT.isSome && s.axes[i].home.idxQuiet then s.updHome i fun h => { h with indexes := t :: h.indexes } else s
  s.offerAxis i 0x40 ⟨stamp, true, false⟩

/-- Note a Hall code and its edge. -/
def State.noteHall (s : State) (p : Fin 64) (c : Nat) (t : Rat) : State :=
  s.updFb p fun f =>
    if f.hall = c then f
    else
      let neg := match hallPlace f.hall, hallPlace c with
        | some x, some y => decide ((x + 5) % 6 = y)
        | _, _ => false
      { f with hall := c, hallEdge := some (t, c, neg) }

/-- New filtered levels of the pins of a unit, stamped (R259, R262 to R267). -/
def State.inputChange (s : State) (p : Fin 64) (a b z : Bool) (stamp : Nat) : State :=
  let f := s.fb[p]
  let t := stampNs stamp
  let s := s.updFb p fun f => { f with a := a, b := b, z := z }
  let s := match s.hallUser p with
    | some (_, q) => s.noteHall q (hallCode a b z) t
    | none => s
  match s.unitUse p with
  | none => s
  | some (i, mode) =>
    if mode = 1 ∨ mode = 2 then
      let s := s.countStep p i (s.fbSign i) ((quadState a b + 4 - quadState f.a f.b) % 4) 4 t
      let s := if z then s else s.updAxis i fun x =>
        { x with
          latches := x.latches.map fun l => if l.armed && l.cfg.source == 0x40 then { l with seenInactive := true } else l
          home := { x.home with idxQuiet := true } }
      if z && !f.z && (s.ax P.axZqual i == 0 || (a && b)) then s.indexEvent p i stamp else s
    else if mode = 3 then
      let c := hallCode a b z
      let old := f.hall
      let s := s.noteHall p c t
      let s :=
        if c = old then s
        else match hallPlace old, hallPlace c with
          | some x, some y => s.countStep p i 1 ((y + 6 - x) % 6) 6 t
          | _, _ => s.countError p i
      s.prereqChange i
    else if mode = 5 then
      let rise := a && !f.a
      let fall := !a && f.a
      let e := s.ax P.axStepedge i
      if (rise && (e == 0 || e == 2)) || (fall && (e == 1 || e == 2)) then
        s.countStep p i (s.fbSign i) (if b then 1 else 3) 4 t
      else s
    else s

/-- Line time in ns of a tick that has passed, at the nominal rate. -/
def State.tickNs (s : State) (t : Nat) : Rat := s.nowRat - ((s.ticks - t : Nat) : Rat) * mkRat 5 2

/-- A raw level whose stable run began at `t` has held for N filter clocks of `clk` ns (R259). -/
def State.stableFor (s : State) (t : Rat) (n : Nat) (clk : Rat) : Bool := decide (t + (n : Rat) * clk ≤ s.nowRat)

/-- That run began within N clocks of the tick from which the filter runs: the level is taken, and this is no edge (R259; DEDUCED, log
105). -/
def State.acquires (s : State) (t : Rat) (since n : Nat) (clk : Rat) : Bool := decide (t < s.tickNs since + (n : Rat) * clk)

/-- The filtered levels after a reset or switch-over, without an edge. -/
def State.acquireInputs (s : State) (p : Fin 64) (a b z : Bool) : State :=
  let s := s.updFb p fun f => { f with a := a, b := b, z := z, hall := hallCode a b z }
  let s := match s.hallUser p with
    | some (_, q) => s.updFb q fun f => { f with hall := hallCode a b z }
    | none => s
  match s.unitAxis p with
  | some i => s.prereqChange i
  | none => s

/-- A change of the pins of a unit comes through its filter with N = `AX.FBFILT` of PERCLK, 5 ns (R259). -/
def State.filterInputs (s : State) (p : Fin 64) (a b z : Bool) (stamp : Nat) : State :=
  let n := match s.unitAxis p with | some i => s.ax P.axFbfilt i | none => 0
  let t := stampNs stamp
  if !s.stableFor t n 5 then s
  else if s.acquires t s.fb[p].since n 5 then s.acquireInputs p a b z
  else s.inputChange p a b z stamp

def execFeedbackInputChange (p : Fin 64) (a b z : Bool) (tag : BitVec 64) (k : Fin 13) (s : State) : Out :=
  s.main (s.filterInputs p a b z (tag.toNat * 65536 + 5120 * k.val))

/-- Hall code 0 or 7 has been held for 1 µs (R264). -/
def execHallInvalidTimer (p : Fin 64) (s : State) : Out :=
  s.main
    (match s.unitUse p with
     | some (i, 3) =>
       if s.fb[p].hall = 0 ∨ s.fb[p].hall = 7 then (s.raiseAxis i 0x0202 (s.ax P.axFbclass i)).prereqChange i else s
     | _ => s)

/-! ### Chatter and stuck inputs (R260, R261) -/

/-- Axes whose homing reference is a probe, in the phases that count transitions (R344). -/
def State.homersOn (s : State) (n : Nat) : List (Fin 512) :=
  allAxes.filter fun i => s.axes[i].st == .homing && (s.refInput i s.axes[i].home.method).1 == n
    && s.axes[i].home.method != 0 && s.axes[i].home.method != 3 && s.axes[i].home.method != 5

/-- Count transitions of a homing input. -/
def State.addTransitions (s : State) (n k : Nat) : State :=
  (s.homersOn n).foldl (fun s i => s.updHome i fun h =>
    if h.phase = .creep ∨ h.phase = .finish then { h with transitions := min 255 (h.transitions + k) } else h) s

/-- A 10 ms interval of an input ends with `n` rejected transitions (R260): `CHATTER`, at most once per 100 ms and unit. -/
def State.chatterWindow (s : State) (x : FbIn) (n : Nat) : State :=
  match x with
  | .fb p k =>
    match s.unitAxis p with
    | some i =>
      if s.ax P.axChatmax i < n ∧ s.mayRaise 0x0206 p.val = true then (s.noteRaise 0x0206 p.val).raiseAxis i 0x0206 1 k.val
      else s
    | none => s
  | .probe m =>
    let s := s.addTransitions m.val n
    let u := 0x100 + m.val
    if s.dv P.dvPrbchatmax < n ∧ s.mayRaise 0x0206 u = true then (s.noteRaise 0x0206 u).raiseDev 0x0206 1 u else s

def execChatterWindow (x : FbIn) (n : BitVec 16) (s : State) : Out := s.main (s.chatterWindow x n.toNat)

/-- The stuck time has passed since a function was armed at tick `t` (R261). -/
def State.stuckSince (s : State) (t tmo : Nat) : Bool := decide (2 * tmo ≤ 5 * (s.ticks - t))

/-- A latch of the axis is armed on an input that has been active ever since, for the stuck time (R261). -/
def State.latchStuck (s : State) (i : Fin 512) (src tmo : Nat) (level : Bool) : Bool :=
  s.axes[i].latches.toList.any fun l =>
    l.armed && l.cfg.source == src && !l.seenInactive && !inactiveFor l.cfg.edge level && decide (l.since + tmo ≤ s.now)

/-- Index capture is armed on an input that has been active ever since, for the stuck time. -/
def State.captureStuck (s : State) (i : Fin 512) : Bool :=
  let h := s.axes[i].home
  s.axes[i].st == .homing && !h.idxQuiet && (match h.idxT with | some t => s.stuckSince t (s.ax P.axStucktmo i) | none => false)

/-- A search or creep pass of homing is armed on a reference input that has been active ever since, for the stuck time. -/
def State.passStuck (s : State) (i : Fin 512) (n : Nat) : Bool :=
  let h := s.axes[i].home
  (s.homersOn n).contains i && (h.phase == .search || h.phase == .creep) && h.after.isNone && !h.seenInactive && s.refActive i
    && s.stuckSince h.armT (s.dv P.dvPrbstuck)

/-- An input that was active when a function armed on it is still active after the stuck time of that arming (R261). -/
def State.inputStuck (s : State) (x : FbIn) : State :=
  match x with
  | .fb p k =>
    if k.val ≠ 2 ∨ s.fb[p].z = false then s
    else match s.axisOf p with
      | some i =>
        let capture := s.captureStuck i
        let s := if s.latchStuck i 0x40 (s.ax P.axStucktmo i) true || capture then s.raiseAxis i 0x0207 1 2 else s
        if capture && s.axes[i].home.method == 3 then s.updHome i fun h => { h with stuck := true } else s
      | none => s
  | .probe n =>
    allAxes.foldl (fun s i =>
      let armed := s.latchStuck i n.val (s.dv P.dvPrbstuck) (s.probes[n]).level
      let homing := s.passStuck i n.val
      let s := if armed || homing then s.raiseAxis i 0x0207 1 (0x100 + n.val) else s
      if homing then s.updHome i fun h => { h with stuck := true } else s) s

def execInputStuckTimeout (x : FbIn) (s : State) : Out := s.main (s.inputStuck x)

/-! ### SSI (R265, R266) -/

/-- A frame starts at every `AX.SSIEVERY`-th sample extremum of the port, counted from its first, once `AX.SSIRECOV` has passed since
the last ended (R265). -/
def execSsiFrameStart (p : Fin 64) (fbb : Bool) (s : State) : Out :=
  s.main
    (match s.unitUse p with
     | some (i, 4) =>
       let f := s.fb[p]
       let x := s.ports[p]
       if x.extT ≠ s.now ∨ (x.samples + 1) % s.ax P.axSsievery i ≠ 0 then s
       else if f.frameOpen.isSome || (decide (f.frameEnd ≠ 0) && decide (s.now < f.frameEnd + s.ax P.axSsirecov i)) then s
       else s.updFb p fun f => { f with frameOpen := some ((s.ports[p]).extT, fbb) }
     | _ => s)

/-- Gray code of `b` bits to binary. -/
def grayDecode (w : Nat) : Nat → Nat
  | 0 => 0
  | b + 1 => if bit w b then 2 ^ (b + 1) - 1 - grayDecode w b else grayDecode w b

/-- Δ of R266: the difference modulo 2^b as a signed b-bit value. -/
def ssiDelta (b w w' : Nat) : Int := signed b ((w + 2 ^ b - w') % 2 ^ b)

/-- The checks of R266 on a frame: the detail of the first that fails. -/
def State.ssiCheck (s : State) (i : Fin 512) (f : Feedback) (fbb start : Bool) (w : Nat) (err : Bool) : Option Nat :=
  if !fbb then some 1
  else if start then some 2
  else if bit (s.ax P.axSsifmt i) 1 && !err then some 3
  else
    match f.word with
    | some w' =>
      if s.ax P.axSsijump i ≠ 0 ∧ s.ax P.axSsijump i < (ssiDelta (s.ax P.axSsibits i) w w').natAbs then some 4 else none
    | none => none

/-- Of older frames, newest first, those within the longest `AX.VELWIN` of 100 ms, and the newest in any case (R271). -/
def keepWindow (t : Nat) : List (Nat × Int) → List (Nat × Int)
  | [] => []
  | e :: l => e :: l.filter fun x => decide (t ≤ x.1 + 100000000)

/-- A frame completes (R266): start bit, word as sampled, error bit. -/
def State.ssiEnd (s : State) (p : Fin 64) (start : Bool) (raw : Nat) (err : Bool) : State :=
  match s.unitUse p, s.fb[p].frameOpen with
  | some (i, 4), some (t, fbb) =>
    let b := s.ax P.axSsibits i
    let w := if bit (s.ax P.axSsifmt i) 0 then grayDecode (raw % 2 ^ b) b else raw % 2 ^ b
    let f := s.fb[p]
    let s := s.updFb p fun f => { f with frameOpen := none, frameEnd := s.now }
    match s.ssiCheck i f fbb start w err with
    | some det =>
      let s := s.updFb p fun f => { f with frameErr := true, refused := f.refused + 1 }
      if s.ax P.axFberrmax i ≤ f.refused + 1 ∧ s.activeAxisFault 0x0203 i = false then (s.raiseAxis i 0x0203 (s.ax P.axFbclass i) det).prereqChange i else s
    | none =>
      let pos : Int := match f.word, f.frames.head? with
        | some w', some (_, q) => q + ssiDelta b w w'
        | _, _ => w
      let first := f.word.isNone
      let s := s.updFb p fun f =>
        { f with frameErr := false, refused := 0, word := some w
                 frames := (t, pos) :: if first then [] else keepWindow t f.frames }
      let s := if first then s.updHome i fun h => { h with referenced := true } else s
      s.prereqChange i
  | _, _ => s

/-- Samples 1 to b as a word, MSB first (R265). -/
def ssiWord (samples b : Nat) : Nat := (List.range b).foldl (fun w k => 2 * w + b2n (samples.testBit (k + 1))) 0

/-- The samples of a frame (R265): the start bit, the word, and the error bit, which follows the word. -/
def execSsiFrameEnd (p : Fin 64) (samples : BitVec 50) (s : State) : Out :=
  s.main
    (let b := match s.unitUse p with | some (i, _) => s.ax P.axSsibits i | none => 0
     s.ssiEnd p (samples.toNat.testBit 0) (ssiWord samples.toNat b) (samples.toNat.testBit (b + 1)))

/-! ### Resolver (R269) -/

/-- Radians of a u32 angle. -/
def radOf (th : Int) : Rat := (th : Rat) * 2 * Config.pi / 4294967296

/-- asin through the vector angle. -/
def asinOf (x : Rat) : Rat := Config.atan2 x (ratSqrt (1 - x * x))

/-- The `SDC` edge of a port nearest to an instant in units of 0.5 ns, five to a tick; of two equally near the earlier. -/
def State.nearSdc (s : State) (p : Fin 64) (x : Nat) : Nat :=
  let on (t : Nat) : Bool := s.sdcPhase p t == 0 || s.sdcPhase p t == s.sdcHigh p
  let t0 := x / 5
  let lo := ((List.range 41).find? fun d => decide (d ≤ t0) && on (t0 - d)).map (t0 - ·)
  let hi := ((List.range 41).find? fun d => on (t0 + 1 + d)).map (t0 + 1 + ·)
  match lo, hi with
  | some a, some b => if x - 5 * a ≤ 5 * b - x then a else b
  | some a, none => a
  | none, some b => b
  | none, none => t0

/-- Tick of the centre of the resolver window that has been decimated last (R269): on a positive peak of the excitation (R268) delayed by
`AX.RESDELAY`, rounded to the nearest `SDC` edge; none before the first. -/
def State.resolverTick (s : State) (p : Fin 64) (i : Fin 512) : Option Nat :=
  let per := s.dv P.dvRexPeriod (s.ax P.axRexsel i)
  let dec := (3 * s.pt P.ptSdosr p / 2 + 4) * s.pt P.ptSddiv p
  let m := if per = 0 then 0 else s.ticks / per
  ((List.range 5).filterMap fun d =>
    if d ≤ m then some (s.nearSdc p (5 * (per / 4 + (m - d) * per) + 2 * s.ax P.axResdelay i)) else none).find? fun c =>
      decide (c + dec ≤ s.ticks)

/-- e of R269; where both signals are 0 the rule gives it no value, and it is free (log 6). -/
def resolverError (sn cs a th : Rat) (n : Nat) : Rat :=
  if a = 0 then fpToRat (BitVec.ofNat 32 n) else (sn * Config.cos th - cs * Config.sin th) / (a / 2)

/-- One window of the resolver, centred at `t` (R269). -/
def State.resolverWindow (s : State) (p : Fin 64) (y2 y3 t : Nat) : State :=
  match s.unitUse p with
  | some (i, 6) =>
    let n3 : Rat := ((s.pt P.ptSdosr p ^ 3 : Nat) : Rat)
    let sn := (y2 : Rat) / n3 - mkRat 1 2
    let cs := (y3 : Rat) / n3 - mkRat 1 2
    let a := 2 * ratSqrt (sn * sn + cs * cs)
    let out := decide (a < s.axF P.axResampmin i) || decide (s.axF P.axResampmax i < a)
    let k := if out then s.fb[p].ampOut + 1 else 0
    let s := s.updFb p fun f =>
      { f with ampOut := k, lockCnt := if 3 ≤ k then 0 else f.lockCnt, lossCnt := if 3 ≤ k then 0 else f.lossCnt }
    let (n, s) := if a = 0 then s.draw else (0, s)
    if 3 ≤ k then (if k = 3 then (s.raiseAxis i 0x0204 (s.ax P.axFbclass i)).prereqChange i else s)
    else
      let f := s.fb[p]
      let tx : Rat := (s.dv P.dvRexPeriod (s.ax P.axRexsel i) : Rat) * mkRat 5 2000000000
      let bw := 2 * Config.pi * s.axF P.axResbw i
      let th := radOf f.th
      let e := resolverError sn cs a th n
      let w := f.w + bw * bw * tx * e
      let dth := w * tx + 2 * bw * tx * e
      let ae := ratAbs (asinOf e)
      let lim := s.axF P.axRestrkmax i
      let lockCnt := if ae < lim / 4 then f.lockCnt + 1 else 0
      let lossCnt := if lim < ae then f.lossCnt + 1 else 0
      let lost := f.resLock && decide (3 ≤ lossCnt)
      let s := s.updFb p fun f =>
        { f with
          w := fp32 w, th := f.th + (dth * 4294967296 / (2 * Config.pi)).floor, resT := t, lockCnt := min lockCnt 100
          lossCnt := min lossCnt 3, resLock := if lost then false else f.resLock || decide (100 ≤ lockCnt) }
      let s := if lost then s.raiseAxis i 0x0205 (s.ax P.axFbclass i) else s
      s.prereqChange i
  | _ => s

def execResolverWindow (p : Fin 64) (w2 w3 : BitVec 192) (s : State) : Out :=
  s.main
    (match s.unitUse p with
     | some (i, 6) =>
       match s.resolverTick p i with
       | some c => s.resolverWindow p (s.decimate p w2.toNat) (s.decimate p w3.toNat) (s.tickNs c).floor.toNat
       | none => s
     | _ => s)

/-! ### Position and velocity at the extremum (R270 to R272) -/

/-- The newest counted edge at or before `t`. -/
def Feedback.edgeAt (f : Feedback) (t : Rat) : Option (Rat × Int × Int) := f.edges.find? fun e => decide (e.1 ≤ t)

/-- The count at instant `t`. -/
def Feedback.countAt (f : Feedback) (t : Rat) : Int :=
  match f.edgeAt t with
  | some e => e.2.1
  | none => match f.edges.getLast? with
    | some e => e.2.1 - e.2.2
    | none => f.count

/-- |v̂| limited to one count in `d` ns; an edge at the extremum itself sets no limit (R271). -/
def slowVel (v d : Rat) : Rat := if d = 0 then ratAbs v else ratMin (ratAbs v) (1000000000 / d)

/-- Raw velocity of the counting modes (R271, step 1). -/
def Feedback.countVel (f : Feedback) (t win : Rat) : Rat :=
  let es := f.edges.filter fun e => decide (e.1 ≤ t) && decide (t - win ≤ e.1)
  match es.head?, es.getLast?, f.edgeAt t with
  | some e1, some e0, _ =>
    if 2 ≤ es.length then ((e1.2.1 - e0.2.1 : Int) : Rat) / ((e1.1 - e0.1) / 1000000000)
    else (e1.2.2 : Rat) * slowVel f.v (t - e1.1)
  | _, _, some e => (e.2.2 : Rat) * slowVel f.v (t - e.1)
  | _, _, none => 0

/-- Raw velocity of mode 4 (R271, step 2). -/
def Feedback.frameVel (f : Feedback) (t win : Rat) : Rat :=
  match f.frames with
  | (t1, p1) :: rest =>
    let inWin := rest.filter fun e => decide (t - win ≤ (e.1 : Rat))
    let old := match inWin.getLast? with
      | some e => some e
      | none => rest.head?
    match old with
    | some (t0, p0) => ((p1 - p0 : Int) : Rat) / (((t1 : Rat) - (t0 : Rat)) / 1000000000)
    | none => 0
  | [] => 0

/-- p_k in counts before the reference offset, from the filtered velocity (R270). -/
def Feedback.posAt (f : Feedback) (mode : Nat) (t imax : Rat) : Rat :=
  let dt (t0 : Rat) : Rat := (t - t0) / 1000000000
  if mode = 4 then
    match f.frames.head? with
    | some (t0, p) => (p : Rat) + f.v * dt (t0 : Rat)
    | none => 0
  else if mode = 6 then (f.th : Rat) / 65536 + f.w * 65536 / (2 * Config.pi) * dt (f.resT : Rat)
  else
    let lim : Rat := mkRat 65535 65536
    let fr := match f.edgeAt t with
      | some e =>
        if t - e.1 ≤ imax ∧ ratSign f.v = (e.2.2 : Rat) then ratClamp (-lim) lim (f.v * dt e.1) else 0
      | none => 0
    (f.countAt t : Rat) + fr

/-- `FBSTAT` (Table 8.2). -/
def State.fbstat (s : State) (p : Fin 64) (i : Fin 512) (mode : Nat) : Nat :=
  let f := s.fb[p]
  ofBools [s.unitValid i p mode, f.quadErr, f.index, f.frameErr, f.extrap, f.resLock, f.chatter, f.dirNeg]
    + (if mode = 2 ∨ mode = 3 then f.hall * 256 else 0) + b2n f.refLost * 2048 + mode * 4096 + min f.errs 255 * 65536

/-- Form p_k and v̂ for the extremum `t` of a unit (R270, R271). -/
def State.formSample (s : State) (p : Fin 64) (i : Fin 512) (mode : Nat) (t : Nat) : State :=
  let f := s.fb[p]
  let win : Rat := s.ax P.axVelwin i
  let tr : Rat := t
  let raw := if mode = 4 then f.frameVel tr win else if mode = 6 then f.w * 65536 / (2 * Config.pi) else f.countVel tr win
  let tau := s.axF P.axVeltau i
  let dt : Rat := (tr - (f.lastExt : Rat)) / 1000000000
  let v := if tau = 0 then raw else f.v + (1 - Config.exp (-(dt / tau))) * (raw - f.v)
  s.updFb p fun f =>
    let f := { f with
      v := v, lastExt := t
      extrap := mode == 4 && (match f.frames.head? with | some (t0, _) => t0 != t | none => true)
      edges := (f.edges.filter fun (e : Rat × Int × Int) => decide (tr - 100000000 ≤ e.1)) ++
        ((f.edges.filter fun (e : Rat × Int × Int) => decide (e.1 < tr - 100000000)).head?).toList }
    { f with pk := toPos64 (f.posAt mode tr (s.ax P.axInterpmax i : Rat) + f.offset), vk := toVel64 v }

/-- The sample of a unit (R270): position, velocity and `FBSTAT` into the record; milestones and compares of the axis. `rejected`: an
input has had a rejected transition since the previous record (Table 8.2). -/
def State.feedbackSample (s : State) (p : Fin 64) (rejected : Bool) : State :=
  match s.unitUse p with
  | none => s
  | some (i, mode) =>
    let t := (s.ports[p]).extT
    let f := s.fb[p]
    let s := s.updFb p fun f => { f with chatter := rejected }
    let s := if decide (f.errT0 + s.ax P.axQerrwin i ≤ s.now) then s.updFb p fun f => { f with errs := 0 } else s
    let s := if mode = 0 then s else s.formSample p i mode t
    let st := s.fbstat p i mode
    let s := s.updFb p fun f => { f with stat := st, quadErr := false, index := false, chatter := false }
    let f := s.fb[p]
    let s := s.updPort p fun x => { x with latPos := f.pk, latVel := f.vk }
    if s.portOf i ≠ some p then s
    else
      let s := s.prereqChange i
      if mode = 0 then s
      else
        let s := s.updAxis i fun a => { a with hist := keep64 (t, f.pk, f.vk) a.hist }
        let tE : Rat := (t : Rat) + ((s.ax P.axFbfilt i + 2) * 5 : Nat)
        (s.evalCompares i false f.pk f.vk (t : Rat) tE (tE + s.sampleNs p)).stones i

def execFeedbackSample (p : Fin 64) (rejected : Bool) (s : State) : Out := s.main (s.feedbackSample p rejected)

/-! ### Probes (R273, R274, R324, R344) -/

/-- A limit input becomes active while the commanded velocity points towards it (R324). -/
def State.checkLimits (s : State) (n : Nat) : State :=
  allAxes.foldl (fun s i =>
    if !s.bound i || s.axes[i].st == .homing then s
    else
      let v := s.axes[i].prof.cmdVel
      let s := if s.ax P.axLimposin i == n && s.inputActive i n 1 && decide (0 < v) then
        s.raiseAxis i 0x0502 (s.ax P.axLimclass i) 1 else s
      if s.ax P.axLimnegin i == n && s.inputActive i n 2 && decide (v < 0) then
        s.raiseAxis i 0x0502 (s.ax P.axLimclass i) 2 else s) s

/-- Every latch of every axis changes by `f`. -/
def State.mapLatches (s : State) (f : Latch → Latch) : State :=
  { s with axes := s.axes.map fun a => { a with latches := a.latches.map f } }

/-- A recorded edge is offered to every armed latch and to homing (R344, R370). -/
def State.offerProbe (s : State) (n : Fin 32) (e : PendEdge) : State :=
  let s := s.mapLatches fun l => l.offer n.val e
  let s := s.addTransitions n.val 1
  (s.homersOn n.val).foldl (fun s i =>
    s.updHome i fun h =>
      if s.refActive i && h.seenInactive && (h.phase == HomePhase.search || h.phase == HomePhase.creep) then
        { h with
          edges := stampNs e.stamp :: h.edges
          idxT := if h.phase == .creep && h.method == 2 && h.idxT.isNone then some s.ticks else h.idxT
          idxQuiet := if h.idxT.isNone then !s.indexLevel i else h.idxQuiet }
      else h) s

/-- `DV.PRBFILT` of a probe. -/
def State.probeFilt (s : State) (n : Fin 32) : Nat := s.dv P.dvPrbfilt / 256 ^ n.val % 256

/-- A filtered edge of a probe (R273): recorded when `DV.PRBEDGE` selects it and the spacing allows, lost when the FIFO is
full (R274). -/
def State.probeEdge (s : State) (n : Fin 32) (level : Bool) (stamp : Nat) (tickOnly : Bool) : State :=
  let x := s.probes[n]
  let gap := (s.probeFilt n + 1) * 163840
  let spaced := match x.lastEdge with
    | some t => decide (t + gap ≤ stamp)
    | none => true
  let s := s.updProbe n fun x => { x with level := level }
  let s := s.mapLatches fun l =>
    if l.armed && l.cfg.source == n.val && inactiveFor l.cfg.edge level then { l with seenInactive := true } else l
  let s := (s.homersOn n.val).foldl (fun s i =>
    if s.refActive i then s else s.updHome i fun h => { h with seenInactive := true }) s
  let s :=
    if spaced && s.probeRecords n.val (if level then 1 else 2) then
      (if 16 ≤ x.fifo.length then
        let s := s.updProbe n fun x => { x with lost := satInc 32 x.lost }
        if s.mayRaise 0x0208 n.val then (s.noteRaise 0x0208 n.val).raiseDev 0x0208 1 n.val else s
      else
        (s.updProbe n fun x => { x with fifo := x.fifo ++ [⟨stamp, level, tickOnly⟩], lastEdge := some stamp }).offerProbe n ⟨stamp, level, tickOnly⟩)
    else s
  s.checkLimits n.val

/-- A change of a probe comes through its filter with N = `DV.PRBFILT` of PWMCLK, 2.5 ns (R259). -/
def State.filterProbe (s : State) (n : Fin 32) (level : Bool) (stamp : Nat) (tickOnly : Bool) : State :=
  let t := stampNs stamp
  if !s.stableFor t (s.probeFilt n) (mkRat 5 2) then s
  else if s.acquires t 0 (s.probeFilt n) (mkRat 5 2) then s.updProbe n fun x => { x with level := level }
  else s.probeEdge n level stamp tickOnly

def execProbeEdge (n : Fin 32) (level : Bool) (tag : BitVec 64) (k : Fin 13) (tickOnly : Bool) (s : State) : Out :=
  s.main (s.filterProbe n level (tag.toNat * 65536 + 5120 * k.val) tickOnly)

end Sys2Proof.Machine
end

