-- ==== Sys2Proof/Machine/Time.lean ====
section
/-!
DEFINITION. Line time (chapter 13): the servo (R423 to R426), steps (R428, R429), `TIME_GET`, `TIME_STEP`, PTP port events and
transmit stamps (R417 to R422).
-/
namespace Sys2Proof.Machine

def State.updTime (s : State) (f : TimeUnit → TimeUnit) : State := { s with time := f s.time }
def State.updEth (s : State) (e : Fin 4) (f : EthPort → EthPort) : State :=
  s.updNet fun n => { n with ports := upd n.ports e f }

def allEth : List (Fin 4) := List.finRange 4

/-! ### The counter as one number -/

/-- Line time in units of 2⁻¹⁶ ns. -/
def TimeUnit.fine (t : TimeUnit) : Int := ((t.sec * 1000000000 + t.ns) * 65536 + t.frac : Nat)

/-- 2⁶⁴ ns in units of 2⁻¹⁶ ns: the bound of R414. -/
def timeEnd : Int := 2 ^ 80

/-- The counter set to a value in range. -/
def TimeUnit.setFine (t : TimeUnit) (x : Int) : TimeUnit :=
  let n := x.toNat
  { t with sec := n / 65536 / 1000000000, ns := n / 65536 % 1000000000, frac := n % 65536 }

/-- The addend for a frequency correction (R416). -/
def addendOf (y : Rat) : Nat := (roundAway (2748779069440 * (1 - y))).toNat

/-- Sync interval T_s in s (R418). -/
def State.syncS (s : State) : Rat := pow2 (signed 8 (s.dv P.dvTssynclog))

/-! ### `TIME_EVENT` -/

/-- The grandmaster as `TIME_GET` reports it, and `stepsRemoved`. -/
def State.gmNow (s : State) : Nat × Nat :=
  match s.time.servo with
  | .freeRun => (0, 0)
  | .grandmaster => (Config.clockIdentity.toNat, 0)
  | _ => (s.time.gm, s.time.steps)

/-- `TIME_EVENT` (Table 13.6). -/
def State.timeEvent (s : State) (kind : Nat) (value : Int) (gm : Nat) : State :=
  s.event evTime 0xFFFF
    (leBytes 1 kind ++ leBytes 1 s.time.servo.code ++ zeros 6 ++ leInt 8 value ++ leBytes 8 s.now ++ leBytes 8 gm)

/-- Enter a servo state (Table 13.2): counts start again, and `TIME_EVENT` kind 1. -/
def State.setServo (s : State) (x : Servo) : State :=
  let s := s.updTime fun t => { t with servo := x, since := s.ticks, limited := false, inWin := 0, outWin := 0, okCnt := 0 }
  let s := if x = .holdover then s.raiseDev 0x0802 1 else s
  s.timeEvent 1 0 s.gmNow.1

/-! ### Steps (R429) -/

/-- A stamp in ns moved by `d` units of 2⁻¹⁶ ns. -/
def shiftNs (d : Int) (t : Nat) : Nat := ((t : Int) + d / 65536).toNat

/-- A rational stamp in ns moved. -/
def shiftRat (d : Int) (t : Rat) : Rat := t + (d : Rat) / 65536

def shiftStamps (d : Int) (l : List (Nat × Int × Int)) : List (Nat × Int × Int) := l.map fun x => (shiftNs d x.1, x.2)

def MotionCmd.shift (d : Int) (m : MotionCmd) : MotionCmd :=
  { m with at_ := if m.timed then m.at_ else shiftNs d m.at_ }

/-- Time tags that the motion of an axis has taken over move by Δ: its plan, path, compare schedules, sample histories and what
waits without a tag of its own; and the program's references to line time. -/
def Axis.shiftTime (d : Int) (a : Axis) : Axis :=
  let pr := a.prof
  { a with
    prof := { pr with
      plan := { pr.plan with t0 := shiftRat d pr.plan.t0 }, relT := shiftRat d pr.relT
      next := pr.next.map (MotionCmd.shift d), limitSince := pr.limitSince.map (shiftNs d) }
    coord := { a.coord with
      path := a.coord.path.map fun r =>
        { r with tStart := r.tStart.map (shiftNs d), segs := r.segs.map fun g => { g with tEnd := shiftNs d g.tEnd } }
      remote := a.coord.remote.map fun x => (shiftNs d x.1, x.2.1, x.2.2.1, x.2.2.2.1, shiftNs d x.2.2.2.2) }
    compares := a.compares.map fun c =>
      { c with sched := c.sched.map fun x => (shiftRat d x.1, x.2), setting := c.setting.map fun x => (shiftNs d x.1, x.2)
               clearing := c.clearing.map fun x => (shiftNs d x.1, x.2) }
    latches := a.latches.map fun l => { l with arming := l.arming.map fun x => (shiftNs d x.1, x.2), since := shiftNs d l.since }
    step := { a.step with catchT0 := shiftNs d a.step.catchT0 }
    cur := { a.cur with
      alignT0 := shiftNs d a.cur.alignT0, voltAt := a.cur.voltAt.map (shiftNs d), modAt := a.cur.modAt.map (shiftNs d)
      hallMark := shiftRat d a.cur.hallMark }
    pos := { a.pos with
      tSet := shiftNs d a.pos.tSet, spSince := shiftNs d a.pos.spSince, curSince := shiftNs d a.pos.curSince
      satAt := a.pos.satAt.map (shiftNs d), warnAt := a.pos.warnAt.map (shiftNs d) }
    net := { a.net with
      t := if a.net.t = 0 then 0 else shiftNs d a.net.t, owned := a.net.owned.map fun x => (shiftNs d x.1, x.2)
      sent := shiftStamps d a.net.sent }
    hist := shiftStamps d a.hist, spHist := shiftStamps d a.spHist }

/-- A port's references to line time: the next record carries them on the new base. -/
def Port.shiftTime (d : Int) (x : Port) : Port :=
  { x with extT := shiftNs d x.extT, prevExtT := shiftNs d x.prevExtT, appliedT := shiftNs d x.appliedT, latT := shiftNs d x.latT
           forceNext := x.forceNext.map fun f => (f.1.map fun t => (if t.2 then t.1 else shiftNs d t.1, t.2), f.2) }

/-- A feedback unit's references to line time. -/
def Feedback.shiftTime (d : Int) (f : Feedback) : Feedback :=
  { f with
    errT0 := shiftNs d f.errT0, lastExt := shiftNs d f.lastExt, resT := shiftNs d f.resT, frameEnd := shiftNs d f.frameEnd
    idxStamp := shiftRat d f.idxStamp, hallEdge := f.hallEdge.map fun x => (shiftRat d x.1, x.2)
    edges := f.edges.map fun (x : Rat × Int × Int) => (shiftRat d x.1, x.2)
    frames := f.frames.map fun (x : Nat × Int) => (shiftNs d x.1, x.2)
    frameOpen := f.frameOpen.map fun x => (shiftNs d x.1, x.2) }

/-- t_set in both slots of every setpoint mailbox. -/
def shiftBoxes (d : Int) (x : Xr) : Xr :=
  allAxes.foldl (fun x i =>
    [0, 1].foldl (fun x k =>
      let at_ := spBox i.val + 16 + k * 48
      let t := leNat (x.read at_ 8)
      if t = 0 then x else x.write at_ (leBytes 8 (shiftNs d t))) x) x

def Can.shiftTime (d : Int) (c : Can) : Can :=
  { c with
    mark := shiftNs d c.mark
    missedAt := c.missedAt.map (shiftNs d)
    refDue := c.refDue.map fun x => (x.1, shiftNs d x.2)
    queue := c.queue.map fun x => { x with at_ := shiftNs d x.at_ } }

/-- Step the counter by `d` units of 2⁻¹⁶ ns and everything that R429 moves with it; `TIME_EVENT` kind 3. -/
def State.stepTime (s : State) (d : Int) : State :=
  let s : State := { s with
    time := s.time.setFine (s.time.fine + d)
    axes := s.axes.map (Axis.shiftTime d)
    ports := s.ports.map (Port.shiftTime d)
    fb := s.fb.map (Feedback.shiftTime d)
    outs := s.outs.map fun o =>
      { o with last := o.last.map fun x => (shiftRat d x.1, x.2), pulses := o.pulses.map fun x => (x.1, x.2.1, shiftNs d x.2.2) }
    xr := shiftBoxes d s.xr
    can := s.can.map (Can.shiftTime d)
    wm := { s.wm with stepped := s.wm.st == .running || s.wm.st == .post }
    faults := { s.faults with lastRaise := s.faults.lastRaise.map fun x => (x.1, shiftNs d x.2) } }
  s.timeEvent 3 (roundAway ((d : Rat) / 65536)) s.gmNow.1

/-- The result of a step lies outside the range of R414. -/
def State.stepOut (s : State) (d : Int) : Bool :=
  let x := s.time.fine + d
  decide (x < 0) || decide (timeEnd ≤ x)

/-- `TIME_JUMP_REFUSED` with |θ| in µs. -/
def State.jumpFault (s : State) (us : Nat) : State := s.raiseDev 0x0801 1 (min us (2 ^ 32 - 1))

/-- |θ| in whole µs. -/
def thetaUs (th : Int) : Nat := th.natAbs / 65536 / 1000

/-- A refused jump: reported, and `HOLDOVER` (R425). -/
def State.refuseJump (s : State) (th : Int) : State :=
  ((s.jumpFault (thetaUs th)).timeEvent 2 (roundAway ((th : Rat) / 65536)) s.gmNow.1).setServo .holdover

/-! ### Measurements (R423 to R425) -/

/-- θ in seconds. -/
def thetaS (th : Int) : Rat := (th : Rat) / 65536 / 1000000000

/-- The law of R423: I, y and the addend. -/
def State.servoLaw (s : State) (th : Int) : State :=
  let ts := s.syncS
  let wn := 2 * Config.pi * s.dvF P.dvTsbw
  let kp := 2 * s.dvF P.dvTsdamp * wn
  s.updTime fun t =>
    let i := t.integ + thetaS th * ts
    let y := ratClamp (-(mkRat 500 1000000)) (mkRat 500 1000000) (kp * thetaS th + wn * wn * i)
    { t with integ := i, y := y, addend := addendOf y }

/-- |θ| against a limit in ns. -/
def thetaWithin (th : Int) (ns : Nat) : Bool := decide (th.natAbs ≤ ns * 65536)

/-- A measurement is used in `LOCKING` or `LOCKED`: the law, and the counts of Table 13.2. -/
def State.useTheta (s : State) (th : Int) : State :=
  let s := s.servoLaw th
  let inside := thetaWithin th (s.dv P.dvTslockwin)
  let s := s.updTime fun t =>
    { t with inWin := if inside then t.inWin + 1 else 0, outWin := if inside then 0 else t.outWin + 1 }
  match s.time.servo with
  | .locking => if 16 ≤ s.time.inWin then s.setServo .locked else s
  | .locked => if 16 ≤ s.time.outWin then s.setServo .locking else s
  | _ => s

/-- Acquisition (Table 13.2): one Sync in `ACQUIRE`, the counter stepped by −θ, then `LOCKING`; not made when it would leave the
range of R414. -/
def State.acquire (s : State) (th : Int) : State :=
  if s.stepOut (-th) then s.jumpFault (2 ^ 32 - 1)
  else
    let s := (s.setServo .acquire).stepTime (-th)
    (s.updTime fun t => { t with integ := 0, y := 0, addend := addendOf 0 }).setServo .locking

/-- A measurement in `LOCKING` or `LOCKED` (R425). -/
def State.lockedTheta (s : State) (th : Int) (tbi : Nat) (phase : Int) : State :=
  let changed := match s.time.tbi with | some t => t != tbi | none => false
  let jump := s.dv P.dvTsjump
  if changed then
    (if thetaWithin (th + phase) jump then
      (if s.stepOut phase then s.jumpFault (2 ^ 32 - 1)
       else (s.stepTime phase).useTheta (th + phase))
     else s.refuseJump th)
  else if thetaWithin th jump then s.useTheta th
  else s.refuseJump th

/-- A measurement in `HOLDOVER`. -/
def State.holdTheta (s : State) (th : Int) : State :=
  let n := if thetaWithin th (s.dv P.dvTsjump) then s.time.okCnt + 1 else 0
  let s := s.updTime fun t => { t with okCnt := n }
  if n = 4 then s.setServo .locking else s

/-- Link delay of a port with its `delayAsymmetry` (R420), in ns. -/
def State.linkDelay (s : State) (e : Fin 4) : Int :=
  ((s.net.ports[e]).delay : Int) + signed 32 ((itemsOf 4 (s.dv P.dvTsasym) 4).getD e.val 0)

/-- A Sync of the slave port (R419): θ = local time − grandmaster time, `gmTimeBaseIndicator` and `lastGmPhaseChange`, the last in
2⁻¹⁶ ns. Grandmaster time at its arrival is the time that Sync and Follow_Up carry and the delay of the link (R418, R420). -/
def State.syncMeasure (s : State) (e : Fin 4) (gmTime : Nat) (tbi : Nat) (phase : Int) : State :=
  if s.time.servo = .grandmaster then s
  else
    let th := s.time.fine - ((gmTime : Int) + s.linkDelay e * 65536)
    let s' := s.updTime fun t => { t with theta := th, synced := true, syncAt := s.ticks }
    let s' := match s.time.servo with
      | .freeRun => s'.acquire th
      | .locking | .locked => s'.lockedTheta th tbi phase
      | .holdover => s'.holdTheta th
      | _ => s'
    s'.updTime fun t => { t with tbi := some tbi }

/-- A Sync is accepted on the slave port only. -/
def execSyncReceived (e : Fin 4) (gmTime : BitVec 96) (tbi : BitVec 16) (phase : BitVec 96) (s : State) : Out :=
  s.main
    (let s := s.updEth e fun x => { x with rx := satInc 32 x.rx }
     if s.dv P.dvEthMode e.val = 0 ∨ s.time.slave ≠ some e then s
     else s.syncMeasure e gmTime.toNat tbi.toNat phase.toInt)

/-- No Sync for 3 Sync intervals (Table 13.2). -/
def execSyncTimeout (s : State) : Out :=
  s.main
    (if ((s.ticks - s.time.syncAt : Nat) : Rat) < 3 * s.syncS * 400000000 then s
     else
       let s := s.updTime fun t => { t with synced := false }
       match s.time.servo with
       | .locking | .locked => s.setServo .holdover
       | _ => s)

/-- `DV.TSHOLDMAX` reached in `HOLDOVER` (R426). -/
def execHoldoverLimit (s : State) : Out :=
  s.main
    (if s.time.servo = .holdover ∧ s.time.limited = false ∧ s.dv P.dvTsholdmax * 400000000 ≤ s.ticks - s.time.since then
       ((s.updTime fun t => { t with limited := true }).raiseDev 0x0803 1).timeEvent 5 0 s.gmNow.1
     else s)

/-- `portState` of a port after a selection: 9 slave, 7 passive, 6 master, 3 for a port that is off. -/
def State.portRole (s : State) (slave : Option (Fin 4)) (passive : BitVec 4) (e : Fin 4) : Nat :=
  if s.dv P.dvEthMode e.val = 0 then 3 else if slave = some e then 9 else if passive.getLsbD e.val then 7 else 6

/-- The selection of the best master clock algorithm (Table 13.2): another grandmaster through a slave port, or this device, which
`DV.TSROLE` must allow. -/
def State.bmca (s : State) (sel : Option (Fin 4 × Nat × Nat)) (passive : BitVec 4) : State :=
  let slave := sel.map (·.1)
  let s := s.updNet fun n =>
    { n with ports := Vector.ofFn fun e => { n.ports[e] with ptp := s.portRole slave passive e } }
  let old := s.time.gm
  let own := Config.clockIdentity.toNat
  match sel with
  | some (e, gm, st) =>
    let fresh := old != gm || s.time.servo == .grandmaster
    let s := s.updTime fun t => { t with slave := some e, gm := gm, steps := st }
    let s := if s.time.servo = .grandmaster then s.setServo .locking else s
    if fresh then s.timeEvent 4 0 gm else s
  | none =>
    if s.dv P.dvTsrole = 0 ∨ s.time.servo = .grandmaster then s.updTime fun t => { t with slave := none }
    else
      let s := s.updTime fun t => { t with slave := none, gm := own, steps := 0, y := 0, addend := addendOf 0, synced := false }
      (s.setServo .grandmaster).timeEvent 4 0 own

/-- Byway runs the algorithm; while it is out, port roles stay as they were (R419). -/
def execBmcaSelection (sel : Option (Fin 4 × BitVec 64 × BitVec 16)) (passive : BitVec 4) (s : State) : Out :=
  s.main (if s.boot.bywayUp then s.bmca (sel.map fun x => (x.1, x.2.1.toNat, x.2.2.toNat)) passive else s)

/-! ### PPS (R417) -/

/-- An edge on `PPS_IN`: stamped, and the measurement of a disciplined grandmaster. -/
def execPpsInEdge (tag : BitVec 64) (k : Fin 13) (s : State) : Out :=
  s.main
    (let st := tag.toNat * 65536 + 5120 * k.val
     let s := s.updTime fun t => { t with ppsIn := st }
     if s.time.servo = .grandmaster ∧ s.dv P.dvTsppsin = 1 then
       (let sec : Int := 1000000000 * 65536
        let r := (st : Int) % sec
        let th := if 2 * r < sec then r else r - sec
        (s.updTime fun t => { t with theta := th }).servoLaw th)
     else s)

/-- `PPS_OUT` rises at a whole second of line time and falls 10 ms later. -/
def execPpsOutSecond (rise : Bool) (s : State) : Out :=
  s.main (if rise = decide (s.time.ns < 10000000) then s.updTime fun t => { t with pps := rise } else s)

/-! ### `TIME_GET`, `TIME_STEP` -/

/-- Seconds in the present servo state. -/
def State.servoSeconds (s : State) : Nat := min ((s.ticks - s.time.since) / 400000000) (2 ^ 32 - 1)

/-- θ in ns as an i32, saturating. -/
def State.thetaI32 (s : State) : Int := satInt (-(2 ^ 31)) (2 ^ 31 - 1) (roundAway ((s.time.theta : Rat) / 65536))

/-- y in units of 10⁻⁹ as FP32. -/
def State.yPpb (s : State) : Word := ratToFp (s.time.y * 1000000000)

/-- `gmTimeBaseIndicator` as `TIME_GET` reports it. -/
def State.tbiNow (s : State) : Nat :=
  match s.time.servo with
  | .grandmaster => s.time.ownTbi
  | _ => s.time.tbi.getD 0

/-- `TIME_GET` (Table 13.5). -/
def opTimeGet (_ : Instant) (p : Packet) (s : State) : HRes :=
  .ofCheck s do
    need p.args.isEmpty .badLength 0x0004
    let ps := match s.time.slave with | some e => (s.net.ports[e]).ptp | none => 0
    return .okBody s
      (leBytes 1 s.time.servo.code ++ leBytes 1 ps ++ leBytes 2 s.gmNow.2 ++ leBytes 8 s.now ++ leBytes 2 s.time.frac ++ zeros 2
        ++ leInt 4 s.thetaI32 ++ leBytes 4 s.yPpb.toNat ++ leBytes 4 s.servoSeconds ++ leBytes 8 s.gmNow.1
        ++ leBytes 2 s.tbiNow ++ zeros 6)

/-- `TIME_STEP` (R428, Tables 13.3, 13.4). -/
def opTimeStep (_ : Instant) (p : Packet) (s : State) : HRes :=
  .ofCheck s do
    need (p.args.length == 12) .badLength 0x0004
    let mode := u8 p.args 0
    let v := i64 p.args 4
    need (decide (mode ≤ 2) && rsvZero p.args 1 3) .range 0
    need (mode != 0 || (decide (-(2 ^ 62) ≤ v) && decide (v ≤ 2 ^ 62))) .range 0
    need (mode != 2 || v == 0) .range 0
    let d : Int :=
      if mode = 0 then v * 65536
      else if mode = 1 then ((u64 p.args 4 : Nat) : Int) * 65536 - (s.now : Int) * 65536
      else -(roundAway ((s.time.theta : Rat) / 65536)) * 65536
    need (mode == 2 || !s.stepOut d) .range 0x0101
    need (mode == 2 || (s.time.servo == .freeRun || s.time.servo == .holdover || s.time.servo == .grandmaster)) .state 0x0101
    need (mode != 2 || (s.time.servo == .holdover && s.time.synced)) .state 0x0102
    need (!s.stepOut d) .range 0x0101
    let s := if s.time.servo = .grandmaster then
        s.updTime fun t => { t with ownTbi := (t.ownTbi + 1) % 65536, ownPhase := d / 65536 } else s
    let s := s.stepTime d
    let s := if mode = 2 then s.setServo .locking else s
    return .okBody s (leInt 8 (satInt (-(2 ^ 63)) (2 ^ 63 - 1) (d / 65536)) ++ leBytes 8 s.now)

/-! ### Gates (R431) -/

/-- W_c in ns (R436). -/
def State.jalutWindow (s : State) : Rat := mkRat (s.dv P.dvJalutwin) 100 * (s.tj : Rat)

/-- The classes that the entry in force of a gate control list opens, `x` ns after the start of the list (R431). -/
def gclClasses : List Nat → Rat → Nat
  | [], _ => 0
  | w :: rest, x => if w / 256 = 0 ∨ x < (w / 256 : Nat) then w % 256 else gclClasses rest (x - (w / 256 : Nat))

/-- The classes whose gates are open on a port now (R431): class 7 alone in the cyclic window of a ring pair, else as its list says. -/
def State.openClasses (s : State) (e : Fin 4) : Nat :=
  let x : Rat := ((s.now % s.tj : Nat) : Rat)
  let ring := s.dv P.dvEthUse e.val == 1 || s.dv P.dvEthUse e.val == 2
  let list := (itemsOf 4 (s.dv P.dvEthGcl e.val) 64).takeWhile (· != 0)
  if ring ∧ x < s.jalutWindow then 0x80 else gclClasses list (if ring then x - s.jalutWindow else x)

/-! ### PTP ports (R418 to R422) -/

/-- Byway keeps the Announce it has received for the best master clock algorithm (R419). -/
def execAnnounceReceived (e : Fin 4) (gm : BitVec 64) (prio1 prio2 : BitVec 8) (steps : BitVec 16) (s : State) : Out :=
  s.main
    (if s.dv P.dvEthMode e.val = 0 ∨ s.boot.bywayUp = false then s
     else s.updEth e fun x => { x with rx := satInc 32 x.rx, announce := some (gm.toNat, prio1.toNat, prio2.toNat, steps.toNat) })

/-- A peer-delay exchange completes: the mean link delay, and `asCapable` within `DV.TSNEIGHTHR` (R418). -/
def execPdelayExchange (e : Fin 4) (delay : BitVec 32) (s : State) : Out :=
  s.main
    (if s.dv P.dvEthMode e.val = 0 then s
     else s.updEth e fun x => { x with delay := delay.toNat, asCapable := decide (delay.toNat ≤ s.dv P.dvTsneighthr) })

/-- A port in the master role sends Sync and Follow_Up (R418) while the gate of class 6 is open (R431); the Sync itself counts as sent
with its stamp (R422). -/
def execSyncTransmit (e : Fin 4) (s : State) : Out :=
  s.main
    (if s.dv P.dvEthMode e.val = 0 ∨ (s.net.ports[e]).ptp ≠ 6 ∨ bit (s.openClasses e) 6 = false then s
     else s.updEth e fun x => { x with tx := satInc 32 x.tx })

/-- The other port of a pair. -/
def otherEth (e : Fin 4) : Fin 4 := ⟨if e.val % 2 = 0 then e.val + 1 else e.val - 1, by have := e.isLt; split <;> omega⟩

/-- A PTP event of another domain passes from one port of a ring pair to the other with its residence time added (R421); the time
and `correctionField` are in 2⁻¹⁶ ns. -/
def execPtpForeignForward (e : Fin 4) (resid corr : BitVec 64) (s : State) : Out :=
  s.main
    (if s.dv P.dvEthMode e.val = 0 ∨ s.dv P.dvEthUse e.val = 0 then s
     else
       let s := s.updEth e fun x => { x with rx := satInc 32 x.rx }
       s.updEth (otherEth e) fun x => { x with tx := satInc 32 x.tx, corr := (corr + resid).toNat })

/-- A frame completes and its stamp is recorded (R422): in the descriptor while the hardware owns it, otherwise in the fallback
queue of 16. -/
def State.stampFrame (s : State) (e : Fin 4) (r : StampRec) (owned : Bool) : State :=
  let s := s.updEth e fun x => { x with tx := satInc 32 x.tx }
  if owned then s.updEth e fun x => { x with desc := some r }
  else if (s.net.ports[e]).tsq.length < 16 then s.updEth e fun x => { x with tsq := x.tsq ++ [r] }
  else (s.updEth e fun x => { x with tsqOvf := true, tsqLost := satInc 32 x.tsqLost }).raiseEth e 0x080A

def execTransmitStamp (e : Fin 4) (ident : BitVec 16) (kind : Fin 3) (tag : BitVec 64) (k : Fin 13) (owned : Bool) (s : State) :
    Out :=
  s.main
    (if s.dv P.dvEthMode e.val = 0 then s
     else s.stampFrame e ⟨ident.toNat, kind.val + 1, 5120 * k.val, tag.toNat⟩ owned)

end Sys2Proof.Machine
end

