-- ==== Sys2Proof/Machine/Junction.lean ====
section
/-!
DEFINITION. Ring pairs, members of a junction (R438 to R442), `JUNCTION_FORM` and `NET_STATUS`.
-/
namespace Sys2Proof.Machine

/-! ### Ports -/

def State.ethMode (s : State) (e : Fin 4) : Nat := s.dv P.dvEthMode e.val
def State.ethUse (s : State) (e : Fin 4) : Nat := s.dv P.dvEthUse e.val

/-- The two ports of a pair. -/
def pairPorts (q : Fin 2) : List (Fin 4) := [⟨2 * q.val, by omega⟩, ⟨2 * q.val + 1, by omega⟩]

/-- The pair with a use: 1 ring upstream, 2 ring downstream. -/
def State.pairOf (s : State) (use : Nat) : Option (Fin 2) :=
  (List.finRange 2).find? fun q => (pairPorts q).all fun e => s.ethMode e != 0 && s.ethUse e == use

/-- The port of a pair in a direction. -/
def pairPort (q d : Fin 2) : Fin 4 := ⟨2 * q.val + d.val, by omega⟩

/-- The MAC address of a port (R430). -/
def macOf (e : Fin 4) : Nat := (Config.macBase.toNat + e.val) % 2 ^ 48

/-! ### Members -/

def allMembers : List (Fin 15) := List.finRange 15

def State.updMember (s : State) (m : Fin 15) (f : Member → Member) : State :=
  s.updNet fun n => { n with members := upd n.members m f }

/-- Members in a state, as a mask with bit n for member n. -/
def State.membersIn (s : State) (st : MemberState) : Nat :=
  2 * ofBools (allMembers.map fun m => (s.net.members[m]).st == st)

def State.noteMembers (s : State) : State := s.updHost fun h => { h with memberMask := s.membersIn .member }

/-- The member state of an index 1 to 15. -/
def State.member? (s : State) (m : Nat) : Option Member := (fin? 15 (m - 1)).bind fun k => if m = 0 then none else some (s.net.members[k])

/-- `TIMEOUT` to every forwarded command that still awaits a member (R439). -/
def State.dropForwards (s : State) (m : Nat) : State :=
  let out := s.net.fwd.filter (·.member == m)
  let s := s.updNet fun n => { n with fwd := n.fwd.filter (·.member != m) }
  out.foldl (fun s f =>
    match s.session f.ref.src with
    | none => s
    | some x =>
      if x.sid ≠ f.ref.sid then s
      else
        s.emitTo f.ref { event := false, version := x.version, opcode := f.ref.opcode % 32768 + 32768, tag := f.ref.tag,
                           axis := f.ref.axis, path := f.ref.path, crc := s.crcUse f.ref.src, payload := statusWord .timeout 0 }) s

/-- A member changes its state; leaving `MEMBER` ends what is forwarded to it (R439). -/
def State.setMember (s : State) (m : Fin 15) (st : MemberState) : State :=
  let was := (s.net.members[m]).st
  let s := (s.updMember m fun x => { x with st := st, okRun := 0, lostRun := 0 }).noteMembers
  if was = .member ∧ st ≠ .member then s.dropForwards (m.val + 1) else s

/-- Leader axes that depend on a member: `NET` to it, or with a master there (Table 13.16). -/
def State.memberAxes (s : State) (m : Nat) : List (Fin 512) :=
  allAxes.filter fun i =>
    (s.overJalut i && s.netMember i == m) ||
      (s.bound i && s.hasMaster i && s.ax P.axMasterpath i != 0 && s.ax P.axMasterpath i % 16 == m)

/-- A junction fault acts on the axes named; without one it is recorded for the device. -/
def State.raiseAxes (s : State) (l : List (Fin 512)) (code cls detail : Nat) : State :=
  if l.isEmpty then s.raise { code := code, cls := cls, scope := .device, detail := detail, reach := [0xFFFF] }
  else l.foldl (fun s i => s.raiseAxis i code cls detail) s

/-! ### Forming a junction (R438, R439) -/

/-- Jalut versions of this device as a mask. -/
def State.jalutMask (s : State) : Nat := if s.dv P.dvJalutvermax = 1 then 2 else 6

/-- Highest version in a mask. -/
def topVersion (mask : Nat) : Nat := if bit mask 2 then 2 else if bit mask 1 then 1 else 0

/-- The entry that this device answers a discovery with (R438); its ring position comes with the frame. -/
def State.ownEntry (s : State) (pos : BitVec 8) : Found :=
  { serial := Config.serial, pos := pos, jalut := BitVec.ofNat 8 s.jalutMask, lo := 1, hi := 3
    state := if s.net.index = 0 then 0 else 2, index := BitVec.ofNat 8 s.net.index, byway := BitVec.ofNat 32 s.bwVersion
    mask := BitVec.ofNat 16 s.memberMask, enabled := s.anyEnabled }

def Found.bytes (f : Found) : List Byte :=
  leBytes 8 f.serial.toNat ++ [f.pos, f.jalut, f.lo, f.hi, f.state, f.index] ++ zeros 2 ++ leBytes 4 f.byway.toNat
    ++ leBytes 2 f.mask.toNat ++ zeros 2

/-- Release a member index. -/
def State.releaseMember (s : State) (m : Fin 15) : State :=
  (s.setMember m .absent).updMember m fun _ => {}

/-- Name a device at an index: a device that is there already stays as it is (Table 13.12). -/
def State.nameMember (s : State) (m : Fin 15) (f : Found) : State :=
  let x := s.net.members[m]
  if x.st ≠ .absent ∧ x.serial = f.serial.toNat then s
  else
    (s.releaseMember m).updMember m fun _ =>
      { st := .joining, serial := f.serial.toNat, lo := f.lo.toNat, hi := f.hi.toNat, jalut := topVersion f.jalut.toNat }

/-- The Jalut version of the downstream ring, and `JALUT_VERSION` (R442). -/
def State.ringVersion (s : State) : State :=
  match s.pairOf 2 with
  | none => s
  | some q =>
    let ms := allMembers.filter fun m => (s.net.members[m]).st != .absent
    let own := topVersion s.jalutMask
    let v := if ms.isEmpty then 0 else ms.foldl (fun v m => min v (s.net.members[m]).jalut) own
    let s := s.updNet fun n => { n with version := upd n.version q fun _ => v }
    if v = 1 ∧ own = 2 ∧ ms.any (fun m => (s.net.members[m]).jalut == 2) then s.raiseDev 0x080B 0 q.val else s

/-- Serials of a `FORM` request. -/
def formSerials (a : List Byte) : List Nat := (List.range 15).map fun k => u64 a (4 + 8 * k)

/-- The device that a serial names. -/
def State.foundAs (s : State) (n : Nat) : Option Found := s.net.found.find? fun f => f.serial.toNat == n

/-- The checks of Table 13.11, in its order. -/
def State.formChecks (s : State) (serials : List Nat) : Check Unit := do
  let named := serials.filter (· != 0)
  let fs := named.filterMap s.foundAs
  need (decide named.Nodup) .range 0x0101
  need (named.all fun n => (s.foundAs n).isSome) .range 0x0102
  need (fs.all fun f => decide (Config.junctionLevel + 1 + Config.levelsBelow f.serial ≤ 8)) .range 0x0103
  need (decide (Config.treeSize (fs.map (·.serial)) ≤ 4096)) .range 0x0104
  need (!s.anyEnabled && fs.all fun f => !f.enabled) .state 0x0101
  need s.cfg.draft.isNone .state 0x0102
  need (fs.all fun f => f.state != 1) .state 0x0103
  need (s.pairOf 2).isSome .state 0x0104
  need (fs.all fun f => (f.jalut.toNat &&& s.jalutMask) != 0) .state 0x0105

/-- `JUNCTION_FORM` (R438, Tables 13.10, 13.11). -/
def opJunctionForm (_ : Instant) (p : Packet) (s : State) : HRes :=
  .ofCheck s do
    let a := p.args
    let act := u8 a 0
    need (a.length == (if act = 2 then 124 else 4)) .badLength 0x0004
    need (decide (1 ≤ act) && decide (act ≤ 3) && rsvZero a 1 3) .range 0
    if act = 1 then do
      need (s.pairOf 2).isSome .state 0x0104
      return .replyLater (s.updNet fun n => { n with discover := n.discover ++ [(s.refOf p, s.ticks)], found := [] })
    else if act = 3 then do
      s.formChecks []
      return .ok ((allMembers.foldl State.releaseMember s).ringVersion)
    else do
      let serials := formSerials a
      s.formChecks serials
      let named := (List.range 15).filter fun k => serials.getD k 0 != 0
      let s := allMembers.foldl (fun s m =>
        match s.foundAs (serials.getD m.val 0) with
        | some f => if serials.getD m.val 0 = 0 then s.releaseMember m else s.nameMember m f
        | none => s.releaseMember m) s
      return .accepted (s.ringVersion.updNet fun n => { n with form := n.form ++ [(s.refOf p, named.map (· + 1), s.ticks)] })

/-! ### `NET_STATUS` (Table 13.13) -/

def opNetStatus (_ : Instant) (p : Packet) (s : State) : HRes :=
  .ofCheck s do
    let a := p.args
    need (a.length == 4) .badLength 0x0004
    need (rsvZero a 1 3) .range 0
    match fin? 4 (u8 a 0) with
    | none => .error (.range, 0x0101)
    | some e =>
      let x := s.net.ports[e]
      let q : Fin 2 := ⟨e.val / 2, by omega⟩
      return .okBody s
        (leBytes 1 e.val ++ leBytes 1 (s.ethMode e) ++ leBytes 1 (b2n x.link) ++ leBytes 1 (s.ethUse e)
          ++ leBytes 1 x.ptp ++ leBytes 1 (b2n x.asCapable) ++ zeros 2 ++ leBytes 4 x.delay ++ leBytes 4 x.rx ++ leBytes 4 x.tx
          ++ leBytes 4 x.fcs ++ leBytes 4 x.dup ++ leBytes 4 x.lost ++ leBytes 4 x.overrun ++ leBytes 4 x.tsqLost
          ++ leBytes 1 x.preempt.code ++ zeros 3 ++ leBytes 2 (s.membersIn .member) ++ leBytes 2 (s.membersIn .lost)
          ++ leBytes 1 (s.net.version[q]) ++ leBytes 1 s.net.index ++ zeros 2 ++ leBytes 8 x.change)

end Sys2Proof.Machine
end

