-- ==== Sys2Proof/Machine/ParamRead.lean ====
section
/-!
DEFINITION. What the read-only parameters read (Tables 6.8, 9.11, 10.7, 10.15, 10.17, 11.12, 11.13, 14.18 and the parameter tables).
-/
namespace Sys2Proof.Machine

/-- The number that items of `w` bytes spell, the first item lowest. -/
def packItems (w : Nat) : List Nat → Nat
  | [] => 0
  | x :: xs => x % 256 ^ w + 256 ^ w * packItems w xs

def fpBits (q : Rat) : Nat := (ratToFp q).toNat

/-! ### Status words of an axis -/

/-- `AX.STATE` (Table 1.8). -/
def State.axStateWord (s : State) (i : Fin 512) : Nat :=
  let a := s.axes[i]
  a.st.code + 256 * b2n (s.stoActive i) + 512 * b2n (a.st == .stopping && a.stopForFault)

/-- `PHASE` of Table 6.8: 0 OFF, 1 CAL, 2 INIT, 3 RUN. -/
def State.curPhase (s : State) (i : Fin 512) : Nat :=
  match s.axes[i].st with
  | .enabledIdle | .moving | .homing | .stopping => 3
  | .ready => match s.axes[i].energ with
    | .off | .start => 0
    | .calibrate | .precharge | .preInit => 1
    | .init | .running => 2
  | _ => 0

/-- `AX.CURSTAT` (Table 6.8). -/
def State.curstat (s : State) (i : Fin 512) : Nat :=
  let c := s.axes[i].cur
  ofBools [c.voltLimited, c.modLimited, c.intHold, c.angleValid, c.angleCoarse, c.offsetSkipped, c.repeat_, c.late]
    + s.curPhase i * 256 + c.lateCnt * 65536

/-- In position (R303). -/
def State.inPosition (s : State) (i : Fin 512) : Bool :=
  let x := s.axes[i].pos
  x.stand && decide (ratAbs x.err ≤ (s.ax P.axInposwin i : Rat))

/-- `AX.POSSTAT` (Table 9.11). -/
def State.posstat (s : State) (i : Fin 512) : Nat :=
  let x := s.axes[i].pos
  ofBools [x.sat, x.intHold, x.regen, x.i2t, x.stand, s.inPosition i, x.staleSp || x.staleCur, x.feWarn, s.ax P.axGroup i != 0, x.tblMiss,
    s.isNet i && s.axes[i].net.missed == 0 && s.axes[i].net.t != 0] + x.staleCnt * 65536

/-- A plan of the profile generator is running; one that holds a velocity does not end. -/
def Profile.planRuns (f : Profile) : Bool :=
  (f.source == .profile || f.source == .homing) && (!f.plan.ended f.relT || f.plan.endV != 0)

/-- `SEGMENT` of a running plan (Table 10.7). -/
def Profile.segment (f : Profile) : Nat := if f.source == .homing then 7 else ((f.plan.seg? f.relT).map (·.code)).getD 3

/-- `AX.PROFSTAT` (Table 10.7). -/
def State.profstat (s : State) (i : Fin 512) : Nat :=
  let f := s.axes[i].prof
  let on := f.planRuns
  ofBools [on, on && f.plan.switchback, on && f.plan.scaled, f.source == .follow, f.source == .follow && f.locked]
    + (if on then f.segment else 0) * 256

/-- `AX.HOMESTAT` (Table 10.15). -/
def State.homestat (s : State) (i : Fin 512) : Nat :=
  let h := s.axes[i].home
  b2n h.referenced + h.phase.code * 2 + b2n h.reversed * 16 + min h.transitions 255 * 256

/-- `AX.STEPSTAT` (Table 10.17). -/
def State.stepstat (s : State) (i : Fin 512) : Nat :=
  let x := s.axes[i].step
  ofBools [x.coasting, x.catchValid, x.loadValid, x.stalled, x.holdReduced, x.refresh]

/-- `SOURCE` of Table 11.13. -/
def coordCode : MSource → Nat
  | .gear => 1 | .cam => 2 | .path => 3 | _ => 0

/-- Master position at the last release. -/
def State.masterNow (s : State) (i : Fin 512) : Rat := ((s.masterAt i s.axes[i].prof.relT).map (·.1)).getD 0

/-- A ramp, shift or gap blend is in progress. -/
def State.coordBlends (s : State) (i : Fin 512) : Bool :=
  let c := s.axes[i].coord
  let m := s.masterNow i
  match s.axes[i].prof.source with
  | .gear => match c.gear with
    | some g => g.phase != .locked || (match g.blend with | some (_, m0, l) => decide (blendU m m0 l < 1) | none => false)
    | none => false
  | .cam => match c.cam with | some k => k.blending (s.axPos P.axCamblend i) m | none => false
  | _ => false

/-- `AX.COORDSTAT` (Table 11.13). -/
def State.coordstat (s : State) (i : Fin 512) : Nat :=
  let c := s.axes[i].coord
  let src := s.axes[i].prof.source
  coordCode src + 8 * b2n c.wait.isSome
    + 16 * b2n (src == .gear && (match c.gear with | some g => g.phase == .locked | none => false))
    + 32 * b2n (s.coordBlends i) + 64 * b2n c.limit + 128 * b2n c.masterStale + 256 * b2n c.starved
    + 65536 * (if src = .cam then (c.cam.map (fun k => k.cam.val)).getD 0 else 0)

/-- `AX.CMPSTAT` (Table 11.12). -/
def State.cmpstat (s : State) (i : Fin 512) : Nat :=
  ofBools (fin4s.flatMap fun k =>
    let x := s.axes[i].compares[k]
    [x.armed, x.behind, x.late, x.finished])

/-- `AX.CAMPHASE`: φ in force. -/
def State.camPhase (s : State) (i : Fin 512) : Int :=
  match s.axes[i].coord.cam with
  | some k => if s.axes[i].prof.source = .cam then toPos64 (k.phiAt (s.axPos P.axCamblend i) (s.masterNow i)) else 0
  | none => 0

/-- `AX.GEARRATIO`: `num` and `den` in force. -/
def State.gearRatio (s : State) (i : Fin 512) : Nat :=
  match s.axes[i].coord.gear with
  | some g => if s.axes[i].prof.source = .gear then packItems 4 [unsigned 32 g.num, g.den] else 0
  | none => 0

/-- A quantity of the feedback unit of a local axis. -/
def State.axFb (s : State) (i : Fin 512) (f : Fin 64 → Nat) : Nat := ((s.portOf i).map f).getD 0

/-! ### The read-only parameters -/

/-- What a read-only parameter of an axis reads; none where the stored value is read. -/
def State.axLive (s : State) (i : Fin 512) (idx : Nat) : Option Nat :=
  let a := s.axes[i]
  match idx with
  | 0x0009 => some (s.axStateWord i)
  | 0x011D => some (s.axFb i fun p => s.fbstat p i (s.ax P.axFbmode i))
  | 0x011E => some (s.axFb i fun p => (s.fb[p]).errTotal)
  | 0x021F => some (s.curstat i)
  | 0x0220 => some (fpBits a.cur.ioffA)
  | 0x0221 => some (fpBits a.cur.ioffB)
  | 0x0222 => some (fpBits (s.workOffset i))
  | 0x030D => some (s.posstat i)
  | 0x030E => some (fpBits a.pos.err)
  | 0x030F => some (fpBits a.pos.u1)
  | 0x0310 => some (fpBits a.pos.aHat)
  | 0x0311 => some (fpBits a.pos.theta)
  | 0x0312 => some (if s.isLocal i then (roundAway ((a.pos.m : Rat) * s.tc i)).toNat else 0)
  | 0x0409 => some (s.profstat i)
  | 0x040A => some (unsigned 64 a.prof.overshoot)
  | 0x040B => some (if a.prof.positioning then unsigned 64 a.prof.target else 0)
  | 0x040C => some (unsigned 64 a.prof.cmdPos)
  | 0x040D => some (unsigned 64 a.prof.cmdVel)
  | 0x0513 => some (s.homestat i)
  | 0x0619 => some (if a.step.loadValid then fpBits a.step.load else 0)
  | 0x061A => some (packItems 4 [fpBits a.step.o1, fpBits a.step.o2])
  | 0x061B => some (s.stepstat i)
  | 0x070B => some (((assocGet? s.tables.fric i.val).getD []).length / 8)
  | 0x070C => some (((assocGet? s.tables.cog i.val).getD []).length / 8)
  | 0x070D => some a.cur.tblMiss
  | 0x070E => some (fpBits a.cur.iComp)
  | 0x0801 => some (packItems 4 (a.latches.toList.map (·.lost)))
  | 0x0802 => some (s.cmpstat i)
  | 0x0804 => some (packItems 4 (a.compares.toList.map (·.fired)))
  | 0x0905 => some (s.coordstat i)
  | 0x0906 => some (s.gearRatio i)
  | 0x0907 => some (unsigned 64 (s.camPhase i))
  | 0x0908 => some ((a.coord.path.map PathRun.free).getD 1024)
  | _ => none

/-- What a read-only parameter of a port reads. -/
def State.ptLive (s : State) (p : Fin 64) (idx : Nat) : Option Nat :=
  let x := s.ports[p]
  match idx with
  | 0x0105 => some (fpBits (s.dutyCap p))
  | 0x0205 => some x.tripCount
  | 0x0304 => some ((3 * s.pt P.ptSdosr p + 8) * s.pt P.ptSddiv p / 2)
  | 0x0305 => some (fpBits (s.modLim p))
  | 0x0401 => some x.force
  | 0x0402 => some x.dlTaps
  | _ => none

/-- `DV.DCB_FLAGS` (Table 7.15). -/
def State.busFlags (s : State) (b : Fin 8) : Nat :=
  let x := s.buses[b]
  ofBools [x.chop, x.chfb, s.regenLimit b, decide (s.bp P.dvDcbOv1 b ≤ x.v), decide (s.bp P.dvDcbOv2 b ≤ x.v), x.full]

/-- The live block of a DC bus (Table 7.15). -/
def State.busLive (s : State) (b : Fin 8) (k : Nat) : Option Nat :=
  let x := s.buses[b]
  match k with
  | 0 => some x.st.code
  | 1 => some (fpBits x.v)
  | 2 => some (s.busFlags b)
  | 3 => some (fpBits x.chen)
  | 4 => some (fpBits x.chw)
  | 5 => some (fpBits x.vmax)
  | 6 => some (fpBits x.duty)
  | _ => none

/-- `DV.CAN_STATUS` (Table 14.18). -/
def State.canStatus (s : State) (c : Fin 4) : Nat :=
  let x := s.can[c]
  x.st.code + 8 * b2n (x.running && !x.gap) + 16 * b2n x.master + 32 * b2n x.refLost + 256 * min 255 x.tec + 65536 * min 255 x.rec_
    + 2 ^ 24 * x.cycle

/-- `DV.ETH_STATUS` (Table 13.14). -/
def State.ethStatus (s : State) (e : Fin 4) : Nat :=
  let x := s.net.ports[e]
  b2n x.link + 2 * s.ethMode e + 8 * b2n (x.preempt == .active)

/-- `DV.FAULTSTAT` (chapter 17). -/
def State.faultStat (s : State) : Nat :=
  (s.faults.table.map (·.cls)).foldl max 0 + 8 * b2n s.safeState + 65536 * min 65535 s.faults.table.length

/-- Upsets of an engine since the cold reset. -/
def State.engUpsets (s : State) (e : Nat) : Nat :=
  ((s.faults.upsets.find? (fun u => u.kind == .engine && u.unit == e)).map (·.count)).getD 0

/-- Engines in service that are not hard shoulders (R145). -/
def State.serviceMask (s : State) : Nat := ofBools (allEngines.map fun e => (s.eng[e]).role == .service)

/-- `DV.CRVIOL`. -/
def State.crViol (s : State) : Nat :=
  let v := s.xr.viol
  packItems 4 [v.1 + 256 * b2n v.2.1, v.2.2.1] + 2 ^ 64 * v.2.2.2

/-- What a read-only parameter of the device reads. -/
def State.dvLive (s : State) (idx : Nat) : Option Nat :=
  if 0x0580 ≤ idx ∧ idx < 0x05C0 then (fin? 8 ((idx - 0x0580) / 8)).bind fun b => s.busLive b (idx % 8)
  else if 0x0700 ≤ idx ∧ idx < 0x0780 then
    (fin? 8 ((idx - 0x0700) / 16)).bind fun n =>
      if idx % 16 = 0xA then some (unsigned 64 (s.emus[n]).cOut)
      else if idx % 16 = 0xB then some (s.emus[n]).backlog.natAbs else none
  else if 0x0200 ≤ idx ∧ idx < 0x0240 then
    (fin? 4 ((idx - 0x0200) / 16)).bind fun e => if idx % 16 = 6 then some (s.ethStatus e) else none
  else if 0x0240 ≤ idx ∧ idx < 0x0280 then
    (fin? 4 ((idx - 0x0240) / 16)).bind fun c => if idx % 16 = 0xF then some (s.canStatus c) else none
  else if 0x02C0 ≤ idx ∧ idx < 0x02E0 then
    (fin? 4 ((idx - 0x02C0) / 8)).bind fun c =>
      let x := s.can[c]
      match idx % 8 with
      | 1 => some x.abrSel
      | 2 => some (unsigned 32 x.gtOffs)
      | 3 => some x.clashId
      | 4 => some (packItems 4 (x.rx.toList.map (·.lost)))
      | 5 => some x.txMissed
      | _ => none
  else match idx with
  | 0x0010 => some s.boot.rstCause
  | 0x0011 => some s.boot.rstCount
  | 0x0012 => some s.boot.bwRestarts
  | 0x0109 => some s.time.addend
  | 0x010A => some (unsigned 32 s.thetaI32)
  | 0x010B => some s.yPpb.toNat
  | 0x010C => some s.time.servo.code
  | 0x0111 => some (packItems 4 (s.net.ports.toList.map (·.tsqLost)))
  | 0x0302 => some (packItems 4 s.xr.coll.toList)
  | 0x0303 => some (packItems 4 s.xr.ecc.toList)
  | 0x0304 => some (packItems 2 s.xr.weak.toList)
  | 0x0305 => some (packItems 1 s.xr.repair.toList)
  | 0x0306 => some ((s.xr.retired.map (·.val)).getD 255)
  | 0x0307 => some s.crViol
  | 0x0309 => some (poolBytes - s.xr.poolUsed)
  | 0x0401 => some s.wm.st.code
  | 0x0402 => some s.wm.lost
  | 0x0403 => some s.wm.buf.length
  | 0x0602 => some s.serviceMask
  | 0x0603 => some s.shoulderMask
  | 0x0604 => some s.cfg.cfggen
  | 0x0620 => some s.faultStat
  | 0x0621 => some (packItems 1 (allEngines.map fun e => min 255 (s.engUpsets e.val)))
  | 0x0622 => some s.dbg.level
  | 0x0623 => some (fpBits s.dbg.temp)
  | 0x0784 => some (packItems 4 (s.probes.toList.map (·.lost)))
  | _ => none

/-- Value of a parameter at an instance (R128): live state for read-only ones, the sealed configuration Tollgate holds for `SF`, the
value written last otherwise. -/
def State.paramValue (s : State) (d : PDef) (inst idx : Nat) : Nat :=
  let k := pkey d.fam inst idx
  let stored := ((assocGet? s.cfg.late k).orElse fun _ => assocGet? s.cfg.params k).getD (d.dfltAt idx)
  let live := match d.chg, d.fam with
    | .readOnly, .ax => (fin? 512 inst).bind fun i => s.axLive i idx
    | .readOnly, .pt => (fin? 64 inst).bind fun p => s.ptLive p idx
    | .readOnly, .dv => s.dvLive idx
    | _, .sf => some ((s.tg.cfg.bind (fun c => assocGet? c.values (pkey .sf 0 idx))).getD (d.dfltAt idx))
    | _, _ => none
  (live.getD stored) % 256 ^ d.width

end Sys2Proof.Machine
end

