-- ==== Sys2Proof/Machine/Relations.lean ====
section
/-!
DEFINITION. Relations between parameters that a live write and a draft are checked against (R193, R207, R212, R221, R247, R255, R258,
R280, R288, R306, R312, R423). Each gives the pairs of parameter indices that do not agree, none when the relation holds.
-/
namespace Sys2Proof.Machine

/-- A pair of parameter indices, when its relation is broken. -/
def pairIf (c : Bool) (a b : Nat) : List (Nat × Nat) := if c then [(a, b)] else []

/-! ### Axes -/

/-- R207: rates of the current loop against the sample rate; only program 0x0001 has them. -/
def State.r207 (s : State) (i : Fin 512) : List (Nat × Nat) :=
  if !s.isServo i || s.tc i = 0 then []
  else
    let fs : Rat := 1000000000 / s.tc i
    pairIf (decide (fs / 5 < s.axF P.axCurbw i)) 0x0208 0x0002 ++ pairIf (decide (fs / 4 < s.axF P.axObsbw i)) 0x0209 0x0002
      ++ pairIf (decide (fs / 10 < s.axF P.axCurint i)) 0x020A 0x0002

/-- R288: rates of the position loop. -/
def State.r288 (s : State) (i : Fin 512) : List (Nat × Nat) :=
  if s.tp i = 0 then []
  else
    let fp : Rat := 1000000000 / s.tp i
    let bw := s.axF P.axPosbw i
    pairIf (decide (fp / 10 < bw)) 0x0303 0x0301 ++ pairIf (s.isServo i && decide (s.axF P.axCurbw i / 4 < bw)) 0x0303 0x0208
      ++ pairIf (decide (fp / 4 < s.axF P.axPosobsbw i)) 0x0305 0x0301
      ++ pairIf (decide (Config.pi * bw / 2 < s.axF P.axPosint i)) 0x0304 0x0303

/-- R312: start and stop velocities. -/
def State.r312 (s : State) (i : Fin 512) : List (Nat × Nat) :=
  let vmax := s.ax P.axVmax i
  let v1 := s.ax P.axV1 i
  let f (d : PDef) : List (Nat × Nat) :=
    pairIf (decide (vmax < s.ax d i)) d.idx 0x0404 ++ pairIf (decide (0 < v1) && decide (v1 < s.ax d i)) d.idx 0x0402
  f P.axVstart ++ f P.axVstop

/-- R306: software limits. -/
def State.r306 (s : State) (i : Fin 512) : List (Nat × Nat) :=
  pairIf (decide (s.axPos P.axSwlimpos i ≤ s.axPos P.axSwlimneg i)) 0x0A0D 0x0A0E

/-- R193, Table 6.2, with the second point of R258: `AX.ANGLESRC`, `AX.FBMODE` and `AX.ANGLEINIT` that go together. -/
def angleSets : List (Nat × Nat × Nat) := [(0, 4, 0), (0, 6, 0), (0, 1, 2), (0, 2, 1), (0, 2, 2), (1, 3, 1)]

/-- R193 on a `LOCAL_SERVO` axis; modes 0 and 5 break R258 instead. -/
def State.r193 (s : State) (i : Fin 512) : List (Nat × Nat) :=
  let m := s.ax P.axFbmode i
  if !s.isServo i then []
  else if m = 0 ∨ m = 5 then [(0x0100, 0x0000)]
  else pairIf (!angleSets.contains (s.ax P.axAnglesrc i, m, s.ax P.axAngleinit i)) 0x020B 0x020C

/-- d_dec in ns (R187). -/
def State.dDecNs (s : State) (p : Fin 64) : Rat :=
  ((3 * s.pt P.ptSdosr p + 8) * s.pt P.ptSddiv p : Nat) * mkRat 5 4

/-- Axes that name a port in `AX.HALLPORT` or `AX.STEPSRCPORT`. -/
def State.hallNamed (s : State) (h : Nat) : List (Fin 512) := allAxes.filter fun j => s.bound j && s.ax P.axHallport j == h
def State.stepNamed (s : State) (h : Nat) : List (Fin 512) := allAxes.filter fun j => s.bound j && s.ax P.axStepsrcport j == h

/-- A port is `UNUSED`. -/
def State.portUnused (s : State) (h : Nat) : Bool :=
  match fin? 64 h with | some p => s.pt P.ptKind p == 0 | none => false

/-- R258, except its first two points. -/
def State.r258 (s : State) (i : Fin 512) (p : Fin 64) : List (Nat × Nat) :=
  let m := s.ax P.axFbmode i
  let h := s.ax P.axHallport i
  let vs := s.ax P.axVbussrc i
  let rex := s.ax P.axRexsel i
  let bitsN := s.ax P.axSsibits i + 2 + (s.ax P.axSsifmt i / 2) % 2
  let frame : Rat := (bitsN : Rat) * 1000000000 / (s.ax P.axSsifreq i : Rat) + (s.ax P.axSsirecov i : Rat)
  pairIf (m == 2 && (h == p.val || !s.portUnused h || (s.hallNamed h).any (· != i) || (s.stepNamed h).any (· != i))) 0x0100 0x010A
    ++ pairIf (m == 6 && (vs == 1 || vs == 2)) 0x0100 0x021A
    ++ pairIf (m == 6 && s.dv P.dvRexEn rex == 0) 0x0100 0x0112
    ++ pairIf (m == 6 && decide (s.dv P.dvRexPeriod rex < 6 * s.pt P.ptSdosr p * s.pt P.ptSddiv p)) 0x0301 0x0112
    ++ pairIf (decide (s.dDecNs p < ((s.ax P.axFbfilt i + 2) * 5 : Nat))) 0x0101 0x0301
    ++ pairIf (m == 4 && decide ((s.ax P.axSsievery i : Rat) * s.sampleNs p < frame)) 0x0100 0x010E

/-- R325 on a `LOCAL_STEP` axis. -/
def State.r325 (s : State) (i : Fin 512) : List (Nat × Nat) :=
  if !s.isStep i then []
  else
    let m := s.ax P.axFbmode i
    pairIf (m != 0 && m != 1 && m != 4) 0x0100 0x0000
      ++ pairIf (m != 0 && s.ax P.axCrev i != s.ax P.axStepsrev i * s.ax P.axMicrostep i) 0x0102 0x0600

/-- R339: the companion port of the step source. -/
def State.r339 (s : State) (i : Fin 512) (p : Fin 64) : List (Nat × Nat) :=
  let h := s.ax P.axStepsrcport i
  pairIf (h != 0xFF && (h == p.val || !s.portUnused h || (s.stepNamed h).any (· != i) || (s.hallNamed h).any (· != i))) 0x0616 0x0001

/-! ### Ports -/

/-- R212: m_Q of a `SERVO3` port. -/
def State.r212 (s : State) (p : Fin 64) : List (Nat × Nat) :=
  pairIf (s.pt P.ptKind p == 1 && decide (s.modQ p < mkRat 1 5)) 0x0302 0x0100

/-- R247: d_cap of a `BOOTSTRAP` port. -/
def State.r247 (s : State) (p : Fin 64) : List (Nat × Nat) :=
  pairIf (s.bootstrap p && decide (s.dutyCap p < mkRat 1 2)) 0x0102 0x0100

/-- The programs that `DV.USERTASKS` lists. -/
def State.userPrograms (s : State) : List Nat := (itemsOf 2 (s.dv P.dvUsertasks) 16).filter (· != 0)

/-- R185, R221 except d_cap, and R516 for `PT.HALTMODE`. -/
def State.r221 (s : State) (p : Fin 64) : List (Nat × Nat) :=
  let kind := s.pt P.ptKind p
  let per := s.period p
  let div := s.pt P.ptSddiv p
  let edge := !s.centre p
  let dbl := s.pt P.ptUpdate p == 1
  let owner := s.pt P.ptOwner p
  pairIf (kind == 1 && per % (2 * div) != 0) 0x0002 0x0300
    ++ pairIf (kind == 1 && edge) 0x0001 0x0000
    ++ pairIf (s.centre p && per % 2 == 1) 0x0002 0x0001
    ++ pairIf (dbl && decide (per < 4000)) 0x0002 0x0003
    ++ pairIf (edge && dbl) 0x0003 0x0001
    ++ pairIf (s.pt P.ptBothon p != 0 && kind != 3) 0x0106 0x0000
    ++ pairIf (s.pt P.ptActshort p == 1 && kind != 1) 0x0107 0x0000
    ++ pairIf (s.bootstrap p && s.pt P.ptShadowfmt p == 1) 0x0101 0x0005
    ++ pairIf (s.pt P.ptHaltmode p == 1 && (s.pt P.ptPwrclass p != 1 || bit (s.sf P.sfPortsused) p.val)) 0x0400 0x0007
    ++ pairIf ((kind != 3 && owner != 0) || (kind == 3 && !s.userPrograms.contains owner)) 0x0006 0x0000
    ++ pairIf (kind == 2 && edge && per % div != 0) 0x0002 0x0300

/-! ### DC buses and the device -/

/-- R255 on an enabled bus. -/
def State.r255 (s : State) (b : Fin 8) : List (Nat × Nat) :=
  if s.dv P.dvDcbEn b.val = 0 then []
  else
    let o (d : PDef) := d.idx + 0x10 * b.val
    let lt (d e : PDef) := pairIf (!decide (s.dvF d b.val < s.dvF e b.val)) (o d) (o e)
    lt P.dvDcbUv P.dvDcbPrev ++ lt P.dvDcbPrev P.dvDcbOv1 ++ lt P.dvDcbOv1 P.dvDcbOv2 ++ lt P.dvDcbOv2 P.dvDcbOv3
      ++ pairIf (!decide (s.dvF P.dvDcbHyst b.val < s.dvF P.dvDcbOv2 b.val - s.dvF P.dvDcbOv1 b.val)) (o P.dvDcbHyst) (o P.dvDcbOv2)

/-- R423: the bandwidth of the time servo against the Sync interval. -/
def State.r423 (s : State) : List (Nat × Nat) :=
  let ts := pow2 (signed 8 (s.dv P.dvTssynclog))
  pairIf (decide (1 / (20 * ts) < s.dvF P.dvTsbw)) 0x0104 0x0103

/-! ### One written record -/

/-- `AX.NETADDR` holds nothing in the bits that its form reserves (R443, R466). -/
def State.netaddrOk (s : State) (i : Fin 512) : Bool :=
  let v := s.ax P.axNetaddr i
  let m := match s.ax P.axNetkind i with | 1 => 0x01FF000F | _ => 0x0FFFFF7F
  v &&& m == v

/-- Ranges of the parameter tables that name another parameter, and reserved fields whose place depends on one (R9). -/
def State.tableRange (s : State) (f : PFam) (inst idx : Nat) : Bool :=
  match f, fin? 512 inst with
  | .ax, some i => match idx with
    | 0x0003 => s.netaddrOk i
    | 0x0402 => decide (s.ax P.axV1 i ≤ s.ax P.axVmax i)
    | 0x0506 => decide (s.ax P.axHomevfast i ≤ s.ax P.axVmax i)
    | 0x0507 => decide (s.ax P.axHomevslow i ≤ s.ax P.axHomevfast i)
    | 0x0116 => decide (s.axF P.axResampmin i < s.axF P.axResampmax i)
    | _ => true
  | .pt, _ => match fin? 64 inst with
    | some p => idx != 0x0004 || decide (s.pt P.ptPhase p < s.period p)
    | none => true
  | .dv, _ =>
    if 0x0700 ≤ idx ∧ idx < 0x0780 ∧ idx % 16 = 6 then
      s.dv P.dvEmuZoff ((idx - 0x0700) / 16) == 0
        || decide (s.dv P.dvEmuZoff ((idx - 0x0700) / 16) < s.dv P.dvEmuZper ((idx - 0x0700) / 16))
    else idx != 0x0107 || decide (s.dv P.dvTslockwin < s.dv P.dvTsjump)
  | _, _ => true

/-- R312 of a record of `PARAM_SET` or `CFG_SET`. -/
def State.profileOk (s : State) (f : PFam) (inst idx : Nat) : Bool :=
  match f, fin? 512 inst with
  | .ax, some i => !(decide (0x0400 ≤ idx) && decide (idx ≤ 0x0407)) || (s.r312 i).isEmpty
  | _, _ => true

/-- The relations that a live write is checked against (R207, R212, R247, R255, R288, R306, R423). -/
def State.liveOk (s : State) (f : PFam) (inst idx : Nat) : Bool :=
  match f with
  | .ax => match fin? 512 inst with
    | some i =>
      if idx = 0x0208 then (s.r207 i).isEmpty && (s.r288 i).isEmpty
      else if idx = 0x0209 ∨ idx = 0x020A then (s.r207 i).isEmpty
      else if 0x0303 ≤ idx ∧ idx ≤ 0x0305 then (s.r288 i).isEmpty
      else if idx = 0x0A0D ∨ idx = 0x0A0E then (s.r306 i).isEmpty
      else true
    | none => true
  | .pt => match fin? 64 inst with
    | some p =>
      (!(idx == 0x0302 || idx == 0x0100) || (s.r212 p).isEmpty) && (!(idx == 0x0102 || idx == 0x0100) || (s.r247 p).isEmpty)
    | none => true
  | .dv =>
    if idx = 0x0104 then s.r423.isEmpty
    else if 0x0500 ≤ idx ∧ idx < 0x0580 then
      match fin? 8 ((idx - 0x0500) / 16) with | some b => (s.r255 b).isEmpty | none => true
    else true
  | .sf => true

end Sys2Proof.Machine
end

