-- ==== Sys2Proof/Machine/ParamOps.lean ====
section
/-!
DEFINITION. Parameter records, `PARAM_GET` and `PARAM_SET` (R125 to R127, Tables 3.25, 3.26), and the draft commands that carry records:
`CFG_SET` and `CFG_GET` (R131 to R133).
-/
namespace Sys2Proof.Machine

/-! ### Records (Table 3.25, R125) -/

/-- A record or selector of a request. -/
structure PRec where
  fam : Nat
  rsv : Bool
  inst : Nat
  idx : Nat
  vlen : Nat
  value : Nat
  deriving DecidableEq, Repr

/-- Bytes of a value with its padding. -/
def padded (n : Nat) : Nat := (n + 3) / 4 * 4

/-- `n` records that fill the bytes exactly; selectors have no value, whatever `vlen` holds. -/
def parseRecs (sel : Bool) : Nat → List Byte → Option (List PRec)
  | 0, b => if b.isEmpty then some [] else none
  | n + 1, b =>
    let vl := u16 b 6
    let sz := 8 + (if sel then 0 else padded vl)
    if b.length < sz then none
    else
      let body := (b.drop 8).take (sz - 8)
      let r : PRec :=
        { fam := u8 b 0, rsv := u8 b 1 == 0 && allZero (body.drop vl), inst := u16 b 2, idx := u16 b 4, vlen := vl
          value := leNat (body.take vl) }
      (parseRecs sel n (b.drop sz)).map (r :: ·)

/-- What a record is checked for. -/
inductive RecMode where
  | get | set | draft
  deriving DecidableEq, Repr

/-- Status of a reason of Table 3.26. -/
def reasonStatus : Nat → Status
  | 4 | 6 => .denied
  | 5 => .state
  | _ => .range

/-- Instance of a record: 0xFFFF in an `AX` record is the header's axis. -/
def PRec.instance_ (r : PRec) (axis : Nat) : Nat := if r.fam = 1 ∧ r.inst = 0xFFFF then axis else r.inst

/-- Family, catalogue row and instance that a record names; or its reason 0x01 or 0x07. -/
def PRec.names (r : PRec) (axis : Nat) : Except Nat (PFam × PDef × Nat) :=
  match PFam.ofCode r.fam with
  | none => .error 1
  | some f => match findParam f r.idx with
    | none => .error 1
    | some d => if r.instance_ axis < f.instances then .ok (f, d, r.instance_ axis) else .error 7

/-- Write a value under its index. -/
def State.putParam (s : State) (d : PDef) (inst idx v : Nat) : State :=
  s.updCfg fun c => { c with params := storeParam c.params d inst idx v }

/-- Judge one record in the order of R126: its reason, or the state as it stands once the record is written; `s` holds the values
that the records before it leave. -/
def State.judgeRec (s : State) (m : RecMode) (axis : Nat) (r : PRec) : Except Nat State :=
  match r.names axis with
  | .error n => .error n
  | .ok (f, d, i) =>
    if m = .get then (if r.vlen = 0 then .ok s else .error 3)
    else if f = .sf then .error 6
    else if d.chg = .readOnly then .error 4
    else if m = .set ∧ d.chg ≠ .live then .error 5
    else if r.vlen ≠ d.width then .error 3
    else if !d.range.ok r.value then .error 2
    else
      let u := s.putParam d i r.idx r.value
      if u.tableRange f i r.idx && u.profileOk f i r.idx && (m == .draft || u.liveOk f i r.idx) then .ok u else .error 2

/-- Judge records in list order; `k` is the position of the first. -/
def State.judgeRecs (s : State) (m : RecMode) (axis : Nat) : Nat → List PRec → Check State
  | _, [] => .ok s
  | k, r :: rs =>
    match s.judgeRec m axis r with
    | .error n => .error (reasonStatus n, n * 256 + k)
    | .ok u => u.judgeRecs m axis (k + 1) rs

/-- The records of a request: lengths of R125, then `count`, then reserved fields and families (R9). -/
def reqRecs (sel : Bool) (a : List Byte) (rsvOk : Bool) : Check (List PRec) := do
  need (decide (4 ≤ a.length)) .badLength 0x0004
  let n := u16 a 0
  match parseRecs sel n (a.drop 4) with
  | none => .error (.badLength, 0x0004)
  | some rs => do
    need (decide (1 ≤ n) && decide (n ≤ 64) && rsvOk && rs.all (fun r => r.rsv && (PFam.ofCode r.fam).isSome)) .range 0
    return rs

/-- A full record of a reply. -/
def fullRec (r : PRec) (axis w v : Nat) : List Byte :=
  leBytes 1 r.fam ++ zeros 1 ++ leBytes 2 (r.instance_ axis) ++ leBytes 2 r.idx ++ leBytes 2 w ++ pad4 (leBytes w v)

/-- The reply fields of `PARAM_GET` and `CFG_GET`, with each value as `f` reads it. -/
def recsReply (rs : List PRec) (axis : Nat) (f : PDef → Nat → Nat → Nat) : List Byte :=
  leBytes 2 rs.length ++ zeros 2 ++ rs.flatMap fun r =>
    match r.names axis with
    | .ok (_, d, i) => fullRec r axis d.width (f d i r.idx)
    | .error _ => []

/-! ### `PARAM_GET`, `PARAM_SET` -/

def opParamGet (_ : Instant) (p : Packet) (s : State) : HRes :=
  .ofCheck s do
    let rs ← reqRecs true p.args (rsvZero p.args 2 2)
    let _ ← s.judgeRecs .get p.axis.toNat 1 rs
    return .okBody s (recsReply rs p.axis.toNat s.paramValue)

/-- What a live write does beside its value: a ratio of following or of an emulation unit takes effect from the next release or
update (R339, R278). -/
def State.afterLive (s : State) (f : PFam) (inst idx : Nat) : State :=
  match f with
  | .ax => match fin? 512 inst with
    | some i => if idx = 0x0617 ∨ idx = 0x0618 then s.updProf i fun x => { x with followReseed := true } else s
    | none => s
  | .dv =>
    if 0x0700 ≤ idx ∧ idx < 0x0780 ∧ (idx % 16 = 2 ∨ idx % 16 = 3) then
      match fin? 8 ((idx - 0x0700) / 16) with | some n => s.updEmu n fun x => { x with reseed := true } | none => s
    else s
  | _ => s

/-- A unit takes a parameter of this family and instance at its next cycle, and not at once (R127): the axis at its next position-loop
sample, the port at its next commit point. An unbound axis and an unused port have none. -/
def State.takesLater (s : State) (f : PFam) (inst : Nat) : Bool :=
  match f with
  | .ax => (fin? 512 inst).any fun i => s.bound i && s.axes[i].st != .retired
  | .pt => (fin? 64 inst).any fun p => s.pt P.ptKind p != 0
  | _ => false

/-- Write one record of `PARAM_SET`: into the values in effect, or among those that wait for their unit (R127). -/
def State.writeRec (s : State) (axis : Nat) (r : PRec) : State :=
  match r.names axis with
  | .error _ => s
  | .ok (f, d, i) =>
    let s := s.afterLive f i r.idx
    if s.takesLater f i then s.updCfg fun c => { c with late := assocSet c.late (pkey f i r.idx) r.value }
    else s.putParam d i r.idx r.value

/-- `PARAM_SET`: every record is checked with the values written before it, then written in list order (R126, R127). -/
def opParamSet (_ : Instant) (p : Packet) (s : State) : HRes :=
  .ofCheck s do
    let rs ← reqRecs false p.args (rsvZero p.args 2 2)
    let _ ← s.written.judgeRecs .set p.axis.toNat 1 rs
    return .ok (rs.foldl (fun s r => s.writeRec p.axis.toNat r) s)

/-! ### The values of a draft (R132) -/

def keyLive (k : Nat) : Bool := match keyDef k with | some (d, _, _) => d.chg == .live | none => false

/-- The parameter values that a draft would switch to now: those it wrote, the committed ones of draft parameters (defaults in an
`EMPTY` draft), and the present ones of live parameters it did not write. -/
def State.draftParams (s : State) (d : Draft) : List (Nat × Nat) :=
  let m := s.written.cfg.params
  d.values.foldl putKey (if d.empty then m.filter (fun kv => keyLive kv.1) else m)

/-- The state with the draft's values in place of the committed ones, for checks and reads. -/
def State.draftView (s : State) (d : Draft) : State := s.updCfg fun c => { c with params := s.draftParams d, late := [] }

/-! ### `CFG_SET`, `CFG_GET` -/

/-- The draft of this device; a member of a junction takes the leader's commands for the draft that the leader has passed on. -/
def State.openDraft (s : State) : Check Draft :=
  match s.cfg.draft with
  | none => .error (.noDraft, 0)
  | some d => .ok d

def opCfgSet (_ : Instant) (p : Packet) (s : State) : HRes :=
  .ofCheck s do
    let rs ← reqRecs false p.args (rsvZero p.args 2 2)
    let d ← s.openDraft
    need s.cfg.commit.isNone .busy 0x0101
    let _ ← (s.draftView d).judgeRecs .draft p.axis.toNat 1 rs
    let vs := rs.foldl (fun m r =>
      match r.names p.axis.toNat with
      | .ok (f, _, i) => assocSet m (pkey f i r.idx) r.value
      | .error _ => m) d.values
    return .ok (s.updCfg fun c => { c with draft := some { d with values := vs } })

/-- `CFG_GET`: `source` 0 the draft, 1 the committed configuration. -/
def opCfgGet (_ : Instant) (p : Packet) (s : State) : HRes :=
  .ofCheck s do
    let a := p.args
    let src := u8 a 2
    let rs ← reqRecs true a (decide (src ≤ 1) && rsvZero a 3 1)
    if src = 0 then do
      let d ← s.openDraft
      let _ ← s.judgeRecs .get p.axis.toNat 1 rs
      let v := s.draftView d
      return .okBody s (recsReply rs p.axis.toNat fun x i k =>
        if x.chg = .live ∨ x.chg = .draft then v.paramValue x i k else s.paramValue x i k)
    else do
      let _ ← s.judgeRecs .get p.axis.toNat 1 rs
      return .okBody s (recsReply rs p.axis.toNat s.paramValue)

end Sys2Proof.Machine
end

