-- ==== Sys2Proof/Machine/Admission.lean ====
section
/-!
DEFINITION. The engine analysis of admission: the tasks of a draft (R135, R179, R294, R299, R554, R556, Table 4.3), the response-time
analysis (R137, R138, R170) and the placement (R139, R145), and the haul bound (R136, R175).
-/
namespace Sys2Proof.Machine

/-! ### Sorting -/

/-- Insert behind the elements that do not come after it. -/
def insertBy {α : Type} (lt : α → α → Bool) (x : α) : List α → List α
  | [] => [x]
  | y :: ys => if lt x y then x :: y :: ys else y :: insertBy lt x ys

/-- A stable sort. -/
def sortBy {α : Type} (lt : α → α → Bool) (l : List α) : List α := l.foldl (fun acc x => insertBy lt x acc) []

/-! ### Candidates -/

/-- A task as admission handles it: the task, its exact period and deadline in ns, its jitter in LECLK cycles, its haul words as
`LEP_INFO` reports them, and the ports whose slots it needs. -/
structure Cand where
  t : Task
  tNs : Rat
  dNs : Rat
  j : Nat := 0
  words : Nat := 0
  ports : List Nat := []
  deriving DecidableEq, Repr

/-- LECLK cycles of a time in ns (R138). -/
def cyclesOf (ns : Rat) : Nat := (ns * mkRat 6 5).floor.toNat

/-- Nanoseconds of cycles, rounded up (R138). -/
def nsOf (c : Nat) : Nat := ceilDiv (c * 5) 6

/-- A value in a u32 field. -/
def u32Cap (n : Nat) : Nat := min n 0xFFFFFFFF

/-- A candidate from the figures of its program and task. -/
def mkCand (axis kind trigger k port : Nat) (tNs dNs : Rat) (g : ProgFig) (sub : Nat) (f : TaskFig) (slot : Bool) : Cand :=
  { tNs := tNs, dNs := dNs, words := f.haul, ports := if slot && port < 64 then [port] else []
    t := { axis := axis, kind := kind, prog := g.id, sub := sub, trigger := trigger, k := k, tNs := tNs.floor.toNat, dNs := dNs.floor.toNat
           tCyc := cyclesOf tNs, dCyc := cyclesOf dNs, c := f.c, h := f.h, w := f.w, haul := f.budget, stateLen := f.stateLen
           plm := g.plm, cx := g.cx, cy := g.cy, dlm := g.dlm, port := port, user := userId g.id, stateOff := f.stateOff } }

/-- The program that an axis parameter names, or the standard one; none, with its identifier, when it is not loaded. -/
def State.progOr (s : State) (id std : Nat) : Except Nat ProgFig :=
  if id = 0 then (match stdProg std with | some g => .ok g | none => .error std)
  else match s.prog id with | some g => .ok g | none => .error id

/-- A task of an axis from its program's first task, whose declaration gives way to the task it stands for (R179). -/
def State.axisCand (s : State) (i : Fin 512) (kind trigger k port : Nat) (tNs dNs : Rat) (id std : Nat) (slot : Bool) :
    Except Nat Cand :=
  match s.progOr id std with
  | .error n => .error n
  | .ok g => match g.tasks with
    | [] => .error id
    | f :: _ => .ok (mkCand i.val kind trigger k port tNs dNs g 0 f slot)

/-- What enabled compensation tables add to program 0x0001 (R299). -/
def State.tableFigures (s : State) (i : Fin 512) (x : Cand) : Cand :=
  if x.t.prog = 1 ∧ (s.ax P.axFricen i ≠ 0 ∨ s.ax P.axCogen i ≠ 0) then
    { x with t := { x.t with c := x.t.c + 96, haul := x.t.haul + 8 }, words := x.words + 8 }
  else x

/-- The group task on its leader (R294, R554). -/
def State.groupCand (s : State) (l : Fin 512) (x : Cand) : Cand :=
  let n := (s.groupMembers l).length
  let g := groupTable ((assocGet? s.tables.group l.val).getD [])
  let size := g.nx * (g.nx + 3 * n + g.m) + n * (g.nx + 4 * n + g.m)
  let words := 2 + ceilDiv (g.nx + n) 2
  { x with
    t := { x.t with c := 2400 + ceilDiv size 2, h := 360, haul := words, cx := x.t.cx + ceilDiv (4 * size) 16 * 16 }
    words := words
    ports := (s.groupMembers l).filterMap fun j => (s.portOf j).map (·.val) }

/-- The exclusive entry that names the setpoint slot of a `NET` axis over CAN, and its period (R556, R466). -/
def State.canSpPeriod (s : State) (i : Fin 512) : Option Nat :=
  let a := s.ax P.axNetaddr i
  let c : Fin 4 := ⟨bits a 1 0 % 4, Nat.mod_lt _ (by decide)⟩
  ((s.canMatrix c).find? fun e => e.kind == 1 && e.slot == bits a 6 2).map fun e => 2 ^ e.rep * s.bcycleNs c

/-- The tasks of an axis (Table 4.3); for each that cannot be made, the program that is not loaded. -/
def State.axisCands (s : State) (i : Fin 512) : List (Except Nat Cand) :=
  let sp (trigger k port : Nat) (t : Rat) := [s.axisCand i 2 trigger k port t t 0 4 false]
  if s.isVirtual i then sp 2 0 0xFF (s.ax P.axSpperiod i : Rat)
  else if s.overJalut i then sp 3 0 0xFF (s.tj : Rat)
  else if s.overCan i then (match s.canSpPeriod i with | some t => sp 2 0 0xFF (t : Rat) | none => [])
  else match s.portOf i with
    | none => []
    | some p =>
      let tc := s.sampleNs p
      let k := s.ax P.axPosdiv i
      let tp := s.tp i
      let cur := (s.axisCand i 0 0 0 p.val tc (tc - s.dDecNs p - 40) (s.ax P.axCurprog i) (if s.isServo i then 1 else 2) true).map
        (s.tableFigures i)
      let pos := s.axisCand i 1 1 k p.val tp tp (s.ax P.axPosprog i) 3 true
      [cur] ++ (if s.ax P.axGroup i = 0 then [pos] else if s.leads i then [pos.map (s.groupCand i)] else []) ++ sp 1 k p.val tp

/-- Ports that a program owns (R220). -/
def State.portsOfProg (s : State) (id : Nat) : List (Fin 64) := allPorts.filter fun p => s.pt P.ptKind p == 3 && s.pt P.ptOwner p == id

/-- The tasks that a program of `DV.USERTASKS` declares (R179, Tables 4.4, 5.15). Triggers 0 and 1 take the sample events of the
lowest port that the program owns; a task without one has no release and no part in the analysis. -/
def State.userCands (s : State) (tRing : Nat) (g : ProgFig) : List Cand :=
  let own := s.portsOfProg g.id
  let portTask := (g.tasks.zipIdx.find? (fun t => t.1.port)).map (·.2)
  g.tasks.zipIdx.filterMap fun (f, n) =>
    let tc := own.head?.map s.sampleNs
    let t : Option Rat := match f.trigger with
      | 0 => tc
      | 1 => tc.map fun x => (f.k : Rat) * x
      | 2 => some (f.t : Rat)
      | _ => some (s.tj : Rat)
    t.map fun t =>
      let port := match own.head? with | some p => if f.port then p.val else 0xFF | none => 0xFF
      let x := mkCand 0xFFFF 3 f.trigger f.k port t (if f.d = 0 then t else (f.d : Rat)) g n f false
      { x with j := if f.trigger = 4 then cyclesOf (tRing : Rat) else 0
               ports := if portTask = some n then own.map (·.val) else if port < 64 then [port] else [] }

/-- An entry with reason, axis and values. -/
def refusal (reason axis a b : Nat) : RefusalEntry := { reason := reason, axis := axis, a := u32Cap a, b := u32Cap b }

/-- Every task of a draft, and a refusal per program that is not loaded. -/
def State.allCands (s : State) (tRing : Nat) : List Cand × List RefusalEntry :=
  let ax := allAxes.flatMap fun i => (s.axisCands i).map fun x => (i.val, x)
  let users := s.userPrograms.eraseDups.map fun id => (id, s.prog id)
  (ax.filterMap (fun x => match x.2 with | .ok c => some c | .error _ => none)
    ++ users.flatMap (fun u => match u.2 with | some g => s.userCands tRing g | none => []),
   ax.filterMap (fun x => match x.2 with | .error n => some (refusal 0x0014 x.1 n 0) | .ok _ => none)
    ++ users.filterMap fun u => if u.2.isNone then some (refusal 0x0014 0xFFFF u.1 0) else none)

/-! ### Response times (R137, R138, R170) -/

/-- Haul and checkpoint words of a set of tasks per release (R175). -/
def haulWords (l : List Cand) : Nat := (l.map fun x => x.words + x.t.stateLen / 8).sum

/-- C′ on an engine whose queue total is `n`, with the margin `m` (R138, R170). -/
def Cand.cPrime (x : Cand) (m n : Nat) : Nat := ceilDiv ((x.t.c + x.t.w * 48 * (n - x.t.haul)) * (100 + m)) 100

/-- Utilisation C′ / T. -/
def Cand.util (x : Cand) (m n : Nat) : Rat := (x.cPrime m n : Rat) / (x.t.tCyc : Rat)

/-- Deadline-monotonic order: D, kind, axis, program, declaration (R137). -/
def Cand.before (x y : Cand) : Bool :=
  if x.dNs < y.dNs then true else if y.dNs < x.dNs then false
  else
    let k (c : Cand) : Nat := ((c.t.kind * 65536 + c.t.axis) * 65536 + c.t.prog) * 256 + c.t.sub
    decide (k x < k y)

/-- The iteration of R138: the response time, or the first value above D. `hp` are J, T and C′ of the tasks of higher priority. -/
def response (base d : Nat) (hp : List (Nat × Nat × Nat)) : Nat → Nat → Nat
  | 0, r => r
  | n + 1, r =>
    let next := base + (hp.map fun h => ceilDiv (r + h.1) h.2.1 * h.2.2).sum
    if next = r then r else if d < next then next else response base d hp n next

/-- Outcome of the analysis of one task on an engine. -/
structure Rta where
  x : Cand
  c : Nat
  b : Nat
  r : Nat
  deriving DecidableEq, Repr

def Rta.ok (a : Rta) : Bool := decide (a.r ≤ a.x.t.dCyc)

/-- Analyse tasks in priority order; `hp` are those before. -/
def rtaFrom (m n : Nat) (hp : List (Nat × Nat × Nat)) : List Cand → List Rta
  | [] => []
  | x :: rest =>
    let c := x.cPrime m n
    let b := (rest.map (·.t.h)).foldl max 0
    { x := x, c := c, b := b, r := response (c + b) x.t.dCyc hp (x.t.dCyc + 2) (c + b) }
      :: rtaFrom m n (hp ++ [(x.j, x.t.tCyc, c)]) rest

/-- The tasks of one engine, highest priority first. -/
def rta (m : Nat) (l : List Cand) : List Rta := rtaFrom m (haulWords l) [] (sortBy Cand.before l)

def engineUtil (m : Nat) (l : List Cand) : Rat := (l.map fun x => x.util m (haulWords l)).foldl (· + ·) 0

/-! ### Local memories (R554) -/

/-- Bytes of a section, counted once per program. -/
def onceEach (l : List Task) (f : Task → Nat) : Nat :=
  (l.foldl (fun (acc : List Nat × Nat) t => if acc.1.contains t.prog then acc else (t.prog :: acc.1, acc.2 + f t)) ([], 0)).2

/-- PLM, CLM X, CLM Y and DLM bytes of the tasks of an engine, and the limits. -/
def memUse (l : List Task) : List Nat := [onceEach l (·.plm), (l.map (·.cx)).sum, (l.map (·.cy)).sum, (l.map (·.dlm)).sum]
def memLimits : List Nat := [65536, 32768, 32768, 131072]

/-- The memory that is short by most when `x` joins: bytes needed and bytes free. -/
def memShort (l : List Task) (x : Task) : Option (Nat × Nat) :=
  let gap (p : Nat × Nat) : Nat := p.1 - p.2
  (((memUse l).zip (memUse (l ++ [x]))).zip memLimits).foldl (fun acc e =>
    let now : Nat × Nat := (e.1.2 - e.1.1, e.2 - e.1.1)
    if e.1.2 ≤ e.2 then acc
    else match acc with | some a => if gap a < gap now then some now else acc | none => some now) none

/-! ### Placement (R139) -/

/-- An engine in service with the tasks placed on it. -/
abbrev Load := List (Nat × List Cand)

/-- What placing a task on an engine meets. -/
structure Try where
  pass : Bool
  short : Option (Nat × Nat)
  b : Nat
  hold : Bool
  r : Nat
  deriving DecidableEq, Repr

/-- A task table holds 32 tasks and an engine serves 16 ports (R154, R165). -/
def roomFor (l : List Cand) : Bool :=
  decide (l.length ≤ 32) && decide ((l.flatMap (·.ports)).eraseDups.length ≤ 16)

def tryOn (m : Nat) (l : List Cand) (x : Cand) : Try :=
  let rs := rta m (l ++ [x])
  let own := rs.find? fun a => a.x == x
  let (c, b, r) := match own with | some a => (a.c, a.b, a.r) | none => (0, 0, 0)
  { pass := rs.all Rta.ok && roomFor (l ++ [x]), short := memShort (l.map (·.t)) x.t, b := b, hold := decide (x.t.dCyc < b + c), r := r }

/-- Why a task fits no engine (R139 step 4). -/
def unplaced (x : Cand) (ts : List (Nat × Try)) : RefusalEntry :=
  let e (reason a b : Nat) : RefusalEntry := { refusal reason x.t.axis a b with kind := x.t.kind, port := x.t.port % 256 }
  let least (l : List Nat) : Nat := match l with | [] => 0 | y :: ys => ys.foldl min y
  let passed := ts.filter (·.2.pass)
  if !ts.isEmpty && ts.all (·.2.hold) then e 0x0013 (least (ts.map (·.2.b))) x.t.dCyc
  else match passed.filterMap (fun t => t.2.short.map fun q => (t.1, q)) with
    | y :: ys =>
      let best := ys.foldl (fun a q => if q.2.1 - q.2.2 < a.2.1 - a.2.2 then q else a) y
      { e 0x0012 best.2.1 best.2.2 with engine := best.1 }
    | [] => e 0x0010 (nsOf (least (ts.map (·.2.r)))) x.t.dNs

/-- Place one task: the engine of lowest utilisation on which every task passes and the memories hold it. -/
def placeOne (m : Nat) (ld : Load) (x : Cand) : Load × Option RefusalEntry :=
  let order := sortBy (fun (a b : Rat × Nat × List Cand) => decide (a.1 < b.1)) (ld.map fun e => (engineUtil m e.2, e.1, e.2))
  let ts := order.map fun e => (e.2.1, tryOn m e.2.2 x)
  match ts.find? (fun t => t.2.pass && t.2.short.isNone) with
  | some (e, _) => (ld.map fun y => if y.1 = e then (y.1, y.2 ++ [x]) else y, none)
  | none => (ld, some (unplaced x ts))

/-- Place the tasks that are not pinned: highest utilisation first, ties in the order of R137 (R139 steps 2 to 4). -/
def placeAll (m : Nat) (ld : Load) (xs : List Cand) : Load × List RefusalEntry :=
  let u (x : Cand) : Rat := x.util m x.t.haul
  let sorted := sortBy (fun x y => decide (u y < u x) || (u x == u y && x.before y)) xs
  sorted.foldl (fun acc x =>
    let r := placeOne m acc.1 x
    (r.1, acc.2 ++ r.2.toList)) (ld, [])

/-! ### The whole analysis -/

/-- The task rides through a migration (R147). -/
def Rta.rides (a : Rta) : Bool :=
  decide (20000 ≤ a.x.tNs) && decide ((a.r : Rat) * mkRat 5 6 + 15000 ≤ a.x.tNs)

/-- Slots of the ports that the tasks of an engine need (R154): pinned tasks keep theirs, the others take the lowest free one. -/
def slotsFor (l : List Cand) : List (Nat × Nat) :=
  ((l.flatMap (·.ports)).eraseDups).foldl (fun (m : List (Nat × Nat)) p =>
    if m.any fun x => x.1 == p then m
    else match (List.range 16).find? fun n => !m.any fun x => x.2 == n with
      | some n => m ++ [(p, n)]
      | none => m) ((l.filter (·.t.pinned)).flatMap (·.t.slots)).eraseDups

/-- The tasks of an engine as placed: rank, C′, R, `NO_RIDE`, port slots. -/
def placedTasks (m e : Nat) (l : List Cand) : List Task :=
  let map := slotsFor l
  (rta m l).zipIdx.map fun (a, rank) =>
    let own := map.filter fun x => a.x.ports.contains x.1
    { a.x.t with engine := e, rank := rank, cPrime := a.c, rNs := nsOf a.r, noRide := !a.rides
                 slot := (a.x.ports.head?.bind fun p => (own.find? fun x => x.1 == p).map (·.2)).getD 0xFF, slots := own }

/-- A pinned task that fails R138. -/
def pinnedMisses (m e : Nat) (l : List Cand) : List RefusalEntry :=
  ((rta m l).filter fun a => !a.ok).map fun a =>
    { refusal 0x0011 a.x.t.axis (nsOf a.r) a.x.t.dNs with engine := e, kind := a.x.t.kind, port := a.x.t.port % 256 }

/-- R136 on an engine: 24 FABCLK cycles, which are 40 ns, per word. -/
def haulMisses (e : Nat) (l : List Cand) : List RefusalEntry :=
  let bound := 40 * haulWords l
  (l.filter fun x => x.words + x.t.stateLen != 0 && decide (x.tNs < (bound : Rat))).map fun x =>
    { refusal 0x0018 x.t.axis bound x.t.tNs with engine := e, kind := x.t.kind, port := x.t.port % 256 }

/-- Result of the engine analysis. -/
structure Placing where
  tasks : List Task
  refusals : List RefusalEntry
  /-- roles as codes of Table 4.9 -/
  roles : List Nat
  deriving DecidableEq, Repr

/-- The engine that runs a task placed on engine `e`: after a failure the hard shoulder that takes its task set (R146). -/
def State.engineNow (s : State) (e : Nat) : Nat :=
  match fin? 24 e with
  | some f => ((s.eng[f]).migrateTo.map (·.val)).getD e
  | none => e

/-- Pin the tasks of the axes that were enabled: they keep engine, addresses and slots (R139 step 1). -/
def State.pinTask (s : State) (pins : List (Nat × Nat)) (x : Cand) : Cand :=
  if pins.any (fun p => p.1 == x.t.axis) then
    match s.cfg.tasks.find? (fun t => t.axis == x.t.axis && t.kind == x.t.kind) with
    | some t =>
      { x with t := { x.t with
          pinned := true, engine := s.engineNow t.engine, pcEntry := t.pcEntry, dlmBase := t.dlmBase, cxBase := t.cxBase
          cyBase := t.cyBase, slots := t.slots } }
    | none => x
  else x

/-- Engines that become hard shoulders: the highest-numbered ones that are not retired and carry no pinned task (R145), `n` of
them. -/
def State.pickShoulders (s : State) (pinned : List Nat) (n : Nat) : List Nat :=
  (((allEngines.filter fun e => (s.eng[e]).role != .retired && !pinned.contains e.val).map (·.val)).reverse).take n

/-- The engine analysis of a draft: `d` is the state with the draft's values, `pins` the axes pinned, `tRing` the jitter of
trigger 4 in ns. -/
def State.placing (d : State) (pins : List (Nat × Nat)) (tRing : Nat) : Placing :=
  let m := d.dv P.dvAdmmargin
  let hs := d.dv P.dvHscount
  let (cs, noProg) := d.allCands tRing
  let cs := cs.map (d.pinTask pins)
  let pinned := cs.filter (·.t.pinned)
  let used := (pinned.map (·.t.engine)).eraseDups
  let alive := (allEngines.filter fun e => (d.eng[e]).role != .retired).map (·.val)
  let free := alive.filter fun e => !used.contains e
  let sh := d.pickShoulders used hs
  let service := alive.filter fun e => !sh.contains e
  let ld : Load := service.map fun e => (e, pinned.filter fun x => x.t.engine == e)
  let miss := ld.flatMap fun e => pinnedMisses m e.1 e.2
  let dead := (pinned.filter fun x => !alive.contains x.t.engine).map fun x =>
    { refusal 0x0007 x.t.axis x.t.engine 0 with engine := x.t.engine, kind := x.t.kind, port := x.t.port % 256 }
  let r := placeAll m ld (cs.filter fun x => !x.t.pinned)
  { tasks := r.1.flatMap fun e => placedTasks m e.1 e.2
    roles := (List.range 24).map fun e => if !alive.contains e then 2 else if sh.contains e then 1 else 0
    refusals := noProg ++ dead ++ miss ++ r.2 ++ r.1.flatMap (fun e => haulMisses e.1 e.2)
      ++ (if free.length < hs ∨ service.isEmpty = true then [refusal 0x0017 0xFFFF free.length hs] else []) }

end Sys2Proof.Machine
end

