-- ==== Sys2Proof/Machine/TableLoad.lean ====
section
/-!
DEFINITION. `TABLE_LOAD` and the activation of a loaded table (R301, R359, Tables 9.4 to 9.6, 11.3).
-/
namespace Sys2Proof.Machine

/-- Words of a group table: header, tension inputs, matrices (Table 9.5). -/
def groupWord (m k : Nat) (b : List Byte) : Check Unit :=
  if k = 0 then need (rsvZero b 3 1) .range 0
  else if k < 4 then need (allZero b) .range 0
  else if k < 4 + 3 * m ∧ k % 3 = 1 then need ((u8 b 1 == 2 || u8 b 1 == 3) && rsvZero b 2 2) .range 0
  else need (fpFinite (fp b 0)) .range 0x0104

/-- Words of a cam table: header, points (Table 11.3); `interp` of the last point is ignored. -/
def camWord (n k : Nat) (b : List Byte) : Check Unit :=
  if k = 0 then need (decide (2 ≤ u32 b 0) && decide (u32 b 0 ≤ 4096)) .range 0
  else if k = 1 then need (decide (u32 b 0 < 2)) .range 0
  else if k < 4 then need (allZero b) .range 0
  else if (k - 4) % 6 = 4 then need (fpFinite (fp b 0)) .range 0x0104
  else if (k - 4) % 6 = 5 then need ((decide (u8 b 0 < 2) || (k - 4) / 6 + 1 == n) && rsvZero b 1 3) .range 0
  else .ok ()

/-- Check word `k` and those after it; `b` are the bytes from word `k` on. -/
def tableWords (f : Nat → List Byte → Check Unit) : Nat → Nat → List Byte → Check Unit
  | 0, _, _ => .ok ()
  | n + 1, k, b => do
    f k (b.take 4)
    tableWords f n (k + 1) (b.drop 4)

/-- The points of a cam received so far: x_0 = 0, then strictly rising. -/
def camRising (all : List Byte) : Bool :=
  let n := (all.length - 16) / 24
  let xs := (List.range n).map fun k => i64 all (16 + 24 * k)
  match xs with
  | [] => true
  | x :: _ => x == 0 && (xs.zip (xs.drop 1)).all fun p => decide (p.1 < p.2)

/-- Contents of a table as received so far; the words before `got` bytes have passed. -/
def tableContents (table got : Nat) (all : List Byte) : Check Unit := do
  let k := got / 4
  let n := all.length / 4 - k
  let rest := all.drop (4 * k)
  match table with
  | 2 => tableWords (groupWord (u8 all 1)) n k rest
  | 3 => do
    tableWords (camWord (u32 all 0)) n k rest
    need (camRising all) .range 0x0104
  | _ => tableWords (fun _ b => need (fpFinite (fp b 0)) .range 0x0104) n k rest

/-- Bytes of a group table with its dimensions (Table 9.5). -/
def GroupTable.size (g : GroupTable) : Nat := g.base 5

/-- Dimensions of a group table: within their ranges, the size they give, and those of the committed group (Table 9.6). -/
def State.groupDims (s : State) (i : Fin 512) (all : List Byte) (total : Nat) : Bool :=
  let g := groupTable all
  decide (2 ≤ g.n) && decide (g.n ≤ 8) && decide (g.m ≤ 7) && decide (1 ≤ g.nx) && decide (g.nx ≤ 24) && total == g.size
    && (!s.leads i || (g.n == (s.groupMembers i).length &&
      match assocGet? s.tables.group i.val with
      | some old => g.m == (groupTable old).m && g.nx == (groupTable old).nx
      | none => true))

/-- Leader of a group in the committed configuration or in the open draft. -/
def State.leadsAny (s : State) (i : Fin 512) : Bool :=
  s.leads i || (match s.cfg.draft with | some d => (s.draftView d).leads i | none => false)

/-- Space of a table in the cam store (R359). -/
def camSpace (n : Nat) : Nat := (n + 63) / 64 * 64

/-- Space taken in the cam store by loaded cams and by cam loads in progress. -/
def State.camsUsed (s : State) (loads : List TableLoad) : Nat :=
  (s.tables.cams.map (fun c => camSpace c.2.length)).sum + ((loads.filter (·.table == 3)).map (fun l => camSpace l.total)).sum

/-- An axis runs on a cam. -/
def State.camEngaged (s : State) (n : Nat) : Bool :=
  allAxes.any fun i => s.axes[i].prof.source == .cam &&
    (match s.axes[i].coord.cam with | some k => k.cam.val == n | none => false)

/-- The axis checks of Table 9.6. -/
def State.tableTarget (s : State) (p : Packet) (table cam : Nat) : Check Unit :=
  match fin? 512 p.axis.toNat with
  | none => if table = 3 then need (decide (cam < 64)) .range 0 else .error (.badTarget, 0)
  | some i =>
    if table = 3 then .error (.range, 0)
    else do
      need (s.bound i || (table == 2 && s.leadsAny i)) .badTarget 0
      s.notRetired i
      need (if table = 2 then s.leadsAny i else s.isLocal i) .state 0x0101
      need (!(table == 0 && s.ax P.axFricen i == 0) && !(table == 1 && s.ax P.axCogen i == 0)) .state 0x0102

/-- The range of `total`. -/
def State.tableTotal (s : State) (p : Packet) (table total : Nat) : Bool :=
  match table with
  | 2 => decide (16 ≤ total) && total % 4 == 0
  | 3 => decide (64 ≤ total) && decide (total ≤ 98320) && (total - 16) % 24 == 0
  | _ => match fin? 512 p.axis.toNat with
    | some i => decide (2 ≤ total) && decide (total ≤ s.ax P.axTblcap i)
    | none => false

/-- `TABLE_LOAD` (Tables 9.4, 9.6): one load is open per axis, and one of cams; a new load replaces it. -/
def opTableLoad (_ : Instant) (p : Packet) (s : State) : HRes :=
  .ofCheck s do
    let a := p.args
    need (decide (16 ≤ a.length)) .badLength 0x0004
    let table := u8 a 0
    let cam := u16 a 2
    let first := u32 a 4
    let total := u32 a 8
    let data := a.drop 12
    let unit := if table < 2 then 8 else 1
    let ax := p.axis.toNat
    need (decide (table ≤ 3) && rsvZero a 1 1 && (table == 3 || cam == 0)) .range 0
    s.tableTarget p table cam
    need (!(table == 3 && s.camEngaged cam)) .state 0x000D
    let same (l : TableLoad) : Bool := l.table == table && l.axis == ax && l.cam == cam
    let open_ := s.tables.loads.filter fun l => l.ref.isNone && l.axis == ax
    need (!s.tables.loads.any (fun l => l.ref.isSome && same l)) .busy 0x0102
    need (first == 0 || !open_.any (fun l => !same l)) .busy 0x0101
    let cur := if first = 0 then none else open_.find? same
    let got := (cur.map (·.data)).getD []
    need (first * unit == got.length) .range 0x0101
    need (s.tableTotal p table total && data.length % unit == 0 && (match cur with | some l => l.total == total | none => true))
      .range 0x0102
    let all := got ++ data
    need (decide (all.length ≤ total * unit)) .range 0x0103
    tableContents table got.length all
    need (table != 2 || (match fin? 512 ax with | some i => s.groupDims i all total | none => false)) .range 0x0105
    need (table != 3 || u32 all 0 == (total - 16) / 24) .range 0x0102
    let others := s.tables.loads.filter fun l => l.ref.isSome || l.axis != ax
    need (table != 3 || first != 0 || decide (s.camsUsed others + camSpace total ≤ s.dv P.dvCrcambytes)) .queueFull 0x0101
    let r := s.refOf p
    let l : TableLoad :=
      { table := table, axis := ax, cam := cam, total := total, data := all, src := p.src, sid := r.sid
        ref := if all.length = total * unit then some r else none }
    let s : State := { s with tables := { s.tables with loads := others ++ [l] } }
    return (if l.ref.isSome then .accepted s else .ok s)

/-- Put a complete table into use (R301, R359). -/
def Tables.activate (t : Tables) (l : TableLoad) : Tables :=
  match l.table with
  | 0 => { t with fric := assocSet t.fric l.axis l.data }
  | 1 => { t with cog := assocSet t.cog l.axis l.data }
  | 2 => { t with group := assocSet t.group l.axis l.data }
  | _ => { t with cams := assocSet t.cams l.cam l.data }

/-- `TABLE_ACTIVATE`: the load that completed first becomes active. -/
def execTableActivate (s : State) : Out :=
  s.main
    (match s.tables.loads.find? (fun l => l.ref.isSome) with
     | none => s
     | some l =>
       let s : State := { s with tables := { s.tables.activate l with loads := s.tables.loads.erase l } }
       s.complete? l.ref .done 0 s.now)

end Sys2Proof.Machine
end

