-- ==== Sys2Proof/Machine/AdmitChecks.lean ====
section
/-!
DEFINITION. The further checks of admission (R140, R141, Tables 4.5 and 4.7): bindings, buses, parameters, units, mailboxes, the
Crossroads pool, Jalut cycles, gate control lists, CAN schedules and chains. Each gives its entries of the refusal list.
-/
namespace Sys2Proof.Machine

/-! ### Bindings and buses (R23, R27, R248) -/

/-- Axes bound to a port in a draft. -/
def State.boundTo (d : State) (p : Nat) : List (Fin 512) := allAxes.filter fun i => d.isLocal i && d.ax P.axPort i == p

/-- Entry of a port check: it names the axis bound to the port, when there is one. -/
def State.portRefusal (d : State) (reason : Nat) (p : Fin 64) (a b : Nat) : RefusalEntry :=
  { refusal reason (match d.boundTo p.val with | i :: _ => i.val | [] => 0xFFFF) a b with port := p.val }

/-- R23: one axis to a port, of the port's kind. -/
def State.checkPorts (d : State) : List RefusalEntry :=
  allAxes.flatMap fun i =>
    let n := d.ax P.axPort i
    let e (reason a b : Nat) : List RefusalEntry := [{ refusal reason i.val a b with port := n % 256 }]
    if !d.isLocal i then [] else
      (match if n < 64 then (d.boundTo n).filter (· != i) else [] with | j :: _ => e 0x0001 n j.val | [] => [])
      ++ (match fin? 64 n with
          | some p => if d.pt P.ptKind p = (if d.isServo i then 1 else 2) then [] else e 0x0002 n (d.pt P.ptKind p)
          | none => [])

/-- R27: the fields of a binding. -/
def State.checkBinds (d : State) : List RefusalEntry :=
  allAxes.flatMap fun i =>
    let has := d.ax P.axPort i != 0xFF
    let net := d.ax P.axNetkind i != 0
    let bad (c : Bool) (k : Nat) : List RefusalEntry := if c then [refusal 0x0003 i.val k 0] else []
    bad (has != d.isLocal i) P.axPort.idx ++ bad (net != d.isNet i) P.axNetkind.idx

/-- R248. -/
def State.checkBuses (d : State) : List RefusalEntry :=
  allPorts.flatMap (fun p =>
    let b := d.busOf p
    if d.pt P.ptKind p ≠ 0 ∧ d.dv P.dvDcbEn b.val = 0 then [d.portRefusal 0x0004 p p.val b.val] else [])
  ++ allBuses.flatMap fun b =>
    let q := d.dv P.dvDcbSdport b.val
    if d.dv P.dvDcbEn b.val = 1 ∧ d.portUnused q = true then [{ refusal 0x0004 0xFFFF q b.val with port := q }] else []

/-! ### Parameters of one unit (0x0005) -/

def mismatch (axis : Nat) (l : List (Nat × Nat)) : List RefusalEntry := l.map fun x => refusal 0x0005 axis x.1 x.2

/-- Deepest chain of slaves above an axis (R349); a cycle exhausts the fuel. -/
def State.chainDepth (d : State) : Nat → Fin 512 → Nat
  | 0, _ => 0
  | n + 1, i =>
    if !d.hasMaster i then 0
    else if d.ax P.axMasterpath i ≠ 0 then 1
    else match fin? 512 (d.ax P.axMaster i) with
      | some j => 1 + d.chainDepth n j
      | none => 1

/-- R349. -/
def State.r349 (d : State) (i : Fin 512) : List (Nat × Nat) :=
  if !d.hasMaster i || d.ax P.axMasterpath i != 0 then []
  else match fin? 512 (d.ax P.axMaster i) with
    | none => []
    | some j =>
      pairIf (j == i) 0x0900 0x0900 ++ pairIf (!d.bound j) 0x0900 0x0000
        ++ pairIf (j != i && decide (4 < d.chainDepth 6 i)) 0x0900 0x0901

/-- R280: T_p of at least 15,625 ns. -/
def State.r280 (d : State) (i : Fin 512) : List (Nat × Nat) := pairIf (decide (d.tp i < 15625)) 0x0301 0x0002

/-- Members of groups and path groups: only the leader reports the group's own conditions. -/
def State.pathMembers (d : State) (i : Fin 512) : List (Fin 512) :=
  let g := d.ax P.axPathgrp i
  if g = 0 then [] else allAxes.filter fun j => d.bound j && d.ax P.axPathgrp j == g

/-- A path group has at most eight axes. -/
def State.checkPath (d : State) (i : Fin 512) : List (Nat × Nat) :=
  let ms := d.pathMembers i
  pairIf (ms.head? == some i && decide (8 < ms.length)) P.axPathgrp.idx P.axPathgrp.idx

/-- A tension source names a port of the group and an input that its axis does not use (R293). -/
def State.tensionOk (d : State) (ms : List (Fin 512)) (port input : Nat) : Bool :=
  match ms.find? fun j => d.ax P.axPort j == port with
  | none => false
  | some j =>
    let vs := d.ax P.axVbussrc j
    d.ax P.axFbmode j != 6 && vs + 1 != input

/-- R293, a member's own part. -/
def State.groupMember (d : State) (i : Fin 512) : List (Nat × Nat) :=
  if d.ax P.axGroup i = 0 then []
  else
    let g := P.axGroup.idx
    let l := ((d.groupMembers i).head?).getD i
    let differs (f : Fin 64 → Nat) : Bool :=
      match d.portOf i, d.portOf l with | some p, some q => f p != f q | _, _ => false
    pairIf (!d.isLocal i) g 0x0000 ++ pairIf (d.isStep i && d.ax P.axFbmode i == 0) g P.axFbmode.idx
      ++ pairIf (differs d.period) g P.ptPeriod.idx ++ pairIf (differs fun p => d.pt P.ptUpdate p) g P.ptUpdate.idx
      ++ pairIf (differs fun p => d.pt P.ptPhase p) g P.ptPhase.idx
      ++ pairIf (d.ax P.axPosdiv i != d.ax P.axPosdiv l) g P.axPosdiv.idx
      ++ pairIf (d.ax P.axPosprog i != 0) g P.axPosprog.idx

/-- R293, the leader's part: the size of the group and its table. -/
def State.groupLeader (d : State) (i : Fin 512) : List (Nat × Nat) :=
  if !d.leads i then []
  else
    let g := P.axGroup.idx
    let ms := d.groupMembers i
    pairIf (decide (ms.length < 2) || decide (8 < ms.length)) g g
      ++ (match assocGet? d.tables.group i.val with
          | none => [(g, g)]
          | some bs =>
            let t := groupTable bs
            let srcs := (List.range t.m).map fun j => (u8 bs (16 + 12 * j), u8 bs (17 + 12 * j))
            pairIf (t.n != ms.length) g g ++ pairIf (srcs.any fun x => !d.tensionOk ms x.1 x.2) g P.axVbussrc.idx)

/-- Every relation of an axis that a commit checks. -/
def State.axisMismatch (d : State) (i : Fin 512) : List (Nat × Nat) :=
  if !d.bound i then []
  else
    d.r306 i ++ d.r349 i ++ d.checkPath i ++ d.groupMember i ++ d.groupLeader i
      ++ (match d.portOf i with
          | none => []
          | some p => d.r193 i ++ d.r207 i ++ d.r258 i p ++ d.r280 i ++ d.r288 i ++ d.r325 i ++ d.r339 i p)

/-- Every relation of a port. -/
def State.portMismatch (d : State) (p : Fin 64) : List (Nat × Nat) :=
  d.r221 p ++ d.r212 p ++ d.r247 p

/-- Bytes that enabled compensation tables take in the table area of Table 15.4: two buffers of `AX.TBLCAP` entries of 8 bytes. -/
def State.tableDemand (d : State) : Nat :=
  (allAxes.map fun i => if !d.isLocal i then 0
    else 16 * d.ax P.axTblcap i * (b2n (d.ax P.axFricen i != 0) + b2n (d.ax P.axCogen i != 0))).sum

/-- R430: both ports of a pair alike. -/
def State.r430 (d : State) (q : Fin 2) : List (Nat × Nat) :=
  let a := pairPort q 0
  let b := pairPort q 1
  pairIf (d.ethUse a != d.ethUse b) (0x0202 + 0x10 * a.val) (0x0202 + 0x10 * b.val)
    ++ pairIf (d.ethMode a != d.ethMode b) (0x0200 + 0x10 * a.val) (0x0200 + 0x10 * b.val)

/-- A nominal bit within R449. -/
def CanTiming.nominalOk (t : CanTiming) : Bool :=
  decide (t.sjw ≤ t.seg1) && decide (t.sjw ≤ t.seg2) && decide (8 ≤ t.quanta) && decide (1000 ≤ t.tBit) && decide (t.tBit ≤ 100000)

/-- A data bit within R449, of a format whose fastest bit is `tMin` ns, on a nominal bit of `tn` ns. -/
def CanTiming.dataOk (t : CanTiming) (tMin tn : Nat) : Bool :=
  decide (t.sjw ≤ t.seg1) && decide (t.sjw ≤ t.seg2) && decide (5 ≤ t.quanta) && decide (tMin ≤ t.tBit) && decide (t.tBit ≤ tn)
    && (t.tdc || decide (1000 ≤ t.tBit))

/-- R449. -/
def State.r449 (d : State) (c : Fin 4) : List (Nat × Nat) :=
  let f := d.dv P.dvCanFmt c.val
  let o (x : PDef) : Nat := x.idx + 0x10 * c.val
  let tn := (d.canTn c).tBit
  if f = 0 then []
  else
    pairIf (!(d.canTn c).nominalOk) (o P.dvCanNbt) (o P.dvCanNbt)
      ++ pairIf (decide (2 ≤ d.dv P.dvCanOpmode c.val) && (d.abrWords c).any fun w => !(nominalTiming w).nominalOk)
          (o P.dvCanAbrlist) (o P.dvCanAbrlist)
      ++ pairIf (decide (2 ≤ f) && !(d.canTd c 2).dataOk 125 tn) (o P.dvCanDbt) (o P.dvCanNbt)
      ++ pairIf (f == 3 && !(d.canTd c 3).dataOk 100 tn) (o P.dvCanXbt) (o P.dvCanNbt)

/-- Every `PARAM_MISMATCH` but that of the pool. -/
def State.checkParams (d : State) : List RefusalEntry :=
  allAxes.flatMap (fun i => mismatch i.val (d.axisMismatch i))
  ++ allPorts.flatMap (fun p => (d.portMismatch p).map fun x => d.portRefusal 0x0005 p x.1 x.2)
  ++ mismatch 0xFFFF (allBuses.flatMap d.r255 ++ d.r423 ++ d.r430 0 ++ d.r430 1 ++ (List.finRange 4).flatMap d.r449
      ++ pairIf (decide (1536 * 1024 < d.tableDemand)) P.axTblcap.idx P.axTblcap.idx)

/-! ### Enabled axes and retired units (0x0006, 0x0007, 0x0019) -/

/-- Keys of the draft parameters whose value in `d` differs from that in `s`. -/
def State.changedKeys (s d : State) : List Nat :=
  (((s.cfg.params ++ d.cfg.params).map (·.1)).eraseDups).filter fun k =>
    (match keyDef k with | some (x, _, _) => x.chg == .draft | none => false)
      && assocGet? s.cfg.params k != assocGet? d.cfg.params k

/-- DC bus of a device parameter that belongs to one bus. -/
def busKey (k : Nat) : Option Nat :=
  let x := k % 2 ^ 16
  if 0x0500 ≤ x ∧ x < 0x0580 then some ((x - 0x0500) / 16) else none

def keyFam (k : Nat) : Nat := k / 2 ^ 32
def keyInst (k : Nat) : Nat := k / 2 ^ 16 % 2 ^ 16

/-- The key is a parameter of the axis, of its port or of its DC bus. -/
def State.keyOf (s : State) (i : Fin 512) (k : Nat) : Bool :=
  match keyFam k with
  | 1 => keyInst k == i.val
  | 2 => (s.portOf i).map (·.val) == some (keyInst k)
  | 3 => (busKey k).isSome && busKey k == (s.portOf i).map (fun p => (s.busOf p).val)
  | _ => false

/-- A parameter of the device as a whole. -/
def deviceKey (k : Nat) : Bool := keyFam k == 3 && (busKey k).isNone

/-- `ENABLED_CHANGED`, with the axis states taken at the arrival of the commit. -/
def State.checkEnabled (s d : State) (pins : List (Nat × Nat)) : List RefusalEntry :=
  let ks := s.changedKeys d
  pins.flatMap fun pin =>
    match fin? 512 pin.1 with
    | none => []
    | some i => (ks.filter fun k => s.keyOf i k || deviceKey k).map fun k => refusal 0x0006 i.val (k % 2 ^ 16) pin.2

/-- `RETIRED_UNIT`: an axis bound to a retired port or feedback unit. -/
def State.checkRetired (d : State) : List RefusalEntry :=
  allAxes.flatMap fun i =>
    match d.portOf i with
    | some p => if d.portRetired p || d.fbRetired p then [{ refusal 0x0007 i.val p.val 0 with port := p.val }] else []
    | none => []

/-- `ENGINES_CHANGED`: engines retired since the analysis began. -/
def State.checkEngines (s : State) (before : Nat) : List RefusalEntry :=
  (allEngines.filter fun e => s.engRetired e && !bit before e.val).map fun e => { refusal 0x0019 0xFFFF e.val 0 with engine := e.val }

/-! ### Mailboxes (R21) and the pool (R482) -/

/-- R21 on the setpoint and current mailboxes of the local axes; the reader's worst-case time is that of the reading program, which
the spec does not state (log 32). -/
def State.checkMailboxes (d : State) : List RefusalEntry :=
  allAxes.flatMap fun i =>
    if !d.isLocal i then []
    else
      let w := d.tp i
      let box (k : Nat) : List RefusalEntry :=
        let r := (Config.mailboxRead k).toNat
        if (r : Rat) < w then [] else [refusal 0x0015 i.val r w.floor.toNat]
      box 0 ++ box 1

/-- Bytes in units of the pool. -/
def poolUnits (n : Nat) : Nat := ceilDiv n 4096

/-- Size of a checkpoint area: two slots and a sequence word, in the form of a mailbox (R176, R20). -/
def ckptArea (t : Task) : Nat := if t.stateLen = 0 then 0 else 16 + 2 * t.stateLen

/-- Units that each item of R482 takes, in its order: engine images, checkpoint areas, sample histories, receive queues, cam store,
Waymark buffer. -/
def State.poolItems (d : State) (ts : List Task) : List Nat × List Nat × List Nat × List Nat × Nat × Nat :=
  (allEngines.map fun e => poolUnits (memUse (ts.filter fun t => t.engine == e.val)).sum,
   ts.map fun t => poolUnits (ckptArea t),
   (allAxes.filter d.bound).map fun _ => poolUnits 1536,
   (List.finRange 4).flatMap fun c => (itemsOf 4 (d.dv P.dvCanRxbytes c.val) 4).map poolUnits,
   poolUnits (d.dv P.dvCrcambytes), poolUnits (d.dv P.dvWmBufbytes))

/-- Units of the whole demand. -/
def State.poolDemand (d : State) (ts : List Task) : Nat :=
  let (a, b, c, q, x, w) := d.poolItems ts
  a.sum + b.sum + c.sum + q.sum + x + w

/-- 24,944 KiB (Table 15.4). -/
def poolSize : Nat := 6236

def State.checkPool (d : State) (ts : List Task) : List RefusalEntry :=
  let n := d.poolDemand ts
  if n ≤ poolSize then [] else [refusal 0x0005 0xFFFF P.dvWmBufbytes.idx ((n - poolSize) * 4096)]

/-! ### Jalut cycle (R436) -/

/-- Members that the ring of this device carries: every index that is not `ABSENT`. -/
def State.ringMembers (s : State) : List (Fin 15) := allMembers.filter fun m => s.net.members[m].st != .absent

/-- The Jalut version that a ring of this device would run with the draft (R442). -/
def State.draftVersion (d : State) : Nat :=
  topVersion (d.ringMembers.foldl (fun a m => a &&& (if d.net.members[m].jalut = 1 then 2 else 6)) d.jalutMask)

/-- Master images that a member's two sections carry. -/
def imagesOf (j : JunctionFacts) (m : Fin 15) : Nat :=
  match j.images.find? fun x => x.1 == m with | some x => x.2.1.toNat + x.2.2.toNat | none => 0

/-- Bytes of the sections of a ring of version `v`. -/
def State.sectionBytes (d : State) (j : JunctionFacts) (v : Nat) : Nat :=
  let head := if v = 2 then 8 else 4
  (d.ringMembers.map fun m =>
    let n := (allAxes.filter fun i => d.overJalut i && d.netMember i == m.val + 1).length
    2 * head + 80 * n + 40 * imagesOf j m).sum

/-- Rate in Mb/s and d_node in ns of an Ethernet mode. -/
def ethRate : Nat → Option (Nat × Nat)
  | 1 => some (1000, 1000)
  | 2 => some (2500, 600)
  | 3 => some (10000, 320)
  | _ => none

/-- T_ring in ns, and the bytes of the sections, of the ring that this device leads. -/
def State.ringTime (d : State) (j : JunctionFacts) : Option (Rat × Nat × Nat) :=
  match d.pairOf 2 with
  | none => none
  | some q => match ethRate (d.ethMode (pairPort q 0)) with
    | none => none
    | some (r, node) =>
      let v := d.draftVersion
      let sec := d.sectionBytes j v
      let b := 8 + 14 + 6 + (if v = 2 then 32 else 16) + sec + 4 + 12
      let m := d.ringMembers.length
      some (mkRat (8000 * b) r + (((m + 1) * d.dv P.dvJalutcable + m * node : Nat) : Rat), sec, v)

def State.checkJalut (d : State) (j : JunctionFacts) : List RefusalEntry :=
  match d.ringTime j with
  | none => []
  | some (t, sec, v) =>
    if d.jalutWindow < t ∨ (if v = 2 then 8192 else 1440) < sec then
      [refusal 0x0020 0xFFFF (t.ceil.toNat) d.jalutWindow.floor.toNat] else []

/-- Jitter of trigger 4 in ns: T_ring of the ring whose frames this device receives. -/
def State.frameJitter (d : State) (j : JunctionFacts) : Nat :=
  if d.net.index ≠ 0 then j.upRing.toNat else match d.ringTime j with | some x => x.1.ceil.toNat | none => 0

/-! ### Gate control lists (R431) -/

/-- Intervals of a list in ns, up to its first zero word. -/
def State.gclList (d : State) (e : Fin 4) : List Nat := ((itemsOf 4 (d.dv P.dvEthGcl e.val) 64).takeWhile (· != 0)).map (· / 256)

/-- The list fits the span it runs over. -/
def gclOk (l : List Nat) (span : Rat) : Bool :=
  let body := l.dropLast
  let last := l.getLastD 1
  let open_ := !l.isEmpty && last == 0
  let timed := if open_ then body else l
  timed.all (fun x => decide (1000 ≤ x)) && decide ((timed.sum : Rat) ≤ span) && (open_ || (timed.sum : Rat) == span)

def State.checkGcl (d : State) : List RefusalEntry :=
  (List.finRange 4).flatMap fun e =>
    let span : Rat := (d.tj : Rat) - (if d.ethUse e = 1 ∨ d.ethUse e = 2 then d.jalutWindow else 0)
    if gclOk (d.gclList e) span then []
    else
      let v := Config.gclValues e
      [refusal 0x0021 0xFFFF v.1.toNat v.2.toNat]

/-! ### CAN schedules (R461, R467) -/

/-- Entry of reason 0x0022. -/
def canRefusal (axis check : Nat) (c : Fin 4) (k ns : Nat) : RefusalEntry := refusal 0x0022 axis (check * 65536 + c.val * 256 + k) ns

/-- Checks 1 to 4 of R461 on a controller. -/
def State.checkMatrix (d : State) (c : Fin 4) : List RefusalEntry :=
  let es := d.canMatrix c
  let marks := d.canMarks c
  let win := 1000 * d.dv P.dvCanTxenwin c.val
  let refNs := d.frameNs c 1 4 false false + win
  let sends := es.zipIdx.filter fun x => x.1.sends
  (es.zipIdx.flatMap fun x => if marks.getD (x.2 + 1) 0 ≤ marks.getD x.2 0 then [canRefusal 0xFFFF 1 c x.2 0] else [])
  ++ (es.zipIdx.flatMap fun x =>
    let fmt := (d.slotCfg c x.1.slot).fmt
    if x.1.ofs < 2 ^ x.1.rep && decide (x.1.rep ≤ 6) && (!x.1.sends || (fmt != 0 && decide (fmt ≤ d.dv P.dvCanFmt c.val))) then []
    else [canRefusal 0xFFFF 2 c x.2 0])
  ++ (if refNs ≤ marks.getD 0 0 then [] else [canRefusal 0xFFFF 3 c 0 refNs])
  ++ sends.flatMap fun x =>
    let g := d.slotCfg c x.1.slot
    let need := d.frameNs c g.fmt g.maxLen g.ide g.brs + win
    if need ≤ marks.getD (x.2 + 1) 0 - marks.getD x.2 0 then [] else [canRefusal 0xFFFF 4 c x.2 need]

/-- Controller, slot and report identifier of a `NET` axis over CAN (R466). -/
def State.canAddr (d : State) (i : Fin 512) : Fin 4 × Nat × Nat :=
  let a := d.ax P.axNetaddr i
  (⟨bits a 1 0 % 4, Nat.mod_lt _ (by decide)⟩, bits a 6 2, bits a 18 8)

/-- Check 5 of R461 (R467). -/
def State.checkNetCan (d : State) (i : Fin 512) : List RefusalEntry :=
  if !d.overCan i then []
  else
    let (c, k, ident) := d.canAddr i
    let g := d.slotCfg c k
    let named := (d.canMatrix c).filter fun e => e.sends && e.slot == k
    let others := allAxes.filter fun j => j != i && d.overCan j && (d.canAddr j).1 == c
    if d.dv P.dvCanTt c.val == 1 && decide (2 ≤ d.dv P.dvCanFmt c.val) && g.rpt && decide (48 ≤ g.maxLen)
        && named.map (·.kind) == [1] && others.all (fun j => (d.canAddr j).2.1 != k && (d.canAddr j).2.2 != ident) then []
    else [canRefusal i.val 5 c k 0]

def State.checkCan (d : State) : List RefusalEntry :=
  ((List.finRange 4).filter fun c => d.dv P.dvCanTt c.val != 0).flatMap d.checkMatrix ++ allAxes.flatMap d.checkNetCan

/-! ### Chains across devices (R444) -/

/-- `NET` axes whose member is not in the commit or that share a remote axis, and, at the top leader, remote masters on a route that
leaves the commit at this device; what only the other devices know comes with the facts. -/
def State.checkChains (d : State) (j : JunctionFacts) : List RefusalEntry :=
  let jal := allAxes.filter d.overJalut
  (jal.flatMap fun i =>
    let m := d.netMember i
    let here := match d.member? m with | some x => x.st == .member | none => false
    let twin := jal.any fun k => k != i && d.netMember k == m && d.netRemote k == d.netRemote i
    if !here || twin then [refusal 0x0023 i.val i.val m] else [])
  ++ (if d.net.index ≠ 0 then [] else
    (allAxes.filter fun i => d.bound i && d.hasMaster i && d.ax P.axMasterpath i != 0).flatMap fun i =>
      let path := d.ax P.axMasterpath i
      match d.member? (path % 16) with
      | some x => if x.st = .member then [] else [refusal 0x0023 i.val i.val path]
      | none => [refusal 0x0023 i.val i.val path])
  ++ j.chains.map fun x => refusal 0x0023 x.1.val x.1.val x.2.toNat

/-! ### The whole list (R141) -/

/-- Entries of members that refused or did not report. -/
def memberRefusals (unreached : List Nat) (j : JunctionFacts) : List RefusalEntry :=
  (j.refused.map fun x => { refusal 0x0031 0xFFFF x.2.toNat 0 with path := x.1.val + 1 })
  ++ unreached.map fun m => { refusal 0x0032 0xFFFF 0 0 with path := m }

/-- Every failure, ordered by reason and then by axis. -/
def sortRefusals (l : List RefusalEntry) : List RefusalEntry :=
  sortBy (fun x y => decide (x.reason * 65536 + x.axis < y.reason * 65536 + y.axis)) l

/-- Run every check on a draft (R141): `s` is the present state, `d` the state with the draft's values, `k` the commit. At a member
T_J is the one that the draft of the top leader sets (R556). -/
def State.analyse (s d : State) (k : Commit) (j : JunctionFacts) : Placing :=
  let d := if d.net.index = 0 then d else d.updNet fun n => { n with tj := j.upCycle.toNat }
  let pl := d.placing k.pinned (d.frameJitter j)
  { pl with refusals := sortRefusals (d.checkPorts ++ d.checkBinds ++ d.checkBuses ++ d.checkParams ++ d.checkPool pl.tasks
      ++ s.checkEnabled d k.pinned ++ d.checkRetired ++ s.checkEngines k.retired0 ++ pl.refusals ++ d.checkMailboxes
      ++ d.checkJalut j ++ d.checkGcl ++ d.checkCan ++ d.checkChains j ++ memberRefusals k.unreached j) }

end Sys2Proof.Machine
end

