-- ==== Sys2Proof/Machine/Drafts.lean ====
section
/-!
DEFINITION. `CFG_BEGIN`, `CFG_COMMIT`, `CFG_ABORT` and `CFG_EXPLAIN` (R131 to R134, R141, Tables 4.1, 4.2, 4.8, 4.9).
-/
namespace Sys2Proof.Machine

/-- `CFG_BEGIN`. Whether a device below holds a draft of its own only that device knows: a free value (log 6). -/
def opCfgBegin (_ : Instant) (p : Packet) (s : State) : HRes :=
  .ofCheck s do
    need (p.args.length == 4) .badLength 0x0004
    let fl := u8 p.args 0
    need (decide (fl < 2) && rsvZero p.args 1 3) .range 0
    need s.cfg.draft.isNone .draftConflict 0x0102
    let (n, s1) := if s.inCommit.isEmpty then (0, s) else s.draw
    if n % 2 = 1 then return { HRes.fail s1 .draftConflict 0x0101 with s := s1 }
    else
      let d : Draft := { src := p.src, sid := (s.refOf p).sid, baseGen := s.cfg.cfggen, empty := bit fl 0 }
      return .okBody ((s1.updCfg fun c => { c with draft := some d }).tellMembers p) (leBytes 4 s.cfg.cfggen)

/-- Axes in `ENABLED_IDLE`, `MOVING`, `HOMING` or `STOPPING`, with their states (R139, R553). -/
def State.enabledAxes (s : State) : List (Nat × Nat) :=
  (allAxes.filter fun i => match s.axes[i].st with | .enabledIdle | .moving | .homing | .stopping => true | _ => false).map
    fun i => (i.val, (s.axes[i].st).code)

/-- `CFG_COMMIT`: analysis begins. -/
def opCfgCommit (_ : Instant) (p : Packet) (s : State) : HRes :=
  .ofCheck s do
    need (p.args.length == 4) .badLength 0x0004
    let fl := u8 p.args 0
    need (decide (fl < 2) && rsvZero p.args 1 3) .range 0
    let _ ← s.openDraft
    need s.cfg.commit.isNone .busy 0x0101
    let k : Commit :=
      { phase := .analysis, checkOnly := bit fl 0, ref := s.refOf p, pinned := s.enabledAxes, retired0 := s.faults.enginesRetired
        asMember := p.src == .leader }
    return .accepted ((s.updCfg fun c => { c with commit := some k }).tellMembers p)

/-- `CFG_ABORT`: discards the draft and cancels a commit in analysis (R134). -/
def opCfgAbort (_ : Instant) (p : Packet) (s : State) : HRes :=
  .ofCheck s do
    need p.args.isEmpty .badLength 0x0004
    let _ ← s.openDraft
    match s.cfg.commit with
    | none => return .ok ((s.updCfg fun c => { c with draft := none }).tellMembers p)
    | some k => do
      need (k.phase == .analysis) .busy 0x0101
      let s := (s.updCfg fun c => { c with draft := none, commit := none }).complete k.ref .aborted 0x0101 s.now
      return .ok (s.releaseEnables.tellMembers p)

/-! ### `CFG_EXPLAIN` -/

def RefusalEntry.bytes (r : RefusalEntry) : List Byte :=
  leBytes 2 r.reason ++ leBytes 2 r.axis ++ leBytes 1 r.engine ++ leBytes 1 r.kind ++ leBytes 1 r.port ++ zeros 1 ++ leBytes 4 r.path
    ++ leBytes 4 r.a ++ leBytes 4 r.b ++ zeros 4

/-- Placement entry of a task (Table 4.9). -/
def Task.entry (t : Task) : List Byte :=
  leBytes 2 t.axis ++ leBytes 1 t.kind ++ leBytes 1 t.engine ++ leBytes 1 t.rank
    ++ leBytes 1 (b2n t.pinned + 2 * b2n t.noRide + 4 * b2n t.user) ++ leBytes 1 t.trigger ++ zeros 1
    ++ leBytes 4 t.tNs ++ leBytes 4 t.dNs ++ leBytes 4 t.cPrime ++ leBytes 4 t.rNs

/-- Utilisation of tasks in ppm. -/
def ppm (l : List Task) : Nat := ((l.map fun (t : Task) => mkRat (1000000 * t.cPrime) t.tCyc).foldl (· + ·) 0).floor.toNat

/-- Summary entry of an engine (Table 4.9). -/
def engineEntry (e role : Nat) (ts : List Task) : List Byte :=
  let l := ts.filter fun t => t.engine == e
  let u := memUse l
  leBytes 1 e ++ leBytes 1 role ++ leBytes 2 l.length ++ leBytes 4 (ppm l) ++ leBytes 4 (u.getD 0 0) ++ leBytes 4 (u.getD 3 0)
    ++ leBytes 4 (u.getD 1 0 + u.getD 2 0) ++ leBytes 4 ((l.map (·.h)).foldl max 0)

/-- Role of an engine now, as a code of Table 4.9. -/
def State.roleCode (s : State) (e : Fin 24) : Nat := match (s.eng[e]).role with | .service => 0 | .shoulder => 1 | .retired => 2

/-- Entries by engine, then by rank. -/
def byEngine (ts : List Task) : List Task := sortBy (fun x y => decide (x.engine * 64 + x.rank < y.engine * 64 + y.rank)) ts

/-- The entries that `what` and `source` select (Table 4.8). -/
def State.explain (s : State) (what source : Nat) : List (List Byte) :=
  if source = 0 then
    if !s.cfg.analysed then []
    else match what with
      | 0 => s.cfg.refusals.map RefusalEntry.bytes
      | 1 => (byEngine s.cfg.lastTasks).map Task.entry
      | _ => (List.range 24).map fun e => engineEntry e (s.cfg.lastRoles.getD e 0) s.cfg.lastTasks
  else match what with
    | 0 => []
    | 1 => (byEngine s.cfg.tasks).map Task.entry
    | _ => allEngines.map fun e => engineEntry e.val (s.roleCode e) s.cfg.tasks

def opCfgExplain (_ : Instant) (p : Packet) (s : State) : HRes :=
  .ofCheck s do
    let a := p.args
    need (a.length == 8) .badLength 0x0004
    let what := u8 a 0
    let source := u8 a 1
    let first := u16 a 2
    let count := u16 a 4
    let most := if s.versionOf p = 1 then 42 else 169
    need (decide (what ≤ 2) && decide (source ≤ 1) && decide (1 ≤ count) && decide (count ≤ most) && rsvZero a 6 2) .range 0
    let all := s.explain what source
    let es := (all.drop first).take count
    return .okBody s (leBytes 2 all.length ++ leBytes 2 es.length ++ leBytes 1 what ++ leBytes 1 source ++ zeros 2 ++ es.flatten)

end Sys2Proof.Machine
end

