-- ==== Sys2Proof/Machine/Waymark.lean ====
section
/-!
DEFINITION. Waymark (chapter 16): channels and samples, masks and triggers, the FIFO and the buffer, and the trace commands.
-/
namespace Sys2Proof.Machine

/-! ### Channels (R484, R485, R488) -/

/-- Class and format of a quantity (Table 16.2). -/
inductive WmFmt where
  | pos64 | vel64 | fp32 | u32 | word | edge
  deriving DecidableEq, Repr

def wmFmt (src qty : Nat) : Option WmFmt :=
  match src with
  | 1 =>
    if qty ≤ 1 then some .pos64 else if qty ≤ 3 then some .vel64 else if qty ≤ 10 then some .fp32
    else if qty ≤ 13 then some .word else none
  | 2 => if qty ≤ 8 then some .u32 else if qty = 9 then some .word else none
  | 3 => if qty = 0 then some .fp32 else if qty = 1 then some .word else none
  | 4 | 5 | 6 | 7 => if qty = 0 then some .edge else none
  | _ => none

def WmFmt.numeric : WmFmt → Bool
  | .word | .edge => false
  | _ => true

/-- Instances of a source (Table 16.1). -/
def wmInsts (src : Nat) : Nat :=
  match src with
  | 1 => 512 | 2 => 64 | 3 => 8 | 4 => 32 | 5 => 192 | 6 => 32 | 7 => 32 | _ => 0

/-- A numeric value as a number. -/
def WmFmt.real (f : WmFmt) (v : Nat) : Rat :=
  match f with
  | .pos64 => ofPos64 (signed 64 v)
  | .vel64 => ofVel64 (signed 64 v)
  | .fp32 => fpToRat (BitVec.ofNat 32 v)
  | _ => v

/-- The mean voltage that acted in the interval before the last release, in dq (R199). -/
def State.appliedVolts (s : State) (i : Fin 512) : Rat × Rat :=
  let o := s.axes[i].curOld
  let c := s.axes[i].cur
  let t := s.tcS i
  let v1 := if c.repeat_ then o.v2 else o.v1
  let tau := ratClamp 0 t c.tau
  let vb : Rat × Rat := if t = 0 then v1 else ((tau * o.v2.1 + (t - tau) * v1.1) / t, (tau * o.v2.2 + (t - tau) * v1.2) / t)
  toDq vb (o.theta + c.omega * t / 2)

/-- The word of a quantity in the status block, where a user program writes it. -/
def State.blockWord (s : State) (i : Fin 512) (qty n : Nat) : Nat :=
  leNat (s.xr.read (axisBlock i.val + 0xC0 + (Config.statusWord qty).val) n)

/-- The present value of an axis quantity; none where the spec states no value (the currents and voltages in dq of a stepper axis). -/
def State.axisQty (s : State) (i : Fin 512) (q : Nat) : Option Nat :=
  let a := s.axes[i]
  let userCur := s.isLocal i && s.ax P.axCurprog i != 0
  let userPos := s.isLocal i && s.ax P.axPosprog i != 0
  match q with
  | 0 => some (unsigned 64 a.prof.cmdPos)
  | 1 => some (if userPos then s.blockWord i 1 8 else unsigned 64 (s.actPos i))
  | 2 => some (unsigned 64 a.prof.cmdVel)
  | 3 => some (if userPos then s.blockWord i 3 8 else if s.isLocal i then unsigned 64 (toVel64 a.pos.vHat) else unsigned 64 (s.actVel i))
  | 4 => some (if userPos then s.blockWord i 4 4 else fpBits a.pos.err)
  | 5 => some (if userPos then s.blockWord i 5 4 else fpBits a.pos.u1)
  | 10 => some (if userCur then s.blockWord i 10 4 else fpBits a.cur.iComp)
  | 11 => some (if userCur then s.blockWord i 11 4 else s.curstat i)
  | 12 => some (if userPos then s.blockWord i 12 4 else s.posstat i)
  | 13 => some (s.axStateWord i)
  | _ =>
    if userCur then some (s.blockWord i q 4)
    else match s.isServo i, s.portOf i with
    | true, some p =>
      let m := s.measured i p a.cur.theta
      let v := s.appliedVolts i
      some (fpBits (if q = 6 then m.1 else if q = 7 then m.2 else if q = 8 then v.1 else v.2))
    | _, _ => none

/-- The present value of a port quantity. -/
def State.portQty (s : State) (p : Fin 64) (q : Nat) : Nat :=
  if q ≤ 3 then ((s.dutyWords p)[(⟨q % 4, Nat.mod_lt _ (by decide)⟩ : Fin 4)]).toNat
  else if q = 4 then (roundAway ((s.stamp p).2.1 * 1000000000)).toNat % 2 ^ 32
  else if q ≤ 8 then (s.recWord p (0x0A0 + 4 * (q - 5))).toNat
  else (s.ports[p]).trip.code

/-- The filtered level of a feedback pin. -/
def Feedback.pin (f : Feedback) (k : Nat) : Bool := if k = 0 then f.a else if k = 1 then f.b else f.z

/-- What a channel reads now: a value, or a free value where the spec states none. -/
inductive WmVal where
  | value (v : Nat)
  | free
  deriving DecidableEq, Repr

/-- The sample of a channel; none where its source produces none (R485). -/
def State.wmSample (s : State) (c : WmChan) : Option WmVal :=
  match c.src with
  | 1 => (fin? 512 c.inst).bind fun i =>
      if s.bound i then some (match s.axisQty i c.qty with | some v => .value v | none => .free) else none
  | 2 => (fin? 64 c.inst).bind fun p => if s.pt P.ptKind p = 0 then none else some (.value (s.portQty p c.qty))
  | 3 => (fin? 8 c.inst).map fun b => .value (if c.qty = 0 then fpBits (s.buses[b]).v else s.busFlags b)
  | 4 => (fin? 32 c.inst).map fun n => .value (b2n (s.probes[n]).level)
  | 5 => (fin? 64 (c.inst / 3)).bind fun p =>
      if s.pt P.ptKind p = 0 then none else some (.value (b2n ((s.fb[p]).pin (c.inst % 3))))
  | 6 => some (.value (b2n (s.tg.mirror.si.getLsbD c.inst)))
  | 7 => some (.value (b2n (s.gpio.getLsbD c.inst)))
  | _ => none

/-! ### Times and events -/

/-- Time in units of 2.5 ns of a line time in ns, and back. -/
def t25 (ns : Nat) : Nat := ns * 2 / 5
def ns25 (t : Nat) : Nat := t * 5 / 2

/-- `TRACE_EVENT`: kind, info, records stored, time tag. -/
def State.traceEvent (s : State) (kind info t : Nat) : State :=
  s.event evTrace 0xFFFF (leBytes 1 kind ++ leBytes 1 info ++ zeros 2 ++ leBytes 4 s.wm.buf.length ++ leBytes 8 t)

/-- Records that the buffer holds (R489). -/
def State.wmCap (s : State) : Nat := s.dv P.dvWmBufbytes / 16

/-! ### Writing records (R487, R490, R491, R495) -/

/-- Lengthen a gap by `n` records from `first` to `last`. -/
def addGap (g : Option WmGap) (x : WmGap) : Option WmGap :=
  match g with
  | none => some x
  | some g => some { n := g.n + x.n, first := min g.first x.first, last := max g.last x.last }

/-- Records lost count in `DV.WM_LOST`. -/
def Wm.lose (w : Wm) (g : WmGap) : Wm := { w with gap := addGap w.gap g, lost := min (2 ^ 32 - 1) (w.lost + g.n) }

/-- Every channel owes a `RESYNC` sample. -/
def Wm.resyncAll (w : Wm) : Wm := { w with last := w.last.map fun x => (x.1, { x.2 with resync := true }) }

/-- Append a record: in `RING` the oldest gives way. -/
def State.putRec (s : State) (r : WmRec) : State :=
  let c := s.wmCap
  s.updWm fun w =>
    let b := w.buf ++ [r]
    { w with
      buf := if w.run.mode = 0 then b.drop (b.length - c) else b
      wrote := w.wrote + 1
      postCount := if r.kind = 4 then some 0 else w.postCount.map (· + 1) }

/-- Free entries for records. -/
def State.wmFree (s : State) : Nat := if s.wm.run.mode = 0 then s.wmCap else s.wmCap - s.wm.buf.length

/-- `TRACE_EVENT` kind 3 when the records stored reach `notify`. -/
def State.wmNotify (s : State) : State :=
  let w := s.wm
  if w.run.mode = 1 ∧ w.run.notify ≠ 0 ∧ w.run.notify ≤ w.buf.length then
    (if w.notified then s else (s.updWm fun w => { w with notified := true }).traceEvent 3 0 s.now)
  else s.updWm fun w => { w with notified := false }

/-- A `dt` for which the spec states no value. -/
def State.freeDt (s : State) : Int × State := (signed 32 s.draw.1, s.draw.2)

/-- A `BASE` record for the time `t`, rounded down to 5 ns. -/
def State.putBase (s : State) (t : Nat) (stepped : Bool) : State :=
  let b := ns25 t / 5 * 5
  (s.putRec { chan := 0xFFFF, kind := 3, sub := 128 * b2n stepped, dt := 0, value := b }).updWm fun w =>
    { w with base := some b, stepped := false }

/-- `STOP` with its cause; in `RING` with a trigger, records older than `n_pre` before it are discarded (R495). -/
def State.wmStop (s : State) (cause : Nat) : State :=
  let (dt, s) := s.freeDt
  let n := s.wm.postCount
  let s := if s.wmFree = 0 then s.updWm fun w => w.lose ⟨1, t25 s.now, t25 s.now⟩
    else s.putRec { chan := 0xFFFF, kind := 6, sub := cause, dt := dt, value := 0 }
  let s := s.updWm fun w =>
    let keep := match n, w.run.mode with
      | some k, 0 => w.run.nPre + 1 + k + 1
      | _, _ => w.buf.length
    { w with st := .stopped, stopAt := none, fifo := [], gapIn := none, gap := none, cursor := 0, buf := w.buf.drop (w.buf.length - keep) }
  s.traceEvent 2 cause s.now

/-- The post-trigger count is reached. -/
def State.postDone (s : State) : State :=
  if s.wm.st = .post ∧ (s.wm.postCount.any fun k => decide (s.wm.run.nPost ≤ k)) then s.wmStop 1 else s

/-- Value of a `GAP` record: records lost and the span in µs, rounded up, both saturating. -/
def WmGap.value (g : WmGap) : Nat :=
  min g.n (2 ^ 32 - 1) + 2 ^ 32 * min (ceilDiv (ns25 (g.last - g.first)) 1000) (2 ^ 32 - 1)

/-- The gap not yet written goes into the buffer once two entries are free, followed by a `BASE` for the time `t` (R491). -/
def State.putGap (s : State) (t : Nat) : State :=
  match s.wm.gap with
  | none => s
  | some g =>
    if s.wmFree < 2 then s
    else
      let (dt, s) := s.freeDt
      let s := (s.putRec { chan := 0xFFFF, kind := 2, sub := 0, dt := dt, value := g.value }).putBase t s.wm.stepped
      let s := s.updWm fun w => { w.resyncAll with gap := none }
      let s := if s.mayRaise 0xE006 5 then (s.noteRaise 0xE006 5).traceEvent 5 0 s.now else s
      s.postDone

/-- Distance of a time from the base, in units of 2.5 ns. -/
def Wm.dt (w : Wm) (t : Nat) : Int := (t : Int) - (t25 (w.base.getD 0) : Nat)

/-- Write a record of the FIFO; before it a `BASE` where R487 asks for one. -/
def State.putItem (s : State) (chan kind sub t value : Nat) : State :=
  let s := s.putGap t
  if s.wm.st = .stopped then s
  else
    let d := s.wm.dt t
    let far := s.wm.stepped || decide (d < -(2 ^ 31)) || decide (2 ^ 31 ≤ d)
    if s.wm.gap.isSome ∨ s.wmFree < (if far then 2 else 1) then s.updWm fun w => (w.lose ⟨1, t, t⟩).resyncAll
    else
      let s := if far then (s.putBase t s.wm.stepped).postDone else s
      if s.wm.st = .stopped then s
      else (s.putRec { chan := chan, kind := kind, sub := sub, dt := s.wm.dt t, value := value }).postDone

/-- The oldest item of the FIFO is stored. -/
def State.drainOne (s : State) : State :=
  match s.wm.fifo with
  | [] => s.putGap (t25 s.now)
  | x :: rest =>
    let s := s.updWm fun w => { w with fifo := rest }
    (match x with
     | .record chan kind sub t value => s.putItem chan kind sub t value
     | .gap g => (s.updWm fun w => { w with gap := addGap w.gap g }).putGap g.last).wmNotify

/-- Store what the FIFO holds. -/
def State.drain (s : State) : Nat → State
  | 0 => s
  | n + 1 => if s.wm.st = .running ∨ s.wm.st = .post then s.drainOne.drain n else s

def State.recording (s : State) : Bool := s.wm.st == .running || s.wm.st == .post

/-- A record is written from the FIFO into the buffer. -/
def execWaymarkRecordWrite (s : State) : Out := s.main (if s.recording then s.drainOne else s)

/-! ### Samples, masks and triggers (R486, R494, R496, R497) -/

/-- What Waymark remembers of a channel. -/
def Wm.lastOf (w : Wm) (ch : Nat) : WmLast := (assocGet? w.last ch).getD {}

def State.wmPush (s : State) (chan kind sub t value : Nat) : State :=
  s.updWm fun w => { w with fifo := w.fifo ++ [WmItem.record chan kind sub t value] }

/-- A trigger acts: the `TRIGGER` record, `POST`, `TRACE_EVENT` kind 1. Only the first of a run does. -/
def State.wmTrigger (s : State) (chan cause t value : Nat) : State :=
  if s.wm.trigged ∨ s.wm.st ≠ .running then s
  else ((s.wmPush chan 4 cause t value).updWm fun w => { w with trigged := true, st := .post }).traceEvent 1 0 (ns25 t)

/-- The condition of R494 for a sample after the sample before it. -/
def trigFires (cond : Nat) (f : WmFmt) (level : Rat) (prev : Option Nat) (v : Nat) : Bool :=
  let rise := match prev with | some p => decide (f.real p < level) && decide (level ≤ f.real v) | none => false
  let fall := match prev with | some p => decide (level ≤ f.real p) && decide (f.real v < level) | none => false
  match cond with
  | 0 => f.numeric && rise
  | 1 => f.numeric && fall
  | 2 => f.numeric && (rise || fall)
  | 3 => f == .edge && v == 1
  | 4 => f == .edge && v == 0
  | 5 => f == .edge
  | _ => false

/-- The point of a mask with an index. -/
def WmMask.point (m : WmMask) (k : Nat) : Option (Rat × Rat × Rat) :=
  (assocGet? m.points k).map fun p => ((p.1 : Rat), fpToRat (BitVec.ofNat 32 p.2.1), fpToRat (BitVec.ofNat 32 p.2.2))

/-- `lo` and `hi` at x, linear between the points around it; none outside them. -/
def WmMask.envelope (m : WmMask) (x : Rat) : Option (Rat × Rat) :=
  (List.range (m.npoints - 1)).findSome? fun k =>
    match m.point k, m.point (k + 1) with
    | some a, some b =>
      if a.1 ≤ x ∧ x ≤ b.1 then
        let f := if b.1 = a.1 then 0 else (x - a.1) / (b.1 - a.1)
        some (a.2.1 + f * (b.2.1 - a.2.1), a.2.2 + f * (b.2.2 - a.2.2))
      else none
    | _, _ => none

/-- The abscissa of a mask for a sample at `t` (R496). -/
def State.maskX (s : State) (m : WmMask) (t : Nat) : Rat :=
  if m.xkind = 1 then ((ns25 t : Nat) : Rat) - (s.wm.start : Rat)
  else
    let j : Fin 512 := ⟨m.xaxis % 512, Nat.mod_lt _ (by decide)⟩
    let tr : Rat := mkRat (5 * t) 2
    let p := (if m.xsrc = 1 then s.actualAt j tr else s.commandedAt j tr).1.floor
    ((if 0 < m.period then p % m.period else p : Int) : Rat)

/-- Judge a sample against mask k: `some above` where it violates, `none` inside; no judgement outside the points. -/
def State.maskJudge (s : State) (k : Fin 8) (f : WmFmt) (t v : Nat) : Option (Option Bool) :=
  let m := s.wm.run.masks[k]
  (m.envelope (s.maskX m t)).map fun e =>
    let y := fp32 (f.real v)
    if e.2 < y then some true else if y < e.1 then some false else none

/-- Note the judgement; true where the mask declares a violation (R497). -/
def State.maskNote (s : State) (k : Fin 8) (bad : Bool) : Bool × State :=
  let (n, d) := s.wm.viol[k]
  let c := (s.wm.run.masks[k]).count
  let hit := bad && !d && decide (c ≤ n + 1)
  (hit, s.updWm fun w => { w with viol := upd w.viol k fun _ => if bad then (min 255 (n + 1), d || hit) else (0, false) })

/-- The axis that a mask fault acts on: that of the channel, or the one bound to its port. -/
def State.maskAxis (s : State) (c : WmChan) : Option (Fin 512) :=
  if c.src = 1 then fin? 512 c.inst
  else if c.src = 2 then (fin? 64 c.inst).bind s.axisOf else none

/-- Masks that hold a channel. -/
def Wm.masksOf (w : Wm) (ch : Nat) : List (Fin 8) :=
  (List.finRange 8).filter fun k => (w.run.masks[k]).xkind != 0 && (w.run.masks[k]).chan == ch

/-- Judge a sample against every mask of its channel: the masks that declare a violation, each with its side. -/
def State.judgeMasks (s : State) (ch : Nat) (f : WmFmt) (t v : Nat) : List (Fin 8 × Bool) × State :=
  (s.wm.masksOf ch).foldl (fun (acc : List (Fin 8 × Bool) × State) k =>
    match acc.2.maskJudge k f t v with
    | none => acc
    | some j =>
      let r := acc.2.maskNote k j.isSome
      (if r.1 then acc.1 ++ [(k, j.getD false)] else acc.1, r.2)) ([], s)

/-- What follows a declared violation (R497). -/
def State.violated (s : State) (c : WmChan) (ch t v : Nat) (x : Fin 8 × Bool) : State :=
  let m := s.wm.run.masks[x.1]
  let s := (s.wmPush ch 5 (x.1.val + 8 * b2n x.2) t v).traceEvent 4 x.1.val (ns25 t)
  let s := if bit m.action 0 ∧ s.wm.run.trig = 2 then s.wmTrigger ch 2 t v else s
  match bit m.action 1, s.maskAxis c with
  | true, some i => s.raiseAxis i 0x0C04 m.cls x.1.val
  | _, _ => s

/-- A sample is recorded by its own rule (R486). -/
def wmChanges (f : WmFmt) (dead : Nat) (l : WmLast) (v : Nat) : Bool :=
  match f with
  | .edge => true
  | .word => l.recd != v
  | _ =>
    let d := ratAbs (f.real v - f.real l.recd)
    if dead % 2 ^ 31 = 0 then d != 0 else decide (fpToRat (BitVec.ofNat 32 dead) < fp32 d)

/-- Record a sample, with the flags of R486. -/
def State.wmRecord (s : State) (ch : Nat) (f : WmFmt) (t tap v : Nat) (resync refresh : Bool) : State :=
  if f = .edge then s.wmPush ch 1 (tap % 32 + 32 * b2n resync) t v
  else s.wmPush ch 0 (32 * b2n resync + 64 * b2n refresh) t v

/-- A sample passes the intake: filters, masks, trigger, in this order. -/
def State.wmTake (s : State) (ch : Nat) (c : WmChan) (f : WmFmt) (t tap v : Nat) : State :=
  let l := s.wm.lastOf ch
  let due := s.wm.run.refresh != 0 && f != .edge && l.prev.isSome && decide (l.at_ + s.wm.run.refresh * 400000 ≤ t)
  let (hits, s) := if f.numeric then s.judgeMasks ch f t v else ([], s)
  let put := l.resync || due || wmChanges f c.dead l v || !hits.isEmpty
  let s := if put then s.wmRecord ch f t tap v l.resync due else s
  let l' : WmLast := { prev := some v, recd := if put then v else l.recd, at_ := if put then t else l.at_, resync := l.resync && !put }
  let s := s.updWm fun w => { w with last := assocSet w.last ch l' }
  let s := hits.foldl (fun s x => s.violated c ch t v x) s
  let r := s.wm.run
  if r.trig = 1 ∧ r.trigChan = ch ∧ trigFires r.cond f (fpToRat (BitVec.ofNat 32 r.level)) l.prev v = true then s.wmTrigger ch 1 t v else s

/-- A sample with time tag `t` reaches Waymark (R489, R493). -/
def State.wmIntake (s : State) (ch t tap : Nat) : State :=
  match assocGet? s.wm.run.chans ch with
  | none => s
  | some c =>
    match wmFmt c.src c.qty, s.wmSample c with
    | some f, some x =>
      let late := s.wm.stopAt.any fun e => decide (2 * e ≤ 5 * t)
      if !s.recording || decide (5 * t < 2 * s.wm.start) || late then s
      else if 1024 ≤ s.wm.fifo.length then
        s.updWm fun w => { w with gapIn := addGap w.gapIn ⟨1, t, t⟩, lost := min (2 ^ 32 - 1) (w.lost + 1) }
      else
        let s := match s.wm.gapIn with
          | none => s
          | some g => s.updWm fun w => { w.resyncAll with fifo := w.fifo ++ [WmItem.gap g], gapIn := none }
        match x with
        | .value v => s.wmTake ch c f t tap v
        | .free => (s.draw.2).wmTake ch c f t tap (s.draw.1 % 2 ^ 32)
    | _, _ => s

/-- A channel's source produces a value. Operands: the channel; the time tag in units of 2.5 ns; the tap of a probe edge. -/
def execWaymarkSampleIntake (ch : Fin 1024) (t : BitVec 64) (tap : Fin 32) (s : State) : Out :=
  s.main (s.wmIntake ch.val t.toNat tap.val)

/-- A GPIO input changes its filtered level: a sample of every edge channel of that input. -/
def execGpioEdge (n : Fin 32) (level : Bool) (t : BitVec 64) (s : State) : Out :=
  s.main
    (let m : BitVec 32 := 1#32 <<< n.val
     let s : State := { s with gpio := if level then s.gpio ||| m else s.gpio &&& ~~~m }
     (s.wm.run.chans.filter fun c => c.2.src == 7 && c.2.inst == n.val).foldl (fun s c => s.wmIntake c.1 t.toNat 0) s)

/-! ### `TRACE_SETUP` (R498, Tables 16.6 to 16.8) -/

/-- FP32 that is finite (R4). -/
def fpFin (v : Nat) : Bool := v / 2 ^ 23 % 256 != 255

/-- FP32 that is finite and at least zero. -/
def fpNonNeg (v : Nat) : Bool := fpFin v && (decide (v < 2 ^ 31) || v == 2 ^ 31)

/-- The number of whole entries of a section; none for an invalid section, instance, first entry or length. -/
def setupCount (sec inst first len : Nat) : Option Nat :=
  match sec with
  | 0 => if inst = 0 ∧ first = 0 ∧ len = 32 then some 1 else none
  | 1 => if inst = 0 ∧ len % 8 = 0 ∧ first + len / 8 ≤ 1024 then some (len / 8) else none
  | 2 => if inst < 8 ∧ first = 0 ∧ len = 24 then some 1 else none
  | 3 => if inst < 8 ∧ len % 16 = 0 ∧ first + len / 16 ≤ 512 then some (len / 16) else none
  | _ => none

/-- Reserved fields and values of an entry are unused (R9). -/
def entryReserved (sec : Nat) (e : List Byte) : Bool :=
  match sec with
  | 0 => decide (u8 e 0 ≤ 1) && decide (u8 e 1 ≤ 2) && decide (u8 e 4 ≤ 5) && rsvZero e 5 3 && rsvZero e 22 2 && rsvZero e 28 4
  | 1 => decide (u8 e 0 ≤ 7)
  | 2 => decide (u8 e 2 ≤ 2) && decide (u8 e 3 < 4) && decide (u8 e 6 ≤ 1) && rsvZero e 9 1 && rsvZero e 12 4
  | _ => true

/-- Fields of an entry are in their ranges, and its FP32 fields hold finite numbers (R4). -/
def entryOk (sec : Nat) (e : List Byte) : Bool :=
  match sec with
  | 0 => decide (u16 e 2 < 1024) && decide (u16 e 20 ≤ 10000) && fpFin (u32 e 8)
  | 1 =>
    (u8 e 0 == 0 && fpNonNeg (u32 e 4)) ||
      (match wmFmt (u8 e 0) (u8 e 1) with
       | none => false
       | some f => decide (u16 e 2 < wmInsts (u8 e 0)) && fpNonNeg (u32 e 4) && (f.numeric || u32 e 4 % 2 ^ 31 == 0))
  | 2 =>
    u8 e 2 == 0 ||
      (decide (u16 e 0 < 1024) && decide (u16 e 4 < 512) && decide (1 ≤ u8 e 7)
        && (if bit (u8 e 3) 1 then decide (1 ≤ u8 e 8) && decide (u8 e 8 ≤ 6) else u8 e 8 == 0)
        && decide (2 ≤ u16 e 10) && decide (u16 e 10 ≤ 512) && decide (0 ≤ i64 e 16))
  | _ =>
    fpFin (u32 e 8) && fpFin (u32 e 12) && decide (fpToRat (BitVec.ofNat 32 (u32 e 8)) ≤ fpToRat (BitVec.ofNat 32 (u32 e 12)))

def entrySize (sec : Nat) : Nat := match sec with | 0 => 32 | 1 => 8 | 2 => 24 | _ => 16

/-- Write an entry into the setup. -/
def WmSetup.write (w : WmSetup) (sec : Nat) (inst : Fin 8) (k : Nat) (e : List Byte) : WmSetup :=
  match sec with
  | 0 =>
    { w with
      mode := u8 e 0, trig := u8 e 1, trigChan := u16 e 2, cond := u8 e 4, level := u32 e 8, nPre := u32 e 12, nPost := u32 e 16
      refresh := u16 e 20, notify := u32 e 24 }
  | 1 =>
    { w with chans := if u8 e 0 = 0 then assocErase w.chans k else assocSet w.chans k ⟨u8 e 0, u8 e 1, u16 e 2, u32 e 4⟩ }
  | 2 =>
    { w with masks := upd w.masks inst fun m =>
        { m with chan := u16 e 0, xkind := u8 e 2, action := u8 e 3, xaxis := u16 e 4, xsrc := u8 e 6, count := u8 e 7, cls := u8 e 8
                 npoints := u16 e 10, period := i64 e 16 } }
  | _ => { w with masks := upd w.masks inst fun m => { m with points := assocSet m.points k (i64 e 0, u32 e 8, u32 e 12) } }

def opTraceSetup (_ : Instant) (p : Packet) (s : State) : HRes :=
  .ofCheck s do
    let a := p.args
    need (decide (4 ≤ a.length)) .badLength 0x0004
    let sec := u8 a 0
    let inst := u8 a 1
    let first := u16 a 2
    match setupCount sec inst first (a.length - 4) with
    | none => .error (.range, 0x0101)
    | some n =>
      let es := (List.range n).map fun k => (first + k, (a.drop (4 + entrySize sec * k)).take (entrySize sec))
      need (es.all fun e => entryReserved sec e.2) .range 0
      need (es.all fun e => entryOk sec e.2) .range 0x0102
      need (!s.recording) .state 0x0101
      let i : Fin 8 := ⟨inst % 8, Nat.mod_lt _ (by decide)⟩
      return .ok (s.updWm fun w => { w with setup := es.foldl (fun x e => x.write sec i e.1 e.2) w.setup })

/-! ### `TRACE_START`, `TRACE_STOP` (R492, R493) -/

def WmSetup.fmtOf (w : WmSetup) (ch : Nat) : Option WmFmt := (assocGet? w.chans ch).bind fun c => wmFmt c.src c.qty

/-- The points of a mask are loaded, with x strictly rising. -/
def WmMask.pointsOk (m : WmMask) : Bool :=
  let xs := (List.range m.npoints).map fun k => (assocGet? m.points k).map (·.1)
  xs.all Option.isSome && (List.zipWith (fun a b => decide (a.getD 0 < b.getD 0)) xs (xs.drop 1)).all id

/-- The setup can start (Table 16.8). -/
def State.setupOk (s : State) (w : WmSetup) : Bool :=
  (w.trig != 1 || (w.fmtOf w.trigChan).any fun f => if w.cond ≤ 2 then f.numeric else f == .edge)
    && w.masks.toList.all fun m =>
      m.xkind == 0 ||
        ((w.fmtOf m.chan).any (·.numeric) && m.pointsOk
          && (!bit m.action 1 || ((assocGet? w.chans m.chan).bind s.maskAxis).isSome))

def opTraceStart (t : Instant) (p : Packet) (s : State) : HRes :=
  .ofCheck s do
    let a := p.args
    need (a.length == 4) .badLength 0x0004
    need (rsvZero a 0 4) .range 0
    need (!s.recording) .state 0x0101
    let w := s.wm.setup
    need (s.setupOk w) .range 0x0103
    need (!(w.mode == 0 && decide (s.wmCap < w.nPre + w.nPost + 2048))) .range 0x0104
    let e := s.effect t
    let s := s.updWm fun x => { setup := x.setup, run := w, st := .running, start := e }
    return .ok (s.putBase (t25 e) false)

/-- `TRACE_STOP`: mode 0 waits 1 ms from the effect instant, mode 1 triggers. -/
def opTraceStop (t : Instant) (p : Packet) (s : State) : HRes :=
  .ofCheck s do
    let a := p.args
    need (a.length == 4) .badLength 0x0004
    need (decide (u8 a 0 ≤ 1) && rsvZero a 1 3) .range 0
    let e := s.effect t
    if !s.recording then return .ok s
    else if u8 a 0 = 1 then return .ok (s.wmTrigger 0xFFFF 3 (t25 e) 0)
    else return .ok (s.updWm fun w => { w with stopAt := some (w.stopAt.getD e) })

/-- The wait of 1 ms ends: what has been taken in is stored, then `STOP` (R493). -/
def execTraceStopWaitEnd (s : State) : Out :=
  s.main
    (if s.recording && (s.wm.stopAt.any fun e => decide (e + 1000000 ≤ s.now)) then
       let s := match s.wm.gapIn with
         | none => s
         | some g => s.updWm fun w => { w with fifo := w.fifo ++ [WmItem.gap g], gapIn := none }
       let s := s.drain s.wm.fifo.length
       if s.recording then s.wmStop 2 else s
     else s)

/-! ### `TRACE_READ` (R499) -/

def opTraceRead (_ : Instant) (p : Packet) (s : State) : HRes :=
  .ofCheck s do
    let a := p.args
    need (a.length == 4) .badLength 0x0004
    let n := u16 a 0
    need (decide (u8 a 2 < 2) && rsvZero a 3 1 && decide (1 ≤ n) && decide (n ≤ (if s.versionOf p = 1 then 62 else 254))) .range 0
    let w := s.wm
    need (w.run.mode == 1 || w.st == .stopped) .state 0x0102
    let cur := if w.run.mode = 1 ∨ bit (u8 a 2) 0 then 0 else w.cursor
    let out := (w.buf.drop cur).take n
    let left := w.buf.length - cur - out.length
    let body := leBytes 2 out.length ++ leBytes 2 (b2n (left != 0) + 2 * b2n (w.st == .stopped)) ++ leBytes 4 left ++ leBytes 4 w.lost
      ++ out.flatMap WmRec.bytes
    if w.run.mode = 1 then
      return .okBody (if s.hasControl p then (s.updWm fun w => { w with buf := w.buf.drop out.length }).wmNotify else s) body
    else return .okBody (s.updWm fun w => { w with cursor := cur + out.length }) body

/-- A switch-over that changes `DV.WM_BUFBYTES` (Table 16.5). -/
def Wm.toIdle (w : Wm) : Wm := { setup := w.setup }

end Sys2Proof.Machine
end

