-- ==== Sys2Proof/Machine/Packets.lean ====
section
/-!
DEFINITION. Steps 9 to 12 of Table 3.3 and replies (R81 to R86), groups (R89 to R92) and timed commands (R93 to R97).
-/
namespace Sys2Proof.Machine

/-- An opcode's step 12: the instant of a timed or grouped command (R92, R93), the packet, the state. -/
abbrev Op := Instant → Packet → State → HRes

/-- The defined opcodes. -/
def opOf (n : Nat) : Option Op :=
  match n with
  | 0x0001 => some opHello
  | 0x0002 => some opBye
  | 0x0003 => some opPing
  | 0x0004 => some opDevinfo
  | 0x0101 => some opCfgBegin
  | 0x0102 => some opCfgSet
  | 0x0103 => some opCfgGet
  | 0x0104 => some opCfgCommit
  | 0x0105 => some opCfgAbort
  | 0x0106 => some opCfgExplain
  | 0x0201 => some opAxisEnable
  | 0x0202 => some opAxisDisable
  | 0x0203 => some opMoveAbs
  | 0x0204 => some opMoveRel
  | 0x0205 => some opMoveVel
  | 0x0206 => some opStop
  | 0x0207 => some opHome
  | 0x0208 => some opPathAppend
  | 0x0209 => some opGearEngage
  | 0x020A => some opGearRelease
  | 0x020B => some opCamEngage
  | 0x0301 => some opParamGet
  | 0x0302 => some opParamSet
  | 0x0303 => some opTableLoad
  | 0x0401 => some opPortForce
  | 0x0402 => some opPortTripClear
  | 0x0403 => some opPortStatus
  | 0x0501 => some opLatchArm
  | 0x0502 => some opLatchRead
  | 0x0503 => some opCompareSet
  | 0x0504 => some opCompareClear
  | 0x0601 => some opTraceSetup
  | 0x0602 => some opTraceStart
  | 0x0603 => some opTraceStop
  | 0x0604 => some opTraceRead
  | 0x0701 => some opTimeGet
  | 0x0702 => some opTimeStep
  | 0x0703 => some opNetStatus
  | 0x0704 => some opCanTxQueue
  | 0x0705 => some opCanRxAck
  | 0x0706 => some opJunctionForm
  | 0x0801 => some opSafeStatus
  | 0x0802 => some opSafeCfgLoad
  | 0x0803 => some opSafeCfgConfirm
  | 0x0804 => some opBrakeTest
  | 0x0901 => some opFaultRead
  | 0x0902 => some opFaultAck
  | 0x0903 => some opRetireStatus
  | 0x0A01 => some opFwBegin
  | 0x0A02 => some opFwData
  | 0x0A03 => some opFwEnd
  | 0x0A04 => some opFwActivate
  | 0x0B01 => some opLepLoad
  | 0x0B02 => some opLepInfo
  | 0x0C01 => some opDbgUnlock
  | 0x0C02 => some opTmuxSelect
  | _ => none

/-- Opcodes permitted to observers (Table 3.8). -/
def observerOps : List Nat :=
  [0x0001, 0x0002, 0x0003, 0x0004, 0x0103, 0x0106, 0x0301, 0x0403, 0x0502, 0x0604, 0x0701, 0x0703, 0x0801, 0x0901, 0x0903,
   0x0B02]

/-- Opcodes answered in recovery mode (R64). -/
def recoveryOps : List Nat := [0x0001, 0x0004, 0x0A01, 0x0A02, 0x0A03, 0x0A04]

/-- Groupable and timeable opcodes (Table 3.5). -/
def groupable (n : Nat) : Bool :=
  (decide (0x0201 ≤ n) && decide (n ≤ 0x020B)) || [0x0302, 0x0401, 0x0501, 0x0503, 0x0504, 0x0602, 0x0603].contains n

/-- Step 11 of Table 3.3 (R551, Table 3.29). -/
def axisOk (n ax : Nat) : Bool :=
  if (decide (0x0201 ≤ n) && decide (n ≤ 0x020B)) || [0x0501, 0x0502, 0x0503, 0x0504, 0x0804].contains n then decide (ax < 512)
  else if [0x0301, 0x0302, 0x0102, 0x0103, 0x0303].contains n then decide (ax < 512) || ax == 0xFFFF
  else ax == 0xFFFF

def Packet.ackreq (p : Packet) : Bool := p.flags.getLsbD 0
def Packet.inGroup (p : Packet) : Bool := p.flags.getLsbD 1
def Packet.isTimed (p : Packet) : Bool := p.flags.getLsbD 2
def Packet.groupEnd (p : Packet) : Bool := p.flags.getLsbD 3

/-- Send a reply (R82): with the negotiated version of the session that is open, or the request's. -/
def State.sendReply (s : State) (p : Packet) (ver : Nat) (st : Status) (det : Nat) (body : List Byte) : State :=
  let v := if 1 ≤ ver ∧ ver ≤ 3 then ver else 1
  let pay := statusWord st det ++ body
  let pay := if payloadLimit v < pay.length then statusWord .badLength 0x0005 else pay
  s.emit p.src { event := false, version := v, opcode := p.opcode.toNat % 0x8000 + 0x8000, tag := p.tag, axis := p.axis,
                 path := p.path, crc := p.crc, payload := pay }

/-- Version of a reply: that of the session, otherwise the request's (R82). -/
def State.replyVersion (s : State) (p : Packet) : Nat :=
  match s.session p.src with
  | some x => x.version
  | none => p.version.toNat

/-- A refusal. -/
def State.refuse (s : State) (p : Packet) (st : Status) (det : Nat) : State :=
  s.sendReply p (s.replyVersion p) st det []

/-- The reply to an outcome of step 12 is sent (R83); `dueNow` for a timed command at its tag. -/
def HRes.replies (r : HRes) (p : Packet) (dueNow : Bool) : Bool :=
  match r.st with
  | .accepted => Packet.ackreq p && !dueNow && !r.later
  | .ok => Packet.ackreq p || !r.body.isEmpty || p.opcode == 0x0002#16
  | _ => true

/-- Answer a packet on state `u` with the outcome of its step 12, as R83 has it; `s0` is the state in which it arrived. -/
def State.answer (u s0 : State) (p : Packet) (r : HRes) (dueNow : Bool) : State :=
  let ver := match r.s.session p.src with | some x => x.version | none => s0.replyVersion p
  if r.replies p dueNow then u.sendReply p ver r.st r.det r.body else u

/-- Reply with the outcome of step 12. -/
def State.replyWith (s0 : State) (p : Packet) (r : HRes) (dueNow : Bool) : State := (r.s.answer s0 p r dueNow).settle

/-- Tags of a session in use: commands awaiting completion, those forwarded to members among them, and queued timed packets (R85). -/
def State.tagUsed (s : State) (p : Packet) : Bool :=
  match s.session p.src with
  | none => false
  | some x =>
    x.awaiting.contains p.tag ||
      s.net.fwd.any (fun f => f.accepted && f.ref.sid == x.sid && f.ref.tag == p.tag) ||
      s.host.timed.any (fun t => t.sid == x.sid && t.packets.any (fun q => q.tag == p.tag))

/-- An accepted command awaits its completion: its tag is in use (R85). -/
def State.await (s : State) (p : Packet) : State :=
  match s.session p.src with
  | none => s
  | some x => s.setSession p.src (some { x with awaiting := x.awaiting ++ [p.tag] })

def State.awaitCount (s : State) (p : Packet) : Nat := ((s.session p.src).map (fun x => x.awaiting.length)).getD 0

/-- Steps 10 and 11, and recovery mode (R64). -/
def State.check10 (s : State) (p : Packet) : Check Unit := do
  let n := p.opcode.toNat
  need (!(s.boot.recovery && !recoveryOps.contains n && !(s.boot.bywayDead && n == 0x0901))) .state 0x00FF
  need ((s.session p.src).isNone || s.hasControl p || observerOps.contains n) .denied 0x0001
  need (!(p.src == .leader && !observerOps.contains n && s.controlElsewhere .leader)) .denied 0x0002
  need (axisOk n p.axis.toNat) .badTarget 0

/-- The instant is the tag of a timed command, which acts under R96. -/
def isDue (t : Instant) : Bool := t.any (·.2)

/-- Step 12 of one packet on a state, with the limits of R85, which a timed command at its tag and a synchronous one do not meet. -/
def State.step12 (s : State) (p : Packet) (t : Instant) : HRes :=
  match opOf p.opcode.toNat with
  | none => .fail s .badOpcode 0
  | some op =>
    if s.tagUsed p && !isDue t && p.opcode != 0x0001#16 then .fail s .busy 0x0001
    else
      let r := op t p s
      if r.st = .accepted ∧ r.later = false then
        (if 256 ≤ s.awaitCount p ∧ isDue t = false then .fail s .busy 0x0002 else { r with s := r.s.await p })
      else r

/-- Run one packet at instant T and reply. -/
def State.run1 (s : State) (p : Packet) (t : Instant) : State := s.replyWith p (s.step12 p t) (isDue t)

/-- Abort an open group: every held packet is answered `ABORTED` (R91); a group that is being forwarded ends here as well. -/
def State.abortGroup (s : State) (src : Src) (det : Nat) : State :=
  let s := s.updHost fun h => { h with fwdGroups := h.fwdGroups.filter (fun g => g.1 != src) }
  match s.host.groups.find? (fun g => g.1 == src) with
  | none => s
  | some g =>
    let s := s.updHost fun h => { h with groups := h.groups.filter (fun g => g.1 != src) }
    g.2.packets.foldl (fun s p => s.refuse p .aborted det) s

/-- Answer a refused group: a packet with a failure gets its own status, every other one `ABORTED` 0x0004 (R90). -/
def State.refuseGroup (s : State) (rs : List (Packet × Option (Status × Nat))) : State :=
  rs.foldl (fun s r =>
    match r.2 with
    | some (st, det) => s.refuse r.1 st det
    | none => s.refuse r.1 .aborted 0x0004) s

def failOf (r : HRes) : Option (Status × Nat) := if r.st.good then none else some (r.st, r.det)

def errOf (c : Check Unit) : Option (Status × Nat) :=
  match c with
  | .ok _ => none
  | .error e => some e

/-- Step 12 of the packets of a group in packet order, each on what those before it leave (DEDUCED, log 90): the state after the
last one, and every outcome. -/
def State.groupSteps (s : State) (t : Instant) : List Packet → State × List (Packet × HRes)
  | [] => (s, [])
  | p :: ps =>
    let r := s.step12 p t
    let u := State.groupSteps (if r.st.good then r.s else s) t ps
    (u.1, (p, r) :: u.2)

/-- Step 12 of a whole group at instant T: all act in packet order, or none (R90, R92). -/
def State.runGroup (s : State) (ps : List Packet) (t : Instant) : State :=
  let u := s.groupSteps t ps
  if u.2.any (fun r => (failOf r.2).isSome) then s.refuseGroup (u.2.map fun r => (r.1, failOf r.2))
  else (u.2.foldl (fun v r => v.answer s r.1 r.2 (isDue t)) u.1).settle

/-- The time tag of a timed packet (R93). Of a payload shorter than the tag the missing bytes count as 0, so that the packet is refused
for its tag, `RANGE` 0x0007 or 0x0008, and not for its length: the spec names no status (DESIGN CHOICE, log 91). -/
def tagOf (p : Packet) : Nat := u64 p.payload 0

/-- Checks of R94 and R95 on a tag for `n` packets. -/
def State.checkTag (s : State) (t n : Nat) : Check Unit := do
  need (decide (s.now ≤ t)) .range 0x0007
  need (decide (t ≤ s.now + 3600000000000)) .range 0x0008
  need (decide (timedUsed s.host + n ≤ 4096)) .queueFull 0x0002

/-- `Queue.gen` of the queue that packets came from. -/
def HostIf.genOf (h : HostIf) (ps : List Packet) : Nat :=
  match ps with
  | p :: _ => match p.src with | .pcie q => (h.queues[q]).gen | _ => 0
  | [] => 0

/-- Queue timed packets and answer `ACCEPTED` (R94). -/
def State.queueTimed (s : State) (ps : List Packet) (t : Nat) : State :=
  let sid := ((ps.head?.bind (fun p => s.session p.src)).map (·.sid)).getD 0
  let s := s.updHost fun h =>
    { h with timed := h.timed ++ [{ due := t, order := h.timedOrder, sid := sid, gen := h.genOf ps, packets := ps }]
             timedOrder := h.timedOrder + 1 }
  ps.foldl (fun s p => if Packet.ackreq p then s.sendReply p (s.replyVersion p) .accepted 0 [] else s) s

/-- Packets whose tag an earlier one of the group bears (R85). -/
def repeatedTags : List (BitVec 16) → List Packet → List Bool
  | _, [] => []
  | seen, p :: ps => seen.contains p.tag :: repeatedTags (p.tag :: seen) ps

/-- T of an untimed group: the start of the next axis-control cycle (R92; its length is a free value, log 16). -/
def State.groupInstant (s : State) : Nat := s.now + Config.axisCycleWait s.now

/-- A group is complete (R90): steps 10 and 11 on every packet, then step 12, or the checks of the tag of its first packet (R93). -/
def State.groupComplete (s : State) (ps : List Packet) : State :=
  let rs := ps.map (fun p => (p, errOf (s.check10 p)))
  if rs.any (fun r => r.2.isSome) then s.refuseGroup rs
  else
    match ps with
    | [] => s
    | p :: rest =>
      if Packet.isTimed p then
        match s.checkTag (tagOf p) ps.length with
        | .error e => s.refuseGroup ((p, some e) :: rest.map (fun q => (q, none)))
        | .ok _ =>
          let us := (ps.zip (repeatedTags [] ps)).map fun q =>
            (q.1, if s.tagUsed q.1 || q.2 then some (Status.busy, 0x0001) else none)
          if us.any (fun r => r.2.isSome) then s.refuseGroup us else s.queueTimed ps (tagOf p)
      else s.runGroup ps (some (s.groupInstant, false))

/-- A packet of a group arrives and is held, until `GROUP_END` (R90) or a 65th packet (R91). -/
def State.holdPacket (s : State) (p : Packet) : State :=
  let held := ((s.host.groups.find? (fun g => g.1 == p.src)).map (fun g => g.2.packets)).getD []
  if 64 ≤ held.length then (s.abortGroup p.src 0x0003).refuse p .aborted 0x0003
  else
    let ps := held ++ [p]
    let others := s.host.groups.filter (fun g => g.1 != p.src)
    if Packet.groupEnd p then (s.updHost fun h => { h with groups := others }).groupComplete ps
    else s.updHost fun h => { h with groups := others ++ [(p.src, { packets := ps })] }

/-- The device serves packets: Byway runs or Turnpike answers (R19, R64, R552). -/
def State.serving (s : State) : Bool := (s.boot.ready && s.boot.bywayUp) || s.boot.recovery

/-- A packet that has passed steps 1 to 8 (Table 3.3). A packet without `GROUP` ends an open group of its queue (R91). -/
def State.arrive (s : State) (p : Packet) : State :=
  if !s.serving then s
  else if (opOf p.opcode.toNat).isNone then (s.abortGroup p.src 0x0004).refuse p .badOpcode 0
  else if Packet.inGroup p then s.holdPacket p
  else
    let s := s.abortGroup p.src 0x0001
    match s.check10 p with
    | .error e => s.refuse p e.1 e.2
    | .ok _ =>
      if Packet.isTimed p then
        (if s.tagUsed p then s.refuse p .busy 0x0001
         else match s.checkTag (tagOf p) 1 with
          | .error e => s.refuse p e.1 e.2
          | .ok _ => s.queueTimed [p] (tagOf p))
      else s.run1 p none

/-- A command of this queue still owes its synchronous reply: what follows waits (R86). -/
def State.blocked (s : State) (src : Src) : Bool := s.net.discover.any fun r => r.1.src == src

/-- A packet that has passed steps 1 to 8 is taken, or waits behind a synchronous reply (R86, R105). -/
def State.accept (s : State) (p : Packet) : State :=
  let s := s.keepAlive p.src
  if s.blocked p.src then s.updHost fun h => { h with behind := h.behind ++ [.packet p] } else (s.arrive p).noteDevstat

/-- A packet of the row's opcode arrives. -/
def State.arriveAs (s : State) (p : Packet) (n : Nat) : State := s.accept { p with opcode := BitVec.ofNat 16 n }

/-- The earliest item of the timed queue. -/
def firstDue : List TimedItem → Option TimedItem
  | [] => none
  | t :: ts =>
    match firstDue ts with
    | none => some t
    | some u => if t.due < u.due ∨ (t.due = u.due ∧ t.order < u.order) then some t else some u

/-- Run the packets of a timed item at its tag (R96). -/
def State.runTimed (s : State) (t : TimedItem) : State :=
  match t.packets with
  | [p] => s.run1 p (some (t.due, true))
  | ps => s.runGroup ps (some (t.due, true))

/-- The queue of a timed item has been disabled since: the item acts and is owed no reply and no completion (R113). -/
def State.runUnowed (s : State) (q : Fin 16) (t : TimedItem) : State :=
  let k := s.host.queues[q]
  let u := (s.updQueue q fun k => { k with gen := t.gen, active := false }).runTimed t
  (u.updQueue q fun x => { x with gen := k.gen, active := k.active }).flushHeld q

/-- A queued timed command or group falls due (R96, R97). -/
def execTimedTagDue (s : State) : Out :=
  s.main
    (match firstDue s.host.timed with
     | none => s
     | some t =>
       if s.now < t.due ∨ s.serving = false then s
       else
         let s := s.updHost fun h => { h with timed := h.timed.erase t }
         match t.packets with
         | p :: _ => match p.src with
           | .pcie q => if (s.host.queues[q]).gen = t.gen then s.runTimed t else s.runUnowed q t
           | _ => s.runTimed t
         | [] => s)

/-- `GROUP_END`: the last packet of a group arrives (R90). -/
def execGroupEnd (p : Packet) (s : State) : Out :=
  s.main (s.accept { p with flags := p.flags ||| 10#8 })

/-- `GROUP_END` does not arrive within 10 ms (R91). -/
def execGroupTimeout (src : Src) (s : State) : Out := s.main (s.abortGroup src 0x0002)

/-- `HELLO`. -/
def execHello (p : Packet) (s : State) : Out := s.main (s.arriveAs p 0x0001)

/-- `BYE`. -/
def execBye (p : Packet) (s : State) : Out := s.main (s.arriveAs p 0x0002)

/-- `PING`. -/
def execPing (p : Packet) (s : State) : Out := s.main (s.arriveAs p 0x0003)

/-- `DEVINFO`. -/
def execDevinfo (p : Packet) (s : State) : Out := s.main (s.arriveAs p 0x0004)

/-- `CFG_BEGIN`. -/
def execCfgBegin (p : Packet) (s : State) : Out := s.main (s.arriveAs p 0x0101)

/-- `CFG_SET`. -/
def execCfgSet (p : Packet) (s : State) : Out := s.main (s.arriveAs p 0x0102)

/-- `CFG_GET`. -/
def execCfgGet (p : Packet) (s : State) : Out := s.main (s.arriveAs p 0x0103)

/-- `CFG_COMMIT`. -/
def execCfgCommit (p : Packet) (s : State) : Out := s.main (s.arriveAs p 0x0104)

/-- `CFG_ABORT`. -/
def execCfgAbort (p : Packet) (s : State) : Out := s.main (s.arriveAs p 0x0105)

/-- `CFG_EXPLAIN`. -/
def execCfgExplain (p : Packet) (s : State) : Out := s.main (s.arriveAs p 0x0106)

/-- `AXIS_ENABLE`. -/
def execAxisEnable (p : Packet) (s : State) : Out := s.main (s.arriveAs p 0x0201)

/-- `AXIS_DISABLE`. -/
def execAxisDisable (p : Packet) (s : State) : Out := s.main (s.arriveAs p 0x0202)

/-- `MOVE_ABS`. -/
def execMoveAbs (p : Packet) (s : State) : Out := s.main (s.arriveAs p 0x0203)

/-- `MOVE_REL`. -/
def execMoveRel (p : Packet) (s : State) : Out := s.main (s.arriveAs p 0x0204)

/-- `MOVE_VEL`. -/
def execMoveVel (p : Packet) (s : State) : Out := s.main (s.arriveAs p 0x0205)

/-- `STOP`. -/
def execStop (p : Packet) (s : State) : Out := s.main (s.arriveAs p 0x0206)

/-- `HOME`. -/
def execHome (p : Packet) (s : State) : Out := s.main (s.arriveAs p 0x0207)

/-- `PATH_APPEND`. -/
def execPathAppend (p : Packet) (s : State) : Out := s.main (s.arriveAs p 0x0208)

/-- `GEAR_ENGAGE`. -/
def execGearEngage (p : Packet) (s : State) : Out := s.main (s.arriveAs p 0x0209)

/-- `GEAR_RELEASE`. -/
def execGearRelease (p : Packet) (s : State) : Out := s.main (s.arriveAs p 0x020A)

/-- `CAM_ENGAGE`. -/
def execCamEngage (p : Packet) (s : State) : Out := s.main (s.arriveAs p 0x020B)

/-- `PARAM_GET`. -/
def execParamGet (p : Packet) (s : State) : Out := s.main (s.arriveAs p 0x0301)

/-- `PARAM_SET`. -/
def execParamSet (p : Packet) (s : State) : Out := s.main (s.arriveAs p 0x0302)

/-- `TABLE_LOAD`. -/
def execTableLoad (p : Packet) (s : State) : Out := s.main (s.arriveAs p 0x0303)

/-- `PORT_FORCE`. -/
def execPortForce (p : Packet) (s : State) : Out := s.main (s.arriveAs p 0x0401)

/-- `PORT_TRIP_CLEAR`. -/
def execPortTripClear (p : Packet) (s : State) : Out := s.main (s.arriveAs p 0x0402)

/-- `PORT_STATUS`. -/
def execPortStatus (p : Packet) (s : State) : Out := s.main (s.arriveAs p 0x0403)

/-- `LATCH_ARM`. -/
def execLatchArm (p : Packet) (s : State) : Out := s.main (s.arriveAs p 0x0501)

/-- `LATCH_READ`. -/
def execLatchRead (p : Packet) (s : State) : Out := s.main (s.arriveAs p 0x0502)

/-- `COMPARE_SET`. -/
def execCompareSet (p : Packet) (s : State) : Out := s.main (s.arriveAs p 0x0503)

/-- `COMPARE_CLEAR`. -/
def execCompareClear (p : Packet) (s : State) : Out := s.main (s.arriveAs p 0x0504)

/-- `TRACE_SETUP`. -/
def execTraceSetup (p : Packet) (s : State) : Out := s.main (s.arriveAs p 0x0601)

/-- `TRACE_START`. -/
def execTraceStart (p : Packet) (s : State) : Out := s.main (s.arriveAs p 0x0602)

/-- `TRACE_STOP`. -/
def execTraceStop (p : Packet) (s : State) : Out := s.main (s.arriveAs p 0x0603)

/-- `TRACE_READ`. -/
def execTraceRead (p : Packet) (s : State) : Out := s.main (s.arriveAs p 0x0604)

/-- `TIME_GET`. -/
def execTimeGet (p : Packet) (s : State) : Out := s.main (s.arriveAs p 0x0701)

/-- `TIME_STEP`. -/
def execTimeStep (p : Packet) (s : State) : Out := s.main (s.arriveAs p 0x0702)

/-- `NET_STATUS`. -/
def execNetStatus (p : Packet) (s : State) : Out := s.main (s.arriveAs p 0x0703)

/-- `CAN_TX_QUEUE`. -/
def execCanTxQueue (p : Packet) (s : State) : Out := s.main (s.arriveAs p 0x0704)

/-- `CAN_RX_ACK`. -/
def execCanRxAck (p : Packet) (s : State) : Out := s.main (s.arriveAs p 0x0705)

/-- `JUNCTION_FORM`. -/
def execJunctionForm (p : Packet) (s : State) : Out := s.main (s.arriveAs p 0x0706)

/-- `SAFE_STATUS`. -/
def execSafeStatus (p : Packet) (s : State) : Out := s.main (s.arriveAs p 0x0801)

/-- `SAFE_CFG_LOAD`. -/
def execSafeCfgLoad (p : Packet) (s : State) : Out := s.main (s.arriveAs p 0x0802)

/-- `SAFE_CFG_CONFIRM`. -/
def execSafeCfgConfirm (p : Packet) (s : State) : Out := s.main (s.arriveAs p 0x0803)

/-- `BRAKE_TEST`. -/
def execBrakeTest (p : Packet) (s : State) : Out := s.main (s.arriveAs p 0x0804)

/-- `FAULT_READ`. -/
def execFaultRead (p : Packet) (s : State) : Out := s.main (s.arriveAs p 0x0901)

/-- `FAULT_ACK`. -/
def execFaultAck (p : Packet) (s : State) : Out := s.main (s.arriveAs p 0x0902)

/-- `RETIRE_STATUS`. -/
def execRetireStatus (p : Packet) (s : State) : Out := s.main (s.arriveAs p 0x0903)

/-- `FW_BEGIN`. -/
def execFwBegin (p : Packet) (s : State) : Out := s.main (s.arriveAs p 0x0A01)

/-- `FW_DATA`. -/
def execFwData (p : Packet) (s : State) : Out := s.main (s.arriveAs p 0x0A02)

/-- `FW_END`. -/
def execFwEnd (p : Packet) (s : State) : Out := s.main (s.arriveAs p 0x0A03)

/-- `FW_ACTIVATE`. -/
def execFwActivate (p : Packet) (s : State) : Out := s.main (s.arriveAs p 0x0A04)

/-- `LEP_LOAD`. -/
def execLepLoad (p : Packet) (s : State) : Out := s.main (s.arriveAs p 0x0B01)

/-- `LEP_INFO`. -/
def execLepInfo (p : Packet) (s : State) : Out := s.main (s.arriveAs p 0x0B02)

/-- `DBG_UNLOCK`. -/
def execDbgUnlock (p : Packet) (s : State) : Out := s.main (s.arriveAs p 0x0C01)

/-- `TMUX_SELECT`. -/
def execTmuxSelect (p : Packet) (s : State) : Out := s.main (s.arriveAs p 0x0C02)

end Sys2Proof.Machine
end

