-- ==== Sys2Proof/Machine/Forward.lean ====
section
/-!
DEFINITION. Forwarding of packets to members of a junction, and of their replies and events (R33 to R35, R442).
-/
namespace Sys2Proof.Machine

/-- Nibbles consumed when this device has taken its own: one for a packet of its host, one more for each leader above (R34). -/
def nibblesTaken (src : Src) : Nat :=
  match src with
  | .leader => Config.junctionLevel + 1
  | _ => 1

/-- Note whether a forwarded group is open on the packet's queue (R89). -/
def State.noteFwdGroup (s : State) (p : Packet) : State :=
  s.updHost fun h =>
    let others := h.fwdGroups.filter (fun g => g.1 != p.src)
    { h with fwdGroups := if Packet.inGroup p && !Packet.groupEnd p then others ++ [(p.src, p.path)] else others }

/-- Opcodes that a non-zero path has refused at step 8: `HELLO`, `BYE` (R100), `CFG_BEGIN`, `CFG_COMMIT`, `CFG_ABORT` (R131). -/
def pathless (n : Nat) : Bool := [0x0001, 0x0002, 0x0101, 0x0104, 0x0105].contains n

/-- Step 8 of a packet with a non-zero path (R33, R34, R131, R442): its member of the junction and that member's versions. Recovery
mode refuses every opcode but those of R64. -/
def State.checkForward (s : State) (p : Packet) : Check Unit := do
  need (!pathless p.opcode.toNat) .badTarget 0
  need (!(s.boot.recovery && !recoveryOps.contains p.opcode.toNat)) .state 0x00FF
  match s.member? (p.path.toNat % 16) with
  | none => .error (.badTarget, nibblesTaken p.src)
  | some x =>
    need (x.st == .member) .badTarget (nibblesTaken p.src)
    need (decide (x.lo ≤ p.version.toNat) && decide (p.version.toNat ≤ x.hi)) .badVersion (x.lo * 256 + x.hi)

/-- Forward a packet with a non-zero path (R33, R34) to the member of its lowest nibble, with the path shifted; it awaits the member's
reply. A packet that fails step 8 ends an open group of its queue, and so does one without `GROUP` (R91). The device's own refusal
echoes the path as received, as the reply to a packet for the device itself does (R82): R35 forms the path of a reply that comes from
below, and names none for a device on the way (DESIGN CHOICE, log 92). -/
def State.forward (s : State) (p : Packet) : State :=
  match s.checkForward p with
  | .error e => (s.abortGroup p.src 0x0004).refuse p e.1 e.2
  | .ok _ =>
    let s := if Packet.inGroup p then s else s.abortGroup p.src 0x0001
    if s.tagUsed p then s.refuse p .busy 0x0001
    else
      let m := p.path.toNat % 16
      let r := s.refOf p
      (s.noteFwdGroup p).updNet fun n =>
        { n with
          sent := n.sent ++ [(m, { p with path := p.path >>> 4 })]
          fwd := n.fwd.filter (fun f => !(f.member == m && f.ref.sid == r.sid && f.ref.tag == r.tag)) ++ [{ member := m, ref := r }] }

/-- The path of a reply or event on its way back: the member's index shifted back in (R35). -/
def pathBack (path : BitVec 32) (m : Nat) : BitVec 32 := (path <<< 4) ||| BitVec.ofNat 32 m

/-- Deliver an event of a member to one session of this device, numbered for it; what the member discarded counts (R87). -/
def State.relayEventTo (s : State) (src : Src) (m : Nat) (p : Packet) : State :=
  let s := match s.session src with
    | some x => s.setSession src (some { x with evDiscarded := min 65535 (x.evDiscarded + u16 p.payload 2) })
    | none => s
  s.eventTo src p.opcode.toNat p.axis.toNat (p.payload.drop 4) (pathBack p.path m)

/-- A reply of a member goes to the command that awaits it, which awaits its completion further while the status is `ACCEPTED`. -/
def State.relayReply (s : State) (m : Nat) (p : Packet) : State :=
  match s.net.fwd.find? (fun f => f.member == m && f.ref.tag == p.tag && f.ref.opcode % 32768 + 32768 == p.opcode.toNat) with
  | none => s
  | some f =>
    let s := s.updNet fun n =>
      { n with fwd := if u16 p.payload 0 = 1 then n.fwd.map fun g => if g = f then { g with accepted := true } else g else n.fwd.erase f }
    match s.session f.ref.src with
    | none => s
    | some x =>
      if x.sid ≠ f.ref.sid then s
      else
        s.emitTo f.ref { event := false, version := p.version.toNat, opcode := p.opcode.toNat, tag := p.tag, axis := p.axis,
                           path := pathBack p.path m, crc := s.crcUse f.ref.src, payload := p.payload }

/-- Relay a reply or an event of a member towards the host (R35). -/
def State.relay (s : State) (m : Nat) (p : Packet) : State :=
  if 0xE000 ≤ p.opcode.toNat then
    (((s.relayEventTo (.pcie 0) m p).relayEventTo .qspi m p).relayEventTo .leader m p)
  else s.relayReply m p

/-- A packet whose checks before are done goes on its way, or waits behind a synchronous reply (R86). -/
def State.forwardOrWait (s : State) (p : Packet) : State :=
  let s := s.keepAlive p.src
  if s.blocked p.src then s.updHost fun h => { h with behind := h.behind ++ [.packet p] } else (s.forward p).noteDevstat

/-- `PACKET_FORWARD`: a packet with a non-zero path has passed the checks before (R33). -/
def execPacketForward (p : Packet) (s : State) : Out :=
  s.main (if p.path = 0 ∨ !s.serving then s else s.forwardOrWait p)

/-- `REPLY_RELAY`: a reply or event arrives from a member (R35). -/
def execReplyRelay (m : Fin 15) (p : Packet) (s : State) : Out :=
  s.main (if !s.serving then s else s.relay (m.val + 1) p)

end Sys2Proof.Machine
end

