-- ==== Sys2Proof/Machine/Transport.lean ====
section
/-!
DEFINITION. The transports: steps 1 to 8 of Table 3.3, PCIe queues and registers, the QSPI slave (R78 to R81, R109 to R124).
-/
namespace Sys2Proof.Machine

/-! ### Steps 1 to 8 (R81) -/

/-- Fields of a received packet, as they stand in its bytes. -/
def parsePacket (src : Src) (b : List Byte) (crc : Bool) : Packet :=
  { src := src, version := BitVec.ofNat 8 (u8 b 2), flags := BitVec.ofNat 8 (u8 b 3), opcode := BitVec.ofNat 16 (u16 b 4),
    tag := BitVec.ofNat 16 (u16 b 6), axis := BitVec.ofNat 16 (u16 b 10), path := BitVec.ofNat 32 (u32 b 12),
    payload := (b.drop 16).take (u16 b 8), crc := crc }

/-- A CRC is in use for this packet (R80). -/
def State.packetCrc (s : State) (src : Src) (b : List Byte) : Bool :=
  match src with
  | .pcie _ =>
    match s.host.pcie with
    | some x => x.has featCrc
    | none => b.length == 20 + u16 b 8
  | _ => true

/-- The flag rules of step 6: reserved flags, features, groupable, timeable, paths within a group, `TIMED` within a group. Where a packet
breaks several, the lowest detail is reported; a non-zero path without `JUNCTION` (R102) is refused here, but for the opcodes that
R100 and R131 refuse at step 8: the spec gives neither order (DESIGN CHOICE, log 93). -/
def State.flagRules (s : State) (p : Packet) : Check Unit := do
  let held := ((s.host.groups.find? (fun g => g.1 == p.src)).map (fun g => g.2.packets)).getD []
  let has (b : Nat) : Bool := ((s.session p.src).map (fun x => x.has b)).getD false
  need (decide (p.flags.toNat < 16) && !(Packet.groupEnd p && !Packet.inGroup p)) .range 0x0001
  need (!(Packet.inGroup p && !has featGroup) && !(Packet.isTimed p && !has featTimed)
    && !(p.path != 0 && !has featJunction && !pathless p.opcode.toNat)) .range 0x0002
  need (!(Packet.inGroup p && !groupable p.opcode.toNat)) .range 0x0003
  need (!(Packet.isTimed p && !groupable p.opcode.toNat)) .range 0x0004
  need (!(Packet.inGroup p && (match held.head? with | some q => q.path != p.path | none => false)
    || (Packet.inGroup p && (s.host.fwdGroups.find? (fun g => g.1 == p.src)).any (fun g => g.2 != p.path)))) .range 0x0005
  need (!(Packet.inGroup p && Packet.isTimed p
    && (!held.isEmpty || s.host.fwdGroups.any (fun g => g.1 == p.src)))) .range 0x0006

/-- Steps 1 to 5 of Table 3.3. -/
def State.steps1to5 (s : State) (src : Src) (b : List Byte) (p : Packet) : Check Unit := do
  let crc := s.packetCrc src b
  let len := u16 b 8
  let n := p.opcode.toNat
  need (u16 b 0 == 0x5358) .badMagic 0
  need (b.length == 16 + len + (if crc then 4 else 0)) .badLength 0x0003
  need (!crc || (crc32c (b.take (16 + len))).toNat == u32 b (16 + len)) .badCrc 0
  let v := p.version.toNat
  match s.session src with
  | some x => need (v == x.version || (n == 1 && decide (1 ≤ v) && decide (v ≤ 3))) .badVersion x.version
  | none => need (decide (1 ≤ v) && decide (v ≤ 3)) .badVersion 0x0103
  need (len % 4 == 0) .badLength 0x0001
  need (decide (len ≤ payloadLimit v)) .badLength 0x0002

/-- Steps 6 to 8 of Table 3.3 before forwarding. -/
def State.steps6to8 (s : State) (src : Src) (p : Packet) : Check Unit := do
  let n := p.opcode.toNat
  s.flagRules p
  need ((s.session src).isSome || [1, 3, 4].contains n) .noSession 0
  need (!(p.path != 0 && pathless n)) .badTarget 0

/-- Check a received packet and run it or forward it (R33, R81); a failure ends an open group of its queue (R91). A packet that has
passed steps 1 to 5 restarts the session's timeout (R105). -/
def State.receive (s : State) (src : Src) (b : List Byte) : State :=
  let p := parsePacket src b (s.packetCrc src b)
  match s.steps1to5 src b p with
  | .error e => ((s.abortGroup src 0x0004).refuse p e.1 e.2).noteDevstat
  | .ok _ =>
    let s := s.keepAlive src
    match s.steps6to8 src p with
    | .error e => ((s.abortGroup src 0x0004).refuse p e.1 e.2).noteDevstat
    | .ok _ => (if p.path = 0 then s.arrive p else s.forward p).noteDevstat

/-- A packet arrives: it is received, or waits behind a synchronous reply of its queue (R86). -/
def State.receiveOrWait (s : State) (src : Src) (b : List Byte) : State :=
  if s.blocked src then s.updHost fun h => { h with behind := h.behind ++ [.bytes src b] } else s.receive src b

/-- The queue that something waits on. -/
def Behind.src : Behind → Src
  | .bytes src _ => src
  | .packet p => p.src

/-- What has waited is taken in its order, until another synchronous reply is outstanding (R86). -/
def State.takeBehind (s : State) (b : Behind) : State :=
  match b with
  | .bytes src x => s.receiveOrWait src x
  | .packet p => if p.path = 0 then s.accept p else s.forwardOrWait p

/-- The synchronous reply of a queue has been sent: what waits behind it is taken (R86). -/
def State.unblock (s : State) (src : Src) : State :=
  let l := s.host.behind.filter fun b => b.src == src
  l.foldl State.takeBehind (s.updHost fun h => { h with behind := h.behind.filter fun b => b.src != src })

/-! ### Submission rings (R111 to R115, R552) -/

def sqSize (q : Queue) : Nat := 2 ^ q.smpSqSz

def RingEntry.first (e : RingEntry) : Bool := e.ctl.getLsbD 1
def RingEntry.isLast (e : RingEntry) : Bool := e.ctl.getLsbD 2

/-- The entry is well formed: reserved bits 0, 1 to 60 bytes, and 60 in every entry but the last (Table 3.19, R111). -/
def RingEntry.good (e : RingEntry) : Bool :=
  (e.ctl &&& 0xF9#8) == 0#8 && decide (1 ≤ e.fragLen.toNat) && decide (e.fragLen.toNat ≤ 60)
    && (RingEntry.isLast e || e.fragLen == 60#16)

/-- The packet at the head of a ring: none when it is not complete yet, an error when it is malformed, else its bytes and its
number of entries (R111). -/
def takePacket (lim : Nat) : List RingEntry → Bool → Nat → List Byte → Option (Except Unit (List Byte × Nat))
  | [], _, n, _ => if lim ≤ n then some (.error ()) else none
  | e :: es, begun, n, acc =>
    if !RingEntry.good e || RingEntry.first e == begun || lim ≤ n then some (.error ())
    else
      let acc := acc ++ e.data.take e.fragLen.toNat
      if RingEntry.isLast e then (if acc.length < 16 then some (.error ()) else some (.ok (acc, n + 1)))
      else takePacket lim es true (n + 1) acc

def Queue.head? (k : Queue) : Option (Except Unit (List Byte × Nat)) := takePacket (sqSize k - 1) k.sq false 0 []

/-- The device may fetch from the queue (R113, R115, R552). -/
def Queue.canFetch (k : Queue) : Bool := k.active && !k.stopped && !k.cqStall

/-- The queue has something to take. -/
def Queue.hasWork (k : Queue) : Bool := k.canFetch && k.head?.isSome

/-- The next queue of a priority in rotation from `start` (R114). -/
def nextQueue (qs : Vector Queue 16) (high : Bool) (start : Nat) : Option (Fin 16) :=
  (List.range 16).findSome? fun j =>
    let q : Fin 16 := ⟨(start + j) % 16, Nat.mod_lt _ (by decide)⟩
    if qs[q].qcfg.getLsbD 13 == high && qs[q].hasWork then some q else none

/-- An error stops a queue until it is enabled again (Table 3.18, R113) and sets `INTSTAT.QERR`. -/
def State.queueError (s : State) (q : Fin 16) (f : Queue → Queue) : State :=
  (s.updQueue q fun k => { f k with stopped := true }).setInt 18 31

/-- Fetch and run one packet of the queue whose turn it is. -/
def State.fetchOne (s : State) : Option State :=
  if !(s.boot.ready || s.boot.recovery) then none
  else
    let pick := match nextQueue s.host.queues true s.host.rotHigh with
      | some q => some (q, true)
      | none => (nextQueue s.host.queues false s.host.rotLow).map (fun q => (q, false))
    match pick with
    | none => none
    | some (q, high) =>
      let s := s.updHost fun h => if high then { h with rotHigh := q.val + 1 } else { h with rotLow := q.val + 1 }
      match (s.host.queues[q]).head? with
      | none => none
      | some (.error _) => some (s.queueError q fun k => { k with frameErr := true })
      | some (.ok (b, n)) =>
        let s := s.updQueue q fun k => { k with sq := k.sq.drop n, sqHead := (k.sqHead + n) % sqSize k }
        some (s.receiveOrWait (.pcie q) b)

/-- Fetch until no queue has a packet to take. -/
def State.fetch (s : State) : Nat → State
  | 0 => s
  | n + 1 => match s.fetchOne with | some s => s.fetch n | none => s

/-- Bound on the packets a fetch can take: the entries in the rings, and one error each. -/
def State.fetchAll (s : State) : State :=
  s.fetch ((s.host.queues.toList.map (fun k => k.sq.length)).foldl (· + ·) 16)

/-- Entries the host wrote up to `tail` (R114): `entries` are their contents in ring order; `dma` says that reading the ring failed
on PCIe. -/
def execSqDoorbell (q : Fin 16) (tail : BitVec 16) (entries : List RingEntry) (dma : Bool) (s : State) : Out :=
  s.main
    (let k := s.host.queues[q]
     if !k.qcfg.getLsbD 15 || k.stopped then s.updQueue q fun k => { k with sqTail := tail.toNat }
     else if sqSize k ≤ tail.toNat then s.queueError q fun k => { k with sqTail := tail.toNat, frameErr := true }
     else
       let n := (tail.toNat + sqSize k - k.sqTail) % sqSize k
       let s := s.updQueue q fun k => { k with sqTail := tail.toNat, sq := k.sq ++ entries.take n }
       if dma then s.queueError q fun k => { k with dmaErr := true } else s.fetchAll)

/-- Entries the host has consumed (R115). -/
def execCqDoorbell (q : Fin 16) (head : BitVec 16) (s : State) : Out :=
  s.main (s.updQueue q fun k =>
    let n := (head.toNat + cqSize k - k.cqHead) % cqSize k
    { k with cqHead := head.toNat, cq := k.cq.drop n })

/-- The device writes the oldest held packet once it fits; when none waits any more, the queue's fetching resumes (R115). -/
def execHeldPacketWrite (q : Fin 16) (s : State) : Out :=
  s.main
    (let k := s.host.queues[q]
     match k.held with
     | [] => s
     | o :: rest =>
       if !k.active || !k.fits o then s
       else
         let s := (s.updQueue q fun k => { k.write o with held := rest, cqStall := !rest.isEmpty }).coalesce q
         if rest.isEmpty then s.fetchAll else s)

/-- `COAL_TIME` after the first unsignalled packet (R117). -/
def execCoalTimeExpiry (q : Fin 16) (s : State) : Out :=
  s.main
    (let k := s.host.queues[q]
     if k.unsignalled = 0 ∨ k.qcfg.toNat / 2 ^ 20 % 256 = 0 then s
     else (s.updQueue q fun k => { k with unsignalled := 0 }).setInt (intBit q.val) k.vec)

/-- `QCFG`, `VEC` and bases are valid (Tables 3.16 to 3.18). -/
def Queue.cfgOk (k : Queue) (v : Word) : Bool :=
  let sq := v.toNat % 16
  let cq := v.toNat / 16 % 16
  decide (4 ≤ sq) && decide (sq ≤ 12) && decide (7 ≤ cq) && decide (cq ≤ 12) && decide (v.toNat / 256 % 32 ≤ 30)
    && k.sqBase.toNat % 4096 == 0 && k.cqBase.toNat % 4096 == 0

def qcfgMask : Word := 0x0FFFBFFF#32

/-- `EN` goes from 0 to 1 (R112, R552): sizes and bases are sampled, heads and tails zeroed; an invalid setting sets `CFG_ERR`. -/
def State.queueEnable (s : State) (q : Fin 16) (v : Word) : State :=
  let v := (v &&& qcfgMask) ||| 0x8000#32
  if (s.host.queues[q]).cfgOk v then
    (s.updQueue q fun k =>
      { k with
        qcfg := v, smpSq := k.sqBase, smpCq := k.cqBase, smpSqSz := v.toNat % 16, smpCqSz := v.toNat / 16 % 16
        sqTail := 0, sqHead := 0, cqHead := 0, cqTail := 0, phase := true, sq := [], cq := []
        unsignalled := 0, cqStall := false, stopped := false, active := s.boot.ready || s.boot.recovery }).flushHeld q
  else s.queueError q fun k => { k with qcfg := v, cfgErr := true }

/-- `EN` goes from 1 to 0 (R113): fetching stops, the replies and completions the queue is owed, now or later, are discarded, `ACTIVE`
clears. Events stay undelivered (R88). -/
def Queue.disable (k : Queue) (v : Word) : Queue :=
  { k with
    qcfg := v &&& qcfgMask &&& ~~~0x8000#32, active := false, held := k.held.filter (·.event), sq := [], cqStall := false
    unsignalled := 0, gen := if k.qcfg.getLsbD 15 then k.gen + 1 else k.gen }

def execQcfgEnSet (q : Fin 16) (v : Word) (s : State) : Out :=
  s.main (if (s.host.queues[q]).qcfg.getLsbD 15 then s.updQueue q fun k => { k with qcfg := (v &&& qcfgMask) ||| 0x8000#32 }
    else s.queueEnable q v)

def execQcfgEnClear (q : Fin 16) (v : Word) (s : State) : Out := s.main (s.updQueue q fun k => k.disable v)

/-- Queues enabled before the device was ready begin to run (R552). -/
def State.startQueues (s : State) : State :=
  let s := s.updHost fun h =>
    { h with queues := h.queues.map fun k =>
        if k.qcfg.getLsbD 15 && !k.stopped then { k with active := true } else k }
  ((List.finRange 16).foldl State.flushHeld s).fetchAll

/-! ### Time snapshot (R119) -/

def execTsctlTrig (s : State) : Out :=
  s.main ((s.updHost fun h =>
    { h with tsDone := true, tsSeq := (h.tsSeq + 1) % 256, tsNs := s.time.ns, tsSec := s.time.sec, tsFrac := s.time.frac
             tsServo := s.time.servo.code }).setInt 19 31)

def execTlNsRead (s : State) : Out :=
  s.main (s.updHost fun h => { h with tlNs := s.time.ns, tlSec := s.time.sec, tlFrac := s.time.frac })

/-- Function Level Reset, hot reset or link down (R118); `up` says whether the link is up afterwards. -/
def execPcieLinkReset (up : Bool) (s : State) : Out :=
  s.main
    (let s := (s.endSession (.pcie 0) true).noteDevstat
     s.updHost fun h =>
       { h with
         pcieUp := up, queues := h.queues.map (fun k => k.disable k.qcfg), intstat := 0, intmask := 0, msixPba := 0 })

/-! ### Registers (R10, R11, R110) -/

/-- A write of one word of a queue pair (Table 3.16). -/
def State.queueReg (s : State) (q : Fin 16) (r : Nat) (v : Word) : State :=
  let k := s.host.queues[q]
  match r with
  | 0 => s.updQueue q fun k => { k with sqBase := (k.sqBase.extractLsb' 32 32 ++ v : BitVec 64) }
  | 1 => s.updQueue q fun k => { k with sqBase := (v ++ k.sqBase.extractLsb' 0 32 : BitVec 64) }
  | 2 => s.updQueue q fun k => { k with cqBase := (k.cqBase.extractLsb' 32 32 ++ v : BitVec 64) }
  | 3 => s.updQueue q fun k => { k with cqBase := (v ++ k.cqBase.extractLsb' 0 32 : BitVec 64) }
  | 4 =>
    if v.getLsbD 15 then
      (if k.qcfg.getLsbD 15 then s.updQueue q fun k => { k with qcfg := v &&& qcfgMask } else s.queueEnable q v)
    else s.updQueue q fun k => k.disable v
  | 7 =>
    s.updQueue q fun k =>
      { k with frameErr := k.frameErr && !v.getLsbD 1, dmaErr := k.dmaErr && !v.getLsbD 2, cfgErr := k.cfgErr && !v.getLsbD 3 }
  | _ => s

/-- A write of `size` bytes to a register that has no row of its own, by its access code (R11): BAR0 registers, where any access but an
aligned one of 32 bits is discarded (R110); the MSI-X table and the MSI-X control word of the endpoint (R109, R110; log 36), whose
configuration requests are retried before step 6 (Table 2.9); the region registers of a master (Table 15.3), which Turnpike writes.
Read-only and reserved words discard it. -/
def execRegisterWrite (sp : RegSpace) (off : BitVec 16) (size : BitVec 4) (v : Word) (s : State) : Out :=
  s.main
    (let o := off.toNat / 4 * 4
     match sp with
     | .bar0 =>
       if size ≠ 4 ∨ off.toNat % 4 ≠ 0 then s
       else if o = 0x028 then s.updHost fun h => { h with scratch := v }
       else if 0x100 ≤ o ∧ o < 0x300 then
         s.queueReg ⟨(o - 0x100) / 32 % 16, Nat.mod_lt _ (by decide)⟩ ((o - 0x100) % 32 / 4) v
       else if o = 0x2000 then s.updHost fun h => { h with intstat := h.intstat &&& ~~~v }
       else if o = 0x2004 then s.updHost fun h => { h with intmask := v &&& 0xFFFFF#32 }
       else s
     | .bar2 => match fin? 128 (o / 4) with
       | some k => s.updHost fun h => { h with msixTable := upd h.msixTable k fun _ => v }.sendPending
       | none => s
     | .msixControl =>
       if s.pcieRetry then s
       else s.updHost fun h => { h with msixEnabled := v.getLsbD 15, msixMask := v.getLsbD 14 }.sendPending
     | .region m k hi =>
       let mask : Word := if hi then 0xFFFFF000#32 else 0xFFFFF007#32
       { s with xr := { s.xr with regions := upd s.xr.regions m fun r => upd r k fun x =>
           if hi then ((v &&& mask) ++ x.extractLsb' 0 32 : BitVec 64) else (x.extractLsb' 32 32 ++ (v &&& mask) : BitVec 64) } })

/-! ### QSPI (R121 to R124) -/

def State.updQspi (s : State) (f : Qspi → Qspi) : State := s.updHost fun h => { h with qspi := f h.qspi }

/-- `READY` of the QSPI status word: HELLO-ready or recovery mode (Table 3.24). -/
def State.qspiReady (s : State) : Bool := s.boot.ready || s.boot.recovery

/-- Bytes free in the 16 KiB receive buffer (Table 3.24): every packet is taken at once but one that waits behind a synchronous reply
(R86, log 17). -/
def State.rxFree (s : State) : Nat :=
  16384 - (s.host.behind.map fun b => match b with | .bytes .qspi x => x.length | _ => 0).foldl (· + ·) 0

/-- The command byte of a QSPI transaction (Table 3.23). -/
inductive QspiCmd where
  | write | read | readAgain | status
  deriving DecidableEq, Repr

def qspiCommand (c : Byte) : Option QspiCmd :=
  if c = 0x10 then some .write else if c = 0x20 then some .read else if c = 0x21 then some .readAgain
  else if c = 0x30 then some .status else none

/-- `WRITE` (R122). -/
def execQspiWrite (b : List Byte) (s : State) : Out :=
  s.main
    (if !s.qspiReady || b.length < 20 || b.length != 20 + u16 b 8 || s.rxFree < b.length then s.updQspi fun q => { q with drop := true }
     else s.receiveOrWait .qspi b)

/-- `READ` of `n` clocked bytes (R123). -/
def execQspiRead (n : BitVec 16) (s : State) : Out :=
  s.main (s.updQspi fun q =>
    match q.tx with
    | [] => { q with data := zeros n.toNat }
    | o :: rest =>
      let q := { q with data := o.bytes.take n.toNat ++ zeros (n.toNat - o.size) }
      if o.size ≤ n.toNat then { q with tx := rest, last := some o } else q)

/-- `READ_AGAIN`: the last packet that `READ` removed (Table 3.23). -/
def execQspiReadAgain (n : BitVec 16) (s : State) : Out :=
  s.main (s.updQspi fun q =>
    match q.last with
    | none => { q with data := zeros n.toNat }
    | some o => { q with data := o.bytes.take n.toNat ++ zeros (n.toNat - o.size) })

/-- The status word (Table 3.24). -/
def State.qspiStatus (s : State) : Nat :=
  s.rxFree + ((s.host.qspi.tx.head?.map (·.size)).getD 0) * 2 ^ 16 + b2n s.qspiReady * 2 ^ 29 + b2n s.host.qspi.drop * 2 ^ 30
    + b2n s.boot.recovery * 2 ^ 31

/-- `STATUS` returns the status word and its CRC-32C and clears `DROP`. -/
def execQspiStatus (s : State) : Out :=
  s.main (s.updQspi fun q =>
    let w := leBytes 4 s.qspiStatus
    { q with drop := false, data := w ++ leBytes 4 (crc32c w).toNat })

/-- A transaction with a command byte outside Table 3.23 is discarded (R122). -/
def execQspiUnknownCommand (c : Byte) (s : State) : Out :=
  s.main (if (qspiCommand c).isSome then s else s.updQspi fun q => { q with drop := true })

/-- `HQ_IRQ_N` is driven low (R124). -/
def State.hqIrq (s : State) : Bool := !s.host.qspi.tx.isEmpty

/-! ### What BAR0 reads return (Tables 3.13 to 3.22) -/

/-- `QSTAT` (Table 3.18). -/
def Queue.qstat (k : Queue) : Nat := ofBools [k.active, k.frameErr, k.dmaErr, k.cfgErr, k.cqStall]

/-- A register of a queue pair (Table 3.16). -/
def Queue.reg (k : Queue) : Nat → Nat
  | 0 => k.sqBase.toNat % 2 ^ 32
  | 1 => k.sqBase.toNat / 2 ^ 32
  | 2 => k.cqBase.toNat % 2 ^ 32
  | 3 => k.cqBase.toNat / 2 ^ 32
  | 4 => k.qcfg.toNat
  | 5 => k.sqTail % 65536 + 65536 * k.sqHead
  | 6 => k.cqHead % 65536 + 65536 * k.cqTail
  | _ => k.qstat

/-- The identity block (Table 3.14). -/
def State.identReg (s : State) : Nat → Option Nat
  | 0x000 => some 0x51201F3A
  | 0x004 => some 0x000301B1
  | 0x008 => some s.devstat
  | 0x00C => some Config.turnpikeVersion.toNat
  | 0x010 => some s.bwVersion
  | 0x014 => some 0x0C07C410
  | 0x018 => some (Config.serial.toNat % 2 ^ 32)
  | 0x01C => some (Config.serial.toNat / 2 ^ 32)
  | 0x020 => some s.boot.rstCause
  | 0x024 => some s.boot.bwRestarts
  | 0x028 => some s.host.scratch.toNat
  | _ => none

/-- The time snapshot block (Table 3.21) as `TL_NS` leaves it; `TRIG` is write-only and reads 0. -/
def HostIf.snapReg (h : HostIf) : Nat → Option Nat
  | 0x00 => some (2 * b2n h.tsDone + 256 * h.tsSeq)
  | 0x04 => some h.tsNs
  | 0x08 => some (h.tsSec % 2 ^ 32)
  | 0x0C => some (h.tsSec / 2 ^ 32)
  | 0x10 => some h.tsFrac
  | 0x14 => some h.tsServo
  | 0x20 => some h.tlNs
  | 0x24 => some (h.tlSec % 2 ^ 32)
  | 0x28 => some (h.tlSec / 2 ^ 32)
  | 0x2C => some h.tlFrac
  | _ => none

/-- A word of the Tollgate mirror (Table 3.22). -/
def Mirror.reg (m : Mirror) : Nat → Nat
  | 0x00 => m.seq
  | 0x04 => m.state
  | 0x08 => m.gen.toNat % 2 ^ 32
  | 0x0C => m.gen.toNat / 2 ^ 32
  | 0x10 => m.brk.toNat % 2 ^ 32
  | 0x14 => m.brk.toNat / 2 ^ 32
  | 0x18 => m.si.toNat
  | 0x1C => m.soedm
  | 0x20 => m.cfgId
  | _ => 0

/-- What a BAR0 read of `size` bytes returns: all ones for any access but an aligned one of 32 bits, 0 for reserved words (R10, R110). -/
def State.bar0Read (s : State) (off size : Nat) : Nat :=
  if size ≠ 4 ∨ off % 4 ≠ 0 then 0xFFFFFFFF
  else if off < 0x100 then (s.identReg off).getD 0
  else if off < 0x300 then
    (s.host.queues[(⟨(off - 0x100) / 32 % 16, Nat.mod_lt _ (by decide)⟩ : Fin 16)]).reg ((off - 0x100) % 32 / 4)
  else if 0x1000 ≤ off ∧ off < 0x2000 then (s.host.snapReg (off - 0x1000)).getD 0
  else if off = 0x2000 then s.host.intstat.toNat
  else if off = 0x2004 then s.host.intmask.toNat
  else if 0x3000 ≤ off ∧ off < 0x3024 then s.tg.mirror.reg (off - 0x3000)
  else 0

end Sys2Proof.Machine
end

