-- ==== Sys2Proof/Machine/BootEvents.lean ====
section
/-!
DEFINITION. Supplies, clocks, resets, boot and Byway restarts (chapter 2).
-/
namespace Sys2Proof.Machine

/-! ### Resets (R53 to R58) -/

/-- The ports and feedback units that stay retired (R511). -/
def keepRetired (s s' : State) : State :=
  { s' with
    ports := s'.ports.mapFinIdx fun k p hk => { p with offRetired := (s.ports[k]'hk).offRetired }
    eng := Vector.ofFn fun e =>
      { role := if s.engRetired e then .retired
                else if (allEngines.filter (fun x => decide (e.val < x.val) && !s.engRetired x)).length < 2 then .shoulder
                else .service } }

/-- What every reset keeps: the queue of commands, the model's free counter, flash and fuses, the pins and rails (Table 2.4). -/
def State.flashKept (s : State) (s' : State) : State :=
  { s' with
    pending := s.pending, free := s.free
    boot := { s'.boot with
      dirs := s.boot.dirs, slots := s.boot.slots, rollTp := s.boot.rollTp, rollBw := s.boot.rollBw, pseq := s.boot.pseq
      porN := s.boot.porN, tgRails := s.boot.tgRails, coldDown := s.boot.coldDown, warmHeld := s.boot.warmHeld
      seq := s.boot.seq, attempts := s.boot.attempts, failStage := s.boot.failStage, tgoscFault := s.boot.tgoscFault }
    dbg := { s'.dbg with lifecycle := s.dbg.lifecycle, policy := s.dbg.policy, nonces := s.dbg.nonces, revoked := s.dbg.revoked }
    tg := { s'.tg with flash := s.tg.flash } }

/-- `BOOT_STAGE` of the reset-cause record (Table 2.5). -/
def stageField (n : Nat) : Nat := n * 65536

/-- The reset in progress began in this `TGOSC` cycle, of 4 PWMCLK ticks (R58). -/
def State.coincides (s : State) : Bool := s.boot.inReset && s.tg.clk / 4 == s.boot.rstAt / 4

/-- `DV.RSTCAUSE` at a reset (R57, R58): rewritten with its cause and the last boot step before it; a cause that coincides with another
is set beside it, with `BOOT_STAGE` as latched. -/
def State.resetCause (s : State) (cause : Nat) : Nat :=
  if s.coincides then s.boot.rstCause ||| cause else cause + stageField s.boot.stage

/-- A debugger may ask for a warm reset: at level 2 (Table 17.8). -/
def State.dbgMayReset (s : State) : Bool := decide (2 ≤ s.dbg.level) || s.dbg.lifecycle == 0x10

/-- The reset-cause record and what R58 needs to judge causes that coincide, at Tollgate time `clk` of the state after the reset. -/
def State.noteReset (s : State) (cause clk : Nat) (b : Boot) : Boot :=
  { b with
    rstCause := s.resetCause cause, rstAt := clk
    rstFw := s.boot.fwReset || (s.coincides && s.boot.rstFw), rstDbg := s.dbgMayReset || (s.coincides && s.boot.rstDbg) }

/-- A cold reset: everything but fuses and flash (Table 2.4). -/
def State.coldReset (s : State) : State :=
  (s.flashKept State.reset).updBoot fun b =>
    { s.noteReset 1 0 b with attempts := 0, failStage := 0, tgoscFault := false, inReset := true }

/-- Commands of lost sessions get no completion. -/
def Tollgate.dropRefs (t : Tollgate) : Tollgate :=
  { t with
    checking := t.checking.map fun q => (q.1, none), confirm := t.confirm.map fun c => { c with ref := none }
    ports := t.ports.map fun x => { x with test := x.test.map fun b => { b with ref := none } } }

/-- A reset of the main domain (Table 2.4): Tollgate, the reset-cause record and retirement stay. The persistent log stays
through a warm reset; its records then read with `PRIOR` (R507). Causes of one `TGOSC` cycle are one reset (R58). -/
def State.mainReset (s : State) (cause : Nat) (warm : Bool) : State :=
  let s' := s.flashKept State.reset
  let s' := { s' with
    tg := s.tg.dropRefs
    faults := { s'.faults with
      plog := if warm then { s.faults.plog with recs := s.faults.plog.recs.map fun r => { r with prior := true } } else {}
      upsets := s.faults.upsets, totalUpsets := s.faults.totalUpsets, enginesRetired := s.faults.enginesRetired
      portsRetired := s.faults.portsRetired, fbRetired := s.faults.fbRetired, migrations := s.faults.migrations
      lastRetire := s.faults.lastRetire }
    xr := { s'.xr with retired := s.xr.retired }
    boot := { s.noteReset cause s.tg.clk s'.boot with
      rstCount := if s.coincides then s.boot.rstCount else s.boot.rstCount + 1
      inReset := true, coldBoot := s.coincides && s.boot.coldBoot
      pll := s.boot.pll, clkFault := s.boot.clkFault, safePath := s.boot.safePath, prior := s.boot.prior
      slot := s.boot.slot } }
  keepRetired s s'

/-- A warm reset, held until its cause ends. -/
def State.warmReset (s : State) (cause : Nat) : State := (s.mainReset cause true).updBoot fun b => { b with warmHeld := true }

/-- `WarmCause` as its bit of `DV.RSTCAUSE`. -/
def warmBit : WarmCause → Nat
  | .clkFault => 8 | .tpWdog => 16 | .fwActivate => 32 | .debugger => 64

def execRstNAssert (s : State) : Out := .next (s.warmReset 4)

/-- An internal cause of a warm reset: firmware activation only when it is due (R130), the debugger only at level 2 (Table
17.8), as they stood before a cause of the same `TGOSC` cycle (R58). -/
def execWarmReset (c : WarmCause) (s : State) : Out :=
  .next
    (match c with
     | .fwActivate => if s.boot.fwReset || (s.coincides && s.boot.rstFw) then s.warmReset (warmBit c) else s
     | .debugger => if s.dbgMayReset || (s.coincides && s.boot.rstDbg) then s.warmReset (warmBit c) else s
     | _ => s.warmReset (warmBit c))

/-- R56: the Turnpike watchdog. -/
def execTpWdog (s : State) : Out := .next (s.warmReset 16)

/-! ### Boot (R59 to R67) -/

/-- The main domain leaves its reset (R48, R54): the torque-off requests of the reset are withdrawn, faulted clocks count as
running again (R49), and the boot goes on from step 4. -/
def State.leaveReset (s : State) : State :=
  let s := s.updBoot fun b => { b with inReset := false, clkFault := 0, safePath := false, stage := 4 }
  allPorts.foldl (fun s p => s.updPort p fun x => { x with offReset := false }) s

/-- The main domain leaves reset when it is powered, the PLL is locked and no cause holds a warm reset. -/
def State.tryLeave (s : State) : State :=
  if s.boot.inReset ∧ s.boot.seq = .up ∧ s.boot.pll = true ∧ s.boot.warmHeld = false then s.leaveReset else s

def execWarmResetRelease (s : State) : Out := .next (s.updBoot fun b => { b with warmHeld := false }).tryLeave

def execPllLock (s : State) : Out := .next (s.updBoot fun b => { b with pll := true }).tryLeave

/-- Turnpike enters recovery mode (R64) and serves the transports itself. -/
def State.enterRecovery (s : State) : State := (s.updBoot fun b => { b with recovery := true }).startQueues.noteDevstat

/-- Byway's image is in Crossroads at its load offset (step 7 of Table 2.9). -/
def State.loadByway (s : State) (load : Nat) (body : List Byte) : State :=
  { s with xr := (s.xr.write load body).clearBad load body.length }

/-- The slot being tried fails (R63): it is marked, and the other one tried when its own mark is clear; otherwise recovery mode. -/
def State.slotFails (s : State) : State :=
  let k := s.boot.slot
  let other : Fin 2 := if k = 0 then 1 else 0
  let s := s.updBoot fun b => b.writeDir fun d => { d with failed := d.failed ||| 2 ^ k.val }
  if bit s.boot.dir.failed other.val then s.enterRecovery
  else s.updBoot fun b => { b with slot := other, onTrial := false, stage := 5 }

/-- An image of the slot being tried has been read and is checked (R61, R63): Turnpike's after step 5, Byway's after step 6. In
lifecycle state `RETURNED` the device boots only into recovery mode (Table 17.7). -/
def State.imageLoaded (s : State) (byway : Bool) (img : List Byte) (f : ImageFacts) : State :=
  if s.boot.inReset ∨ s.boot.recovery = true ∨ s.boot.stage ≠ (if byway then 6 else 5) then s
  else if s.dbg.lifecycle = 0x40 then s.enterRecovery
  else
    let im := s.boot.slotImage s.boot.slot byway img
    if s.imageCheck byway im f ≠ 0 then s.slotFails
    else if byway then
      (s.loadByway (u32 im 16) (imageBody im)).updBoot fun b =>
        { b with secBw := u32 im 8, stage := 7, bwImage := some (u32 im 16, imageBody im) }
    else s.updBoot fun b => { b with secTp := u32 im 8, stage := 6 }

def execBootImageLoaded (byway : Bool) (img : List Byte) (f : ImageFacts) (s : State) : Out :=
  .next ((if s.boot.stage = 4 then s.bootStep else s).imageLoaded byway img f)

/-- Records of a reset that has happened, written at the first boot after it: active, `PRIOR`, without a reaction (R519). -/
def State.writePrior (s : State) : State :=
  let l := s.boot.prior
  let s := s.updBoot fun b => { b with prior := [] }
  l.foldl (fun s q =>
    let r : FaultRec := { code := q.1, cls := 6, scope := .device, unit := 0, time := s.now, detail := q.2, prior := true }
    let e := s.enterActive r
    e.1.logRec e.2) s

/-- HELLO-ready (step 10 of Table 2.9). -/
def State.helloReady (s : State) : State :=
  if s.boot.inReset ∨ s.boot.bywayUp = false then s
  else ((s.updBoot fun b => { b with ready := true, stage := 10 }).writePrior.startQueues).noteDevstat

def execHelloReady (s : State) : Out := .next s.bootStep.bootStep.helloReady

/-! ### Power sequencing (R38 to R43) -/

/-- `POR_N` is high and the Tollgate rails are in their windows: the cold level is over. -/
def Boot.por (b : Boot) : Bool := b.porN && b.tgRails

/-- The sequencer starts with the first stage (R40, step 1 of Table 2.9). -/
def Boot.startSeq (b : Boot) : Boot := { b with seq := .wait 0, pseq := 1, stage := 1, attempts := 0, coldDown := false }

/-- With every output low and the cold level over, the sequencer starts; a power-down in progress ends first (log 89). -/
def Boot.tryStart (b : Boot) : Boot := if b.por && b.seq == .off then b.startSeq else b

/-- What follows a power-down: nothing in the cold level, a start after one, else the retry of R41. -/
def Boot.afterDown (b : Boot) : Boot :=
  if !b.por then { b with seq := .off }
  else if b.coldDown then b.startSeq
  else { b with seq := if 3 ≤ b.attempts then .dead else .retry }

/-- Start a power-down (R42); with every output low already, what follows it. -/
def Boot.powerDown (b : Boot) : Boot :=
  let b := { b with pll := false }
  if b.pseq = 0 then b.afterDown else { b with seq := .down }

/-- A stage fails (R41): the third failure in a row records `MAIN_UV` with the stage. -/
def Boot.stageFail (b : Boot) (n : Nat) : Boot :=
  let b := { b with attempts := b.attempts + 1, failStage := n }
  let b := if 3 ≤ b.attempts then
      { b with rstCause := (b.rstCause ||| 2) % 256 + n * 256 + b.rstCause / 65536 * 65536
               prior := b.prior ++ [(0x0D03, n)] } else b
  b.powerDown

def execPorNRise (s : State) : Out := .next (s.updBoot fun b => { b with porN := true }.tryStart)

def execPorNFall (s : State) : Out :=
  .next (s.coldReset.updBoot fun b => { b with porN := false, coldDown := true }.powerDown)

/-- A rail of the Tollgate domain leaves its window: a cold reset and a power-down (R42, Table 2.4). -/
def execTgRailOutOfWindow (s : State) : Out :=
  .next (s.coldReset.updBoot fun b => { b with tgRails := false, coldDown := true }.powerDown)

/-- The Tollgate rails are back in their windows: the cold level ends unless `POR_N` is low. -/
def execTgRailReturn (s : State) : Out := .next (s.updBoot fun b => { b with tgRails := true }.tryStart)

/-- `PGOODn` rises (R40, R41); whether every rail of the stage is in its window is an operand. -/
def execPgoodRise (n : Fin 4) (railsOk : Bool) (s : State) : Out :=
  .next
    (if s.boot.seq = .wait n then
       s.updBoot fun b => if railsOk then { b with seq := .settle n } else b.stageFail n.val
     else s)

def execStageSettleExpiry (s : State) : Out :=
  .next
    (match s.boot.seq with
     | .settle n =>
       if n.val < 3 then
         s.updBoot fun b =>
           { b with seq := .wait (n + 1), pseq := b.pseq ||| BitVec.ofNat 4 (2 ^ (n.val + 1)) }
       else (s.updBoot fun b => { b with seq := .up, attempts := 0, stage := 3 }).tryLeave
     | _ => s)

def execPgoodTimeout (s : State) : Out :=
  .next (match s.boot.seq with | .wait n => s.updBoot fun b => b.stageFail n.val | _ => s)

def execSeqRetryExpiry (s : State) : Out :=
  .next (if s.boot.seq = .retry then s.updBoot fun b => { b with seq := .wait 0, pseq := 1 } else s)

/-- A main-domain rail or LDO fails (R43, R46): torque-off on every port, a main-power reset and a power-down. The operand is the
stage that `SEQ_STAGE` records; for an LDO the spec names none (DESIGN CHOICE, log 84). -/
def execMainRailFail (stage : Fin 4) (s : State) : Out :=
  .next
    (if s.boot.seq = .up then
       (s.mainReset (2 + 256 * stage.val) false).updBoot fun b =>
         { b with failStage := stage.val, prior := b.prior ++ [(0x0D03, stage.val)] }.powerDown
     else s)

/-- One step of power-down: `PSEQ3`, `PSEQ2`, `PSEQ1`, `PSEQ0` in that order (R42). -/
def execPowerDownStep (s : State) : Out :=
  .next
    (if s.boot.seq = .down then
       s.updBoot fun b =>
         let p : BitVec 4 :=
           if b.pseq.getLsbD 3 then b.pseq &&& 7#4 else if b.pseq.getLsbD 2 then b.pseq &&& 3#4
           else if b.pseq.getLsbD 1 then b.pseq &&& 1#4 else 0
         if p = 0 then { b with pseq := 0 }.afterDown else { b with pseq := p }
     else s)

/-! ### Clock monitors (R49 to R52) -/

/-- A main-domain clock is declared faulted (R51): the safe path acts and the main domain is warm-reset, until the PLL locks again. -/
def State.clockFault (s : State) (n : Nat) : State :=
  let fresh := !s.boot.clkFault.getLsbD n
  let s := s.updBoot fun b =>
    { b with clkFault := b.clkFault ||| BitVec.ofNat 6 (2 ^ n), safePath := true, pll := false
             prior := if fresh then b.prior ++ [(0x0D02, n)] else b.prior }
  s.warmReset 8

/-- `TGOSC` is declared faulted (R52). -/
def State.tgoscFail (s : State) : State :=
  let s := s.updBoot fun b => { b with tgoscFault := true }
  if s.boot.inReset || s.activeFault 0x0D01 .device 0 then s else s.raiseDev 0x0D01 6

/-- Declare a clock of Table 2.3: 0–4 main-domain clocks, 5 `TGOSC`. -/
def State.declareClock (s : State) (n : Fin 6) : State := if n.val = 5 then s.tgoscFail else s.clockFault n.val

def execClockStopDeclared (n : Fin 6) (s : State) : Out := .next (s.declareClock n)

/-- Counts of a 10 µs window at the nominal frequencies (Table 2.2): `REFCLK`, `LECLK`, `FABCLK`, `PWMCLK`, `PERCLK`, `TGOSC`. -/
def clockNominal (n : Fin 6) : Nat := [250, 12000, 6000, 4000, 2000, 1000].getD n.val 0

/-- The count deviates by more than ±6 % (Table 2.3). -/
def clockBad (counts : Vector (BitVec 16) 6) (n : Fin 6) : Bool :=
  let c := (counts[n]).toNat
  let m := clockNominal n
  decide (100 * c < 94 * m) || decide (106 * m < 100 * c)

/-- A count window ends (R49, R50): `TGOSC` found back inside its window is no longer faulted. -/
def execClockCountWindow (counts : Vector (BitVec 16) 6) (s : State) : Out :=
  .next
    (let s := if clockBad counts 5 then s else s.updBoot fun b => { b with tgoscFault := false }
     (List.finRange 6).foldl (fun s n => if clockBad counts n then s.declareClock n else s) s)

def execPllLockLost (s : State) : Out := .next (s.clockFault 5)

/-! ### Byway (R73 to R77) -/

/-- The sessions, unanswered commands and timed commands of Byway are lost (Table 2.10). -/
def State.loseHost (s : State) : State :=
  let s := [Src.pcie 0, .qspi, .leader].foldl (fun s src => s.endSession src false) s
  let s := s.updHost fun h =>
    { h with groups := [], fwdGroups := [], timed := [], qspi := { h.qspi with tx := [] }
             queues := h.queues.map fun k => { k with held := [], cqStall := false } }
  let s := s.updCfg fun c => { c with lepLoad := none, lepVerify := [] }
  let s := s.updNet fun n => { n with fwd := [], frags := [], discover := [], form := [] }
  let s : State := { s with
    tables := { s.tables with loads := s.tables.loads.filter (·.ref.isSome) }
    axes := s.axes.map fun a =>
      { a with enable := a.enable.filter fun e => e.phase == .energising } }
  s

/-- The record of a crash in the persistent log (R74): its cause and the timed commands lost (Table 2.10). -/
def State.logCrash (s : State) (detail : Nat) : State :=
  let r : FaultRec := { code := 0x0C01, cls := 1, scope := .device, unit := 0, time := s.now, detail := detail }
  s.updFaults fun f => { f with plog := f.plog.add 64 r }

/-- 60 s of PWMCLK ticks. -/
def minuteTicks : Nat := 24000000000

/-- A Byway crash (R73, R74, R76): cause 1 watchdog, 2 trap, 3 region violation. The third within 60 s is not restarted. Commands that
wait in the rings unfetched are lost (Table 2.10); no queue runs meanwhile (R552). -/
def State.bywayCrash (s : State) (cause : Nat) : State :=
  if s.boot.bywayUp = false then s
  else
    let recent := s.boot.crashes.filter (fun t => decide (s.ticks < t + minuteTicks))
    let lost := timedUsed s.host
    let s := s.logCrash (cause + 65536 * lost)
    let s := s.updBoot fun b =>
      { b with bywayUp := false, ready := false, crashes := s.ticks :: recent, crash := some (cause, lost) }
    let s := s.updHost fun h => { h with queues := h.queues.map fun k =>
      { k with sqHead := if k.active then k.sqTail else k.sqHead, sq := if k.active then [] else k.sq, active := false } }
    if 2 ≤ recent.length then
      let s := s.loseHost.updBoot fun b => { b with bywayDead := true, recovery := true, crash := none }
      ((s.raiseDev 0x0C02 6).startQueues).noteDevstat
    else s.noteDevstat

def execRouteCoreWdogExpiry (_rc : Fin 4) (s : State) : Out := .next (s.bywayCrash 1)

/-- A route core traps, or violates a region in a way Turnpike classes as fatal (R73). -/
def execRouteCoreTrap (_rc : Fin 4) (region : Bool) (s : State) : Out := .next (s.bywayCrash (if region then 3 else 2))

/-- Byway's code is as its image has it and its data region is zero again (R74; the code that fills it is no part of the model,
log 27). -/
def State.reloadByway (s : State) : State :=
  let s := match s.boot.bwImage with | some q => s.loadByway q.1 q.2 | none => s
  { s with xr := (s.xr.clearRange 0x800000 0x900000).clearBad 0x800000 0x100000 }

/-- Byway is restarted (R74, R75, Table 2.10): its code and data are made good, sessions, the draft, unanswered commands and timed
commands are lost, a trial ends (R71), and the queues run again if the device was HELLO-ready. -/
def execBywayRestart (s : State) : Out :=
  .next
    (match s.boot.crash with
     | none => s
     | some (cause, lost) =>
       let s := s.reloadByway.loseHost.updBoot fun b =>
         { b with bywayUp := true, ready := b.stage == 10, crash := none, onTrial := false, quiet := true
                  report := b.report ++ [cause + 65536 * lost] }
       (if s.boot.ready then s.startQueues else s).noteDevstat)

/-- `FAULT_N` is driven low (R55, R502): from a reset until HELLO-ready, and while a fault of class C4 or above is active. -/
def State.faultN (s : State) : Bool :=
  s.boot.stage != 10 || s.faults.table.any (fun r => decide (4 ≤ r.cls))

/-- `SAFE_N` is driven low (R501). -/
def State.safeN (s : State) : Bool := s.faults.table.any (fun r => decide (6 ≤ r.cls))

end Sys2Proof.Machine
end

