-- ==== Sys2Proof/Machine/Emu.lean ====
section
/-!
DEFINITION. Encoder emulation (R275 to R278). A tap is 78.125 ps; a PWMCLK tick has 32.
-/
namespace Sys2Proof.Machine

/-- Levels of A and B in mode 1 at count `c` (R277). -/
def emuQuad (c : Int) : Bool × Bool :=
  let q := c % 4
  (q == 1 || q == 2, q == 2 || q == 3)

/-- Level of Z at count `c` (R277): only in mode 1, as `DV.EMU_ZPER` and `DV.EMU_ZOFF` stand. -/
def State.emuZ (s : State) (n : Fin 8) (c : Int) : Bool :=
  let zper := s.dv P.dvEmuZper n.val
  s.dv P.dvEmuMode n.val == 1 && zper != 0 && (c - s.dv P.dvEmuZoff n.val) % (zper : Int) == 0

/-- Taps of the edges of one interval (R276): edge j of `n` at round(j U / n), none before `low`, and each at least `gap` after the one
before. Edges beyond the interval do not fit. -/
def emuPlace (n u gap : Nat) : Int → Nat → Nat → List Nat
  | _, 0, _ => []
  | low, fuel + 1, j =>
    let t := max (roundAway ((j * u : Nat) / (n : Rat))) low
    if j ≤ n ∧ t ≤ (u : Int) then t.toNat :: emuPlace n u gap (t + gap) fuel (j + 1) else []

/-- Levels and count after every edge of mode 1. -/
def emuQuadEdges (c dir : Int) : List Nat → List (Nat × Bool × Bool × Int)
  | [] => []
  | t :: ts => (t, (emuQuad (c + dir)).1, (emuQuad (c + dir)).2, c + dir) :: emuQuadEdges (c + dir) dir ts

/-- Edges of mode 2 (R277): a pulse of `w` taps per count. -/
def emuStepEdges (up : Bool) (w : Nat) (c dir : Int) : List Nat → List (Nat × Bool × Bool × Int)
  | [] => []
  | t :: ts => (t, true, up, c + dir) :: (t + w, false, up, c + dir) :: emuStepEdges up w (c + dir) dir ts

/-- The unit moves on by `d` taps: scheduled edges act, and Z follows the count shown. -/
def Emu.advance (x : Emu) (z : Int → Bool) (d : Nat) : Emu :=
  let now := x.at_ + d
  let due := x.edges.filter fun e => decide (e.1 ≤ now)
  let x := match due.getLast? with
    | some (_, a, b, c) => { x with a := a, b := b, shown := c }
    | none => x
  { x with at_ := now, edges := x.edges.filter fun e => decide (now < e.1), z := z x.shown }

/-- Source position of a unit, raw (R275). -/
def State.emuSource (s : State) (n : Fin 8) : Int :=
  let w := s.dv P.dvEmuSrc n.val
  match fin? 512 (w % 512) with
  | some i => if bit w 15 then s.axes[i].prof.cmdPos else s.actPos i
  | none => 0

/-- c_tgt of R275. -/
def State.emuTarget (s : State) (n : Fin 8) (p : Int) : Int :=
  let x := s.emus[n]
  let d := ((p - x.p0) * (s.dv P.dvEmuNum n.val : Int)) / ((s.dv P.dvEmuDen n.val : Int) * 65536)
  if s.dv P.dvEmuDir n.val = 1 then x.c0 - d else x.c0 + d

/-- The earliest taps of an interval for the change of direction of mode 2 and for the first edge (R276, R277): the minimum spacing from
the last edge; `EMUn_B` changes at least `DV.EMU_STEPW` after the last falling edge and `DV.EMU_DIRSET` before the next rising one. -/
def emuFirst (mode w dirset gap : Nat) (turn : Bool) (lastAt : Int) : Int × Int :=
  let turnAt := max 0 (lastAt + 2 * w)
  (turnAt, if mode = 2 ∧ turn = true then max (lastAt + gap) (turnAt + dirset) else lastAt + gap)

/-- One update of a unit (R275 to R278). -/
def State.emuUpdate (s : State) (n : Fin 8) : State :=
  let mode := s.dv P.dvEmuMode n.val
  if mode ≠ 1 ∧ mode ≠ 2 then s
  else
    let u := s.dv P.dvEmuUpd n.val * 64 / 5
    let p := s.emuSource n
    let s := s.updEmu n fun x =>
      let y := x.advance (s.emuZ n) (u - x.at_)
      let y := { y with at_ := 0, edges := y.edges.map fun (e : Nat × Bool × Bool × Int) => (e.1 - u, e.2), lastAt := y.lastAt - (u : Int) }
      if y.reseed then { y with reseed := false, p0 := p, c0 := y.cOut } else y
    let x := s.emus[n]
    let tgt := s.emuTarget n p
    let delta := tgt - x.cOut
    let cnt := delta.natAbs
    let dir : Int := if delta < 0 then -1 else 1
    let w := s.dv P.dvEmuStepw n.val * 32
    let gap := if mode = 1 then 512 else 2 * w
    let dirset := s.dv P.dvEmuDirset n.val * 32
    let turn := (x.dir == 1) != (dir == 1)
    let first := (emuFirst mode w dirset gap turn x.lastAt).2
    let taps := if cnt = 0 then [] else emuPlace cnt u gap first (u / gap + 2) 1
    let left := cnt - taps.length
    if 65536 < left then
      let q := if mode = 1 then emuQuad tgt else (x.a, x.b)
      let s := s.updEmu n fun x =>
        { x with cOut := tgt, backlog := 0, shown := tgt, a := q.1, b := q.2
                 edges := x.edges.map fun (e : Nat × Bool × Bool × Int) => (e.1, e.2.1, e.2.2.1, tgt) }
      s.raiseDev 0x020A 1 n.val
    else
      let setup : List (Nat × Bool × Bool × Int) := match taps with
        | t :: _ => if turn then [(t - dirset, false, dir == 1, x.cOut)] else []
        | [] => []
      let es := if mode = 1 then emuQuadEdges x.cOut dir taps else setup ++ emuStepEdges (dir == 1) w x.cOut dir taps
      let s := s.updEmu n fun x =>
        { x with
          edges := x.edges ++ es
          cOut := x.cOut + dir * (taps.length : Int)
          backlog := (left : Int)
          dir := if taps.isEmpty then x.dir else dir
          lastAt := match taps.getLast? with | some t => (t : Int) | none => x.lastAt }
      if 0 < left ∧ s.mayRaise 0x0209 n.val = true then (s.noteRaise 0x0209 n.val).raiseDev 0x0209 1 n.val else s

def execEmuUpdate (n : Fin 8) (s : State) : Out := s.main (s.emuUpdate n)

end Sys2Proof.Machine
end

