-- ==== Sys2Proof/Machine/EngineTasks.lean ====
section
/-!
DEFINITION. The dispatcher's events: triggers, deadlines, migration and the haul unit (R165 to R169, R146, R173 to R177).
-/
namespace Sys2Proof.Machine

/-- Count a trigger in the engine's overrun counter and raise `LE_TRIGGER_OVERRUN`, at most once per 100 ms (R168, R518). -/
def State.triggerOverrun (s : State) (e : Fin 24) : State :=
  let s := s.updEng e fun x => { x with overruns := x.overruns + 1 }
  if s.mayRaise 0x0B02 e.val then
    (s.noteRaise 0x0B02 e.val).raise { code := 0x0B02, cls := 1, scope := .engine, unit := e.val, detail := e.val }
  else s

/-- A release trigger reaches an engine (R165, R168): a task that may not be released takes none (R144, R501); a retired engine
masks it for its migration (Table 4.10); a halted engine and an unfinished release count it as an overrun (R168, R178). -/
def State.taskTrigger (s : State) (e : Fin 24) (rank : Nat) : State :=
  let x := s.eng[e]
  match x.task? rank with
  | none => s
  | some t =>
    if !s.mayRelease t then s
    else if x.role = .retired then
      (if x.migrateTo.isSome && !x.masked.any (fun w => w.1 == rank) then
         s.updEng e fun x => { x with masked := x.masked ++ [(rank, s.now)] }
       else s)
    else if x.halted || x.open? rank then s.triggerOverrun e
    else s.updEng e fun x => ({ x with waiting := x.waiting ++ [(rank, s.now)] }).schedule

def execTaskTrigger (e : Fin 24) (rank : Fin 32) (s : State) : Out := s.main (s.taskTrigger e rank.val)

/-- A release that does not run, preempted or waiting, reaches its deadline and is abandoned. -/
def State.overrunWaiting (s : State) (e : Fin 24) (rank : Nat) (consequential : Bool) : State :=
  let (s, third) := if consequential then (s, false) else s.upset .engine e.val
  let s := s.raise { code := 0x0B01, cls := 1, scope := .engine, unit := e.val, detail := e.val + 0x400,
                     permanent := third, consequential := consequential }
  if third then s.retireEngine e
  else
    s.updEng e fun x =>
      { x with preempted := x.preempted.filter (fun p => p.1.rank != rank)
               waiting := x.waiting.filter (fun w => w.1 != rank) }

/-- A release of the task reaches its deadline D without `END` (R169): abandoned as a trap of kind 4. Whether a retry pushed it
there (R510) is an operand. -/
def execDeadlineOverrun (e : Fin 24) (rank : Fin 32) (consequential : Bool) (s : State) : Out :=
  s.main
    (let x := s.eng[e]
     if x.role = .retired ∨ x.halted = true then s
     else if (x.run.map (·.rank)) = some rank.val then s.trap e 4 consequential
     else if x.open? rank.val then s.overrunWaiting e rank.val consequential
     else s)

/-! ### Migration (R146, R147, R177) -/

/-- Bytes of an image section. -/
def Program.section_ (p : Program) (off len : Nat) : List Byte := (p.image.drop off).take len

/-- The declaration of task `n` of an image (Table 5.15). -/
def Program.decl (p : Program) (n : Nat) : List Byte := (p.image.drop (u32 p.image 48 + 32 * n)).take 32

/-- Write the sections of a user program's task where the loader placed them: code, CLM X, CLM Y and initial DLM content (Table
5.14). The spec gives no contents of the standard programs: nothing is written for them (log 12). -/
def Engine.loadTask (x : Engine) (ps : List Program) (t : Task) : Engine :=
  match ps.find? (fun p => p.id == t.prog) with
  | none => x
  | some p =>
    let g (o : Nat) : List Byte := p.section_ (u32 p.image o) (u32 p.image (o + 4))
    { x with
      plm := x.plm.writeN (t.pcEntry - u32 (p.decl t.sub) 0) (g 16)
      clmX := x.clmX.writeN t.cxBase (g 24)
      clmY := x.clmY.writeN t.cyBase (g 32)
      dlm := x.dlm.writeN t.dlmBase (g 40) }

/-- Restore a task on a hard shoulder: the committed image overlaid with the last published checkpoint (R177). -/
def Engine.restoreTask (x : Engine) (ps : List Program) (xr : Xr) (t : Task) : Engine :=
  let x := x.loadTask ps t
  if t.stateLen = 0 then x else x.localWrite (t.dlmBase + t.stateOff) (ckptState xr t)

/-- Account of one task for `RETIRE_EVENT` (Table 17.4). -/
def Engine.migrateEntry (x : Engine) (rank : Nat) (t : Task) : List Byte :=
  retireEntry t (b2n (x.noRideAxes.contains t.axis)) (b2n (x.lost.contains rank))
    (b2n (x.queue.any (fun q => q.chan.isNone && q.rank == rank)))

/-- A loop law whose checkpoint of the release before t0 was still queued goes on from the state one release older (R177, R208). -/
def State.restoreLaw (s : State) (q : List Transfer) (t : Task) (rank : Nat) : State :=
  match fin? 512 t.axis with
  | none => s
  | some i =>
    if !(q.any fun x => x.chan.isNone && x.rank == rank) then s
    else if t.kind = 0 then s.updAxis i fun a => { a with cur := { a.curOld with restored := true } }
    else if t.kind = 1 then
      s.updAxis i fun a =>
        let o := a.posOld
        { a with pos := { a.pos with pHat := o.pHat, vHat := o.vHat, aHat := o.aHat, s := o.s, u1 := o.u1, u2 := o.u2
                                     theta := o.theta, x := o.x } }
    else s

/-- The task set of a failed engine runs on its hard shoulder: tasks with their priorities and addresses, triggers rebound, and
those that arrived after t0 released now (Table 4.10). Tasks that a commit has loaded on the failed engine move with them. -/
def State.migrate (s : State) (e h : Fin 24) : State :=
  let x := s.eng[e]
  let entries := x.table.zipIdx.map (fun t => x.migrateEntry t.2 t.1)
  let s := x.table.zipIdx.foldl (fun s t => s.restoreLaw x.queue t.1 t.2) s
  let loaded : List Task := match s.cfg.commit with
    | some k => k.tasks.filter fun t => t.engine == e.val && !t.pinned
    | none => []
  let s := s.updEng h fun (y : Engine) =>
    let y : Engine := { y with
      role := .service, table := x.table.map (fun t => { t with engine := h.val }), waiting := x.masked, run := none
      preempted := [], queue := [] }
    let y := x.table.foldl (fun y t => y.restoreTask s.cfg.programs s.xr t) y
    (loaded.foldl (fun y t => y.loadTask s.cfg.programs t) y).schedule
  let s := s.updEng e fun x => { x with table := [], masked := [], lost := [], queue := [], migrateTo := none }
  let move (l : List Task) : List Task := l.map fun t => if t.engine = e.val then { t with engine := h.val } else t
  let s := s.updCfg fun c =>
    { c with tasks := move c.tasks, commit := c.commit.map fun k => { k with tasks := move k.tasks } }
  let s := (s.updFaults fun f => { f with migrations := f.migrations + 1 }).programRegions
  s.retireEvent .engine e.val h.val x.migrateT0 entries

def execMigrationComplete (e : Fin 24) (s : State) : Out :=
  s.main (match s.eng[e].migrateTo with | some h => s.migrate e h | none => s)

/-! ### Haul unit (R173 to R176) -/

/-- Move the words of a transfer, from word `k` on: a region violation on the Crossroads side stops it at that word (R174); a
word of `coll` meets an engine write in the DLM and is discarded (R152); of the local words read those of `ecc` were corrected, or
could not be (R153). An uncorrectable word stops the transfer (log 99). The result says whether it ran to its end and whether a word
was discarded. -/
def State.haul (s : State) (e : Fin 24) (t : Transfer) (coll : List Nat) (ecc : List (Nat × Bool)) (k : Nat) :
    Nat → State × Bool × Bool
  | 0 => (s, true, false)
  | n + 1 =>
    if t.toXr then
      if ecc.contains (k, true) then (s.trap e 1, false, false)
      else if s.xr.permitted e.val (t.dst + 8 * k) 8 true then
        let s := if ecc.contains (k, false) then s.countEcc e 1 else s
        (s.xrWrite e.val (t.dst + 8 * k) ((s.eng[e]).localRead (t.src + 8 * k) 8)).haul e t coll ecc (k + 1) n
      else (s.xrViolation e.val (t.dst + 8 * k) true, false, false)
    else
      if s.xr.permitted e.val (t.src + 8 * k) 8 false then
        let d := s.xrRead e.val (t.src + 8 * k) 8
        if coll.contains k && decide (t.dst + 8 * k < 0x20000) then
          let r := d.2.haul e t coll ecc (k + 1) n
          (r.1, r.2.1, true)
        else (d.2.updEng e fun x => x.localWrite (t.dst + 8 * k) d.1).haul e t coll ecc (k + 1) n
      else (s.xrViolation e.val (t.src + 8 * k) false, false, false)

/-- `HSTAT` of a channel when its transfer ends: `DONE` set, `BUSY` clear, and the error bits. -/
def hstatEnd (h : Word) (full coll : Bool) : Word :=
  ((h ||| 2#32) ||| (if full then 0#32 else 4#32) ||| (if coll then 0x20#32 else 0#32)) &&& ~~~1#32

/-- The context that holds the channel registers of a rank: the running one, a saved one, or, when the task is in neither, the
registers as they stand on the engine (R155, R167; log 11). -/
def Engine.updHstat (x : Engine) (rank : Nat) (f : EngCtx → EngCtx) : Engine :=
  if x.preempted.any (fun p => p.1.rank == rank) then
    { x with preempted := x.preempted.map (fun p => if p.1.rank = rank then (p.1, f p.2) else p) }
  else { x with ctx := f x.ctx }

/-- A transfer as its turn comes: a checkpoint goes to the slot that is not published (R20, R176). -/
def State.aim (s : State) (e : Fin 24) (q : Transfer) : Transfer :=
  match q.chan, (s.eng[e]).task? q.rank with
  | none, some t => { q with dst := ckptSlot t (ckptSeq s.xr t + 1) }
  | _, _ => q

/-- A checkpoint is published once its sequence word is written (R176). -/
def State.publishCkpt (s : State) (e : Fin 24) (rank : Nat) : State :=
  match (s.eng[e]).task? rank with
  | none => s
  | some t => s.xrWrite e.val t.ckpt (leBytes 4 (ckptSeq s.xr t + 1))

/-- The oldest transfer of an engine finishes, `c` cycles after the engine stood still in `HWAIT` if it does (R173). Words of the
local side that met an engine write, and the ECC errors of those read, are operands (R152, R153). -/
def State.haulComplete (s : State) (e : Fin 24) (coll : List Nat) (ecc : List (Nat × Bool)) (c : Nat) : State :=
  let x := s.eng[e]
  match x.queue with
  | [] => s
  | t :: ts =>
    if x.role = .retired then s
    else
      let r := (s.updEng e fun x => { x with queue := ts }).haul e (s.aim e t) coll ecc 0 t.words
      match t.chan with
      | none => if r.2.1 then r.1.publishCkpt e t.rank else r.1
      | some k =>
        r.1.updEng e fun x =>
          let x := x.updHstat t.rank fun cx =>
            { cx with hstat := upd cx.hstat k fun h => hstatEnd h r.2.1 r.2.2, hset := upd cx.hset k fun h => h ||| hstatEnd 0#32 r.2.1 r.2.2 }
          match x.stall with
          | .haul j => if (x.ctx.hstat[j]).getLsbD 0 then x else
              { ({ x.cycles c with stall := .none } : Engine).advance with stall := .none }.schedule
          | _ => x

def execHaulTransferComplete (e : Fin 24) (coll : List Nat) (ecc : List (Nat × Bool)) (c : BitVec 16) (s : State) : Out :=
  s.main (s.haulComplete e coll ecc c.toNat)

end Sys2Proof.Machine
end

