-- ==== Sys2Proof/Machine/Commit.lean ====
section
/-!
DEFINITION. The phases of a commit: end of analysis and of loading, the go signal, switch-over and the comparison of `DV.CFGGEN`
(R141 to R145, R445, R482, R553).
-/
namespace Sys2Proof.Machine

/-- A commit ends: its completion is sent and the enables it held are taken (R553); a draft whose session has ended closes (R104). -/
def State.endCommit (s : State) (k : Commit) (st : Status) (det : Nat) : State :=
  let live : Bool := match s.cfg.draft with
    | some d => match s.session d.src with | some x => x.sid == d.sid | none => false
    | none => false
  ((s.updCfg fun c => { c with commit := none, draft := if live then c.draft else none }).complete k.ref st det
    (if k.s = 0 then s.now else k.s)).releaseEnables

/-- Note an analysis that refused the draft or only checked it, for `CFG_EXPLAIN`. -/
def Cfg.report (c : Cfg) (pl : Placing) : Cfg :=
  { c with analysed := true, refusals := pl.refusals, lastTasks := pl.tasks, lastRoles := pl.roles }

/-- Admission ends (R134, R141, R142). -/
def execCommitAnalysisComplete (j : JunctionFacts) (s : State) : Out :=
  s.main
    (match s.cfg.commit, s.cfg.draft with
     | some k, some dr =>
       if k.phase ≠ .analysis then s
       else
         let pl := s.analyse (s.draftView dr) k j
         match pl.refusals with
         | r :: _ => (s.updCfg fun c => c.report pl).endCommit k .admitRefused r.reason
         | [] =>
           if k.checkOnly then (s.updCfg fun c => c.report pl).endCommit k .done 0
           else s.updCfg fun c => { c with commit := some { k with
             phase := .loading, tasks := pl.tasks, roles := pl.roles
             images := j.images.map fun x => (x.1.val + 1, x.2.1.toNat, x.2.2.toNat) } }
     | _, _ => s)

/-- A member does not report within 1 s: the analysis lists it; later it refuses the commit (R141, Table 4.7). -/
def execMemberUnreachable (m : Fin 15) (s : State) : Out :=
  s.main
    (match s.cfg.commit with
     | none => s
     | some k =>
       if k.asMember ∨ !s.inCommit.contains m ∨ k.phase = .comparing then s
       else if k.phase = .analysis then
         s.updCfg fun c => { c with commit := some { k with unreached := k.unreached.filter (· != m.val + 1) ++ [m.val + 1] } }
       else
         let e : RefusalEntry := { reason := 0x0032, axis := 0xFFFF, path := m.val + 1 }
         (s.updCfg fun c => c.report { tasks := k.tasks, roles := k.roles, refusals := [e] }).endCommit k .admitRefused 0x0032)

/-- Give the tasks that are not pinned the loader's addresses, in placement order. -/
def placeTasks : List Task → List TaskAddr → List Task
  | [], _ => []
  | t :: ts, ps =>
    if t.pinned then t :: placeTasks ts ps
    else match ps with
      | [] => t :: placeTasks ts []
      | a :: ps =>
        { t with pcEntry := a.entry.toNat, dlmBase := a.dlm.toNat, cxBase := a.cx.toNat, cyBase := a.cy.toNat } :: placeTasks ts ps

/-- Loading leaves the memory of a pinned task as it was (R144). -/
def Engine.keepTask (old x : Engine) (ps : List Program) (t : Task) : Engine :=
  let code := match ps.find? (fun p => p.id == t.prog) with
    | some p => (t.pcEntry - u32 (p.decl t.sub) 0, u32 p.image 20)
    | none => (t.pcEntry, t.plm)
  { x with
    plm := x.plm.writeN code.1 (old.plm.readN code.1 code.2)
    clmX := x.clmX.writeN t.cxBase (old.clmX.readN t.cxBase t.cx)
    clmY := x.clmY.writeN t.cyBase (old.clmY.readN t.cyBase t.cy)
    dlm := x.dlm.writeN t.dlmBase (old.dlm.readN t.dlmBase t.dlm) }

/-- Write the sections of the tasks of a commit that are not pinned into the local memories (R142, R144). -/
def State.loadTasks (s : State) (ts : List Task) : State :=
  allEngines.foldl (fun s e =>
    let here := ts.filter fun t => t.engine == e.val
    s.updEng e fun old =>
      (here.filter (·.pinned)).foldl (fun x t => old.keepTask x s.cfg.programs t)
        ((here.filter (!·.pinned)).foldl (fun x t => x.loadTask s.cfg.programs t) old)) s

/-- The first whole millisecond of line time at least 10 ms away (R142). -/
def switchInstant (t : Nat) : Nat := ceilDiv (t + 10000000) 1000000 * 1000000

/-- Loading finishes on the last device: the tasks' sections are in the local memories, S is fixed, and the leader sends its members
the go signal, at once and so before S − 5 ms. A member reports and waits for that signal (R142, R143). -/
def execCommitLoadingComplete (places : List TaskAddr) (s : State) : Out :=
  s.main
    (match s.cfg.commit with
     | none => s
     | some k =>
       if k.phase ≠ .loading then s
       else
         let ts := placeTasks k.tasks places
         let at_ := switchInstant s.now
         let k := { k with phase := .waiting, tasks := ts, go := !k.asMember, s := if k.asMember then 0 else at_ }
         let s := s.updCfg fun c => { c with commit := some k }
         let s := if k.asMember then s else s.updNet fun n => { n with goSent := n.goSent ++ s.inCommit.map fun m => (m.val + 1, at_) }
         s.loadTasks ts)

/-- A member receives the go signal with S; or its leader ends the commit without one, and the draft stays open (R134). -/
def execGoSignal (go : Option (BitVec 64)) (s : State) : Out :=
  s.main
    (match s.cfg.commit with
     | none => s
     | some k =>
       if !k.asMember ∨ k.phase ≠ .waiting then s
       else match go with
         | some t => s.updCfg fun c => { c with commit := some { k with go := true, s := t.toNat } }
         | none => s.endCommit k .aborted 0x0101)

/-! ### Dispatch tables (R143) -/

/-- Two placements of one task. -/
def Task.same (a b : Task) : Bool := a.axis == b.axis && a.kind == b.kind && a.prog == b.prog && a.sub == b.sub

/-- New rank of a pinned task that had rank `r`; none for a task that is withdrawn or moved. -/
def newRank (old new : List Task) (r : Nat) : Option Nat :=
  match old[r]? with
  | none => none
  | some t => (new.find? fun x => x.pinned && x.same t).map (·.rank)

/-- The task of `old` behind a transfer, and the same task as `new` places it. -/
def Transfer.move (old new : List Task) (q : Transfer) : Option Transfer :=
  match old[q.rank]?, newRank old new q.rank with
  | some t, some r =>
    let dst := match q.chan, new[r]? with | none, some t' => q.dst - t.ckpt + t'.ckpt | _, _ => q.dst
    some { q with rank := r, dst := dst }
  | _, _ => none

def Release.move (old new : List Task) (r : Release) : Option Release := (newRank old new r.rank).map fun n => { r with rank := n }

/-- An engine changes its dispatch table: releases of pinned tasks run on under their new rank; those of tasks that are withdrawn or
moved end. -/
def Engine.switch (x : Engine) (role : EngRole) (new : List Task) : Engine :=
  let old := x.table
  let w (l : List (Nat × Nat)) : List (Nat × Nat) := l.filterMap fun y => (newRank old new y.1).map fun n => (n, y.2)
  let run := x.run.bind (Release.move old new)
  let preempted : List (Release × EngCtx) := x.preempted.filterMap fun y => (Release.move old new y.1).map fun r => (r, y.2)
  let x : Engine := if run.isNone && x.run.isSome then x.abandon else x
  let role : EngRole := if x.role = .retired then .retired else role
  { x with
    role := role, table := new, run := run, preempted := preempted
    waiting := w x.waiting, masked := w x.masked, lost := x.lost.filterMap (newRank old new)
    queue := x.queue.filterMap (Transfer.move old new) }.schedule

/-! ### The pool (R482, Table 15.4) -/

/-- Addresses of items that take units one after another from unit `u` on. -/
def unitBases : Nat → List Nat → List Nat
  | _, [] => []
  | u, n :: ns => (poolBase + 4096 * u) :: unitBases (u + n) ns

/-- Initial contents of a checkpoint area: sequence 0 and the state block as the image gives it (log 35). -/
def ckptInit (ps : List Program) (t : Task) : List Byte :=
  let st := match ps.find? (fun p => p.id == t.prog) with
    | some p => (p.section_ (u32 p.image 40 + t.stateOff) t.stateLen)
    | none => []
  zeros 16 ++ st ++ zeros (ckptArea t - 16 - st.length)

/-- Allocate the pool: checkpoint areas move with their contents, the axis blocks point at their sample histories, and the regions follow
(log 115). -/
def State.allocatePool (s : State) (ts : List Task) : State :=
  let (imgs, cks, hist, rx, cams, wm) := s.poolItems ts
  let ts' := (ts.zip (unitBases imgs.sum cks)).map fun x => { x.1 with ckpt := if x.1.stateLen = 0 then 0 else x.2 }
  let areas := ts.map fun t =>
    match s.cfg.tasks.find? (fun o => t.pinned && o.same t) with
    | some o => s.xr.read o.ckpt (ckptArea t)
    | none => if t.stateLen = 0 then [] else ckptInit s.cfg.programs t
  let hs := (allAxes.filter s.bound).zip (unitBases (imgs.sum + cks.sum) hist)
  let xr := (ts'.zip areas).foldl (fun x y => x.write y.1.ckpt y.2) s.xr
  let xr := hs.foldl (fun x y => x.write (0x00940000 + 0x200 * y.1.val + 0x140) (leBytes 4 y.2)) xr
  let u := imgs.sum + cks.sum + hist.sum
  let qs := ((unitBases u rx).zip rx).zipIdx.filterMap fun x => if x.1.2 = 0 then none else some (x.2, x.1.1, 4096 * x.1.2)
  let w := u + rx.sum
  State.programRegions
    { s with
      xr := { xr with
        poolUsed := 4096 * s.poolDemand ts, images := imgs, hists := hs.map fun y => (y.1.val, y.2), queues := qs
        cams := (poolBase + 4096 * w, 4096 * cams), trace := (poolBase + 4096 * (w + cams), 4096 * wm) }
      cfg := { s.cfg with tasks := ts' } }

/-! ### What a switch-over does to the units -/

/-- The axis's binding or draft parameters, those of its port or of its DC bus change (R144); `s` before, `d` after. -/
def State.reconfigured (s d : State) (ks : List Nat) (i : Fin 512) : Bool :=
  (s.bound i || d.bound i) && (ks.any (fun k => s.keyOf i k || d.keyOf i k) || s.axisBus i != d.axisBus i)

/-- An open enable waits for prerequisites or for a commit. -/
def Axis.enableWaits (a : Axis) : Bool :=
  match a.enable with
  | some e => match e.phase with | .commit | .waiting => true | .energising => false
  | none => false

/-- The feedback units that an axis uses: that of its port, of its Hall companion in mode 2, and of its step source (R257, R339). -/
def State.axisUnits (s : State) (i : Fin 512) : List (Fin 64) :=
  (s.portOf i).toList
    ++ (if (s.portOf i).isSome && s.ax P.axFbmode i == 2 then (fin? 64 (s.ax P.axHallport i)).toList else [])
    ++ (s.stepSource i).toList

/-- A unit starts with a switch-over: its filters, frames, tracking and error counts start anew (R259, R266, R269, R272); the counts
since reset and the position stay. -/
def Feedback.start (ticks : Nat) (f : Feedback) : Feedback :=
  { f with
    live := true, since := ticks, word := none, frames := [], frameOpen := none, refused := 0, frameErr := false, edges := []
    hallEdge := none, errs := 0, quadErr := false, index := false, resLock := false, ampOut := 0, lockCnt := 0, lossCnt := 0, w := 0
    v := 0 }

/-- An axis enters `DISABLED` with the state its new configuration starts with (R144, R340). An enable that waits for this commit or
for prerequisites waits on. -/
def State.resetAxis (s : State) (i : Fin 512) : State :=
  let keep := s.axes[i].enableWaits
  let s := (s.endMotion i .aborted 0x0104).endStop i .aborted 0x0104
  let s : State := if keep then s else s.endEnable i .aborted 0
  let s := s.endDisable i .done 0
  let s := s.updAxis i fun a =>
    { a.clearMotion with
      st := .disabled, energ := .off, dropNow := false, net := {}, home := {}, step := {}, cur := {}
      pos := { spSince := s.now, curSince := s.now } }
  (s.axisUnits i).foldl (fun s p => s.updFb p (Feedback.start s.ticks)) s

/-- Units that no axis uses any more have no feedback in service. -/
def State.unbindFb (s : State) : State :=
  let used := allAxes.flatMap s.axisUnits
  { s with fb := Vector.ofFn fun p => if used.contains p then s.fb[p] else { s.fb[p] with live := false } }

/-- A task of the axis that lies on an engine that has failed and that no hard shoulder replaces (R148). -/
def State.strandedTask (s : State) (i : Fin 512) : Option Task :=
  s.cfg.tasks.find? fun t => t.axis == i.val && (match fin? 24 t.engine with | some e => (s.eng[e]).role == .retired | none => false)

/-- An axis whose tasks a commit had placed on an engine that failed before S is retired (R148; log 98). -/
def State.strand (s : State) (i : Fin 512) : State :=
  match s.strandedTask i with
  | some t => if s.bound i && s.axes[i].st != .retired then (s.raiseAxis i 0x0B04 4 t.engine).enterRetired i else s
  | none => s

/-- `RETIRED` ends when the axis is bound to units in service, or no longer bound (Table 1.9); its prerequisites are judged after it
(R29). -/
def State.revive (s : State) (i : Fin 512) : State :=
  if s.axes[i].st ≠ .retired then s
  else
    let ok := (match s.portOf i with | some p => !s.portRetired p && !s.fbRetired p | none => true) && (s.strandedTask i).isNone
    if ok then s.updAxis i fun a => { a with st := .disabled } else s

/-- What the device sets for each axis: c_rev in modes 3 and 6 and of a stepper without encoder (R257, R325), m of R282, and the
coefficient set. -/
def State.setupAxis (s : State) (i : Fin 512) : State :=
  match s.portOf i with
  | none => s
  | some p =>
    let m := s.ax P.axFbmode i
    let crev : Option Nat :=
      if m = 3 then some (6 * s.ax P.axPolepairs i)
      else if m = 6 then some (65536 * s.ax P.axRespp i)
      else if s.isStep i ∧ m = 0 then some (s.ax P.axStepsrev i * s.ax P.axMicrostep i)
      else none
    let s := match crev with | some c => s.setParam P.axCrev i.val 0 c | none => s
    let r := match s.cfg.tasks.find? fun t => t.axis == i.val && t.kind == 1 with | some t => t.rNs | none => 0
    let tc := s.sampleNs p
    let s := s.updAxis i fun a => { a with pos := { a.pos with m := max 1 ((r : Rat) / tc).ceil.toNat } }
    s.installCoef i

/-- R223: a port with a changed draft parameter turns all switches off, releases its forces and its frozen levels (DEDUCED, log 103),
and waits for a store to its arming word. -/
def State.restartPort (s : State) (p : Fin 64) : State :=
  ((s.releaseForce p).updPort p fun x =>
    { x.allOff s.ticks with
      waiting := true, armed := false, captured := none, inForce := Vector.replicate 16 0, chop1 := {}, chop2 := {}
      fullOn := Vector.replicate 4 0, cbcRun := 0, frozen := none, thaw := false }).portEval p

/-- Buses enter and leave service (Table 7.13); the values that count since reset stay (Table 7.15). -/
def State.switchBus (s : State) (b : Fin 8) : State :=
  let on := s.dv P.dvDcbEn b.val = 1
  match decide on, (s.buses[b]).used with
  | true, false => s.setBus b .charging
  | false, true => (s.updBus b fun x => { chen := x.chen, vmax := x.vmax }).busPrereq b
  | _, _ => s

/-- Emulation units with a changed draft parameter (R275, R277): each starts from its source position and the count that its outputs
have shown; its outputs show that count in mode 1 and are low otherwise. -/
def State.switchEmu (s : State) (n : Fin 8) : State :=
  let mode := s.dv P.dvEmuMode n.val
  let p := s.emuSource n
  let s := s.updEmu n fun x =>
    let q := if mode = 1 then emuQuad x.shown else (false, false)
    { x with
      cOut := x.shown, p0 := p, c0 := x.shown, backlog := 0, dir := 0, edges := [], at_ := 0, reseed := false, lastAt := -1000000000
      a := q.1, b := q.2 }
  s.updEmu n fun x => x.advance (s.emuZ n) 0

/-- Controller of a CAN parameter (Tables 14.16, 14.17). -/
def canKeyOf (k : Nat) : Option Nat :=
  let x := k % 2 ^ 16
  if keyFam k ≠ 3 then none
  else if 0x0240 ≤ x ∧ x < 0x0280 then some ((x - 0x0240) / 16)
  else if 0x02C0 ≤ x ∧ x < 0x02E0 then some ((x - 0x02C0) / 8)
  else none

def emuKeyOf (k : Nat) : Option Nat :=
  let x := k % 2 ^ 16
  if keyFam k = 3 ∧ 0x0700 ≤ x ∧ x < 0x0780 then some ((x - 0x0700) / 16) else none

/-- Axes named, and images published, for the other devices of the junction (R443, R444). -/
def State.setOwned (s : State) (owned : List (Fin 512)) (publish : List (Fin 512 × BitVec 32)) : State :=
  let s := s.updNet fun n =>
    { n with owned := owned.map (·.val), publish := publish.map fun x => (x.1.val, x.2.toNat), split := false }
  allAxes.foldl (fun s i =>
    if owned.contains i then s
    else s.updAxis i fun a => { a with net := { a.net with owned := none, ownEnable := false, ownQuick := false } }) s

/-- Every engine changes its dispatch table at once (R143), and the highest-numbered ones that are not retired and to which the
configuration gives no task become the hard shoulders (R145; log 98). -/
def State.switchEngines (s : State) : State :=
  let sh := s.pickShoulders ((s.cfg.tasks.map (·.engine)).eraseDups) (s.dv P.dvHscount)
  allEngines.foldl (fun s e =>
    s.updEng e fun x =>
      x.switch (if sh.contains e.val then .shoulder else .service) (s.cfg.tasks.filter fun t => t.engine == e.val)) s

/-- Migrations that are under way end before S, which lies at least 10 ms after the last placement (R142, Table 4.10; log 98). -/
def State.endMigrations (s : State) : State :=
  allEngines.foldl (fun s e => match s.eng[e].migrateTo with | some h => s.migrate e h | none => s) s

/-- Everything that changes at S (R143 to R145). -/
def State.switchOver (s : State) (k : Commit) (dr : Draft) (owned : List (Fin 512)) (publish : List (Fin 512 × BitVec 32)) : State :=
  let d := s.draftView dr
  let ks := s.changedKeys d
  let changed := allAxes.filter (s.reconfigured d ks)
  let ports := allPorts.filter fun p => ks.any fun x => keyFam x == 2 && keyInst x == p.val
  let live := dr.values.filter fun kv => keyLive kv.1 && assocGet? s.cfg.params kv.1 != assocGet? d.cfg.params kv.1
  let has (f : Nat → Option Nat) (n : Nat) : Bool := ks.any fun x => f x == some n
  let u := s.updCfg fun c =>
    { c with params := d.cfg.params, late := [], cfggen := (c.cfggen + 1) % 2 ^ 32, committed := true, draft := none }
  let u := u.allocatePool k.tasks
  let u := u.switchEngines
  let u := changed.foldl State.resetAxis u
  let u := (allAxes.foldl State.strand (allAxes.foldl State.revive u)).unbindFb
  let u := (allAxes.filter u.isLocal).foldl State.setupAxis u
  let u := (u.setOwned owned publish).updNet fun n =>
    { n with images := k.images, members := n.members.map fun m => { m with stale := false } }
  let u := ports.foldl State.restartPort u
  let u := allBuses.foldl State.switchBus u
  let u := ((List.finRange 8).filter fun n => has emuKeyOf n.val).foldl State.switchEmu u
  let u := ((List.finRange 4).filter fun c => has canKeyOf c.val).foldl State.canStart u
  let u := if s.dv P.dvWmBufbytes = d.dv P.dvWmBufbytes then u else u.updWm Wm.toIdle
  let u := live.foldl (fun u kv => match keyDef kv.1 with | some (x, i, n) => u.afterLive x.fam i n | none => u) u
  u.prereqAll

/-- The instant S (R143): a member without the go signal keeps its configuration; a leader with members then compares, any other
device is done. -/
def execSwitchOver (owned : List (Fin 512)) (publish : List (Fin 512 × BitVec 32)) (s : State) : Out :=
  s.main
    (match s.cfg.commit, s.cfg.draft with
     | some k₀, some dr =>
       let s := if k₀.phase = .waiting then s.endMigrations else s
       let k := s.cfg.commit.getD k₀
       if k.phase ≠ .waiting then s
       else if !k.go then (s.updCfg fun c => { c with draft := none }).endCommit k .aborted 0x0102
       else
         let u := s.switchOver k dr owned publish
         if k.asMember ∨ s.inCommit.isEmpty then u.endCommit k .done 0
         else u.updCfg fun c => { c with commit := some { k with phase := .comparing } }
     | _, _ => s)

/-- The leader has compared its members' `DV.CFGGEN` (R143, R445): `JUNCTION_SPLIT` on every bound axis names the first that
differs. -/
def execCfggenCompare (differ : BitVec 15) (s : State) : Out :=
  s.main
    (match s.cfg.commit with
     | none => s
     | some k =>
       if k.phase ≠ .comparing then s
       else match s.inCommit.find? fun m => differ.getLsbD m.val with
         | none => s.endCommit k .done 0
         | some m =>
           let s := s.updNet fun n => { n with split := true }
           (s.raiseAxes (allAxes.filter s.bound) 0x0809 3 (m.val + 1)).endCommit k .aborted 0x0102)

end Sys2Proof.Machine
end

