-- ==== Sys2Proof/Machine/Crossroads.lean ====
section
/-!
DEFINITION. Crossroads accesses, scrubbing and bank relocation (R470 to R483).
-/
namespace Sys2Proof.Machine

def State.updXr (s : State) (f : Xr → Xr) : State := { s with xr := f s.xr }

/-- The stored word at a word offset. -/
def Xr.word (x : Xr) (off : Nat) : BitVec 64 := BitVec.ofNat 64 (leNat (x.read (off / 8 * 8) 8))

/-- The word as a master reads it. -/
def State.xrWord (s : State) (off : Nat) : BitVec 64 := BitVec.ofNat 64 (leNat (s.xrBytes (off / 8 * 8) 8))

/-- Bytes that byte enables select, others from the stored word. -/
def mergeWord (old new : BitVec 64) (be : BitVec 8) : BitVec 64 :=
  BitVec.ofNat 64 (leNat ((List.range 8).map fun k =>
    if be.getLsbD k then new.extractLsb' (8 * k) 8 else old.extractLsb' (8 * k) 8))

/-- Bytes two writes have in common, of which one differs (Table 15.2). -/
def clash (b1 : BitVec 8) (d1 : BitVec 64) (b2 : BitVec 8) (d2 : BitVec 64) : Bool :=
  (List.range 8).any fun k => b1.getLsbD k && b2.getLsbD k && d1.extractLsb' (8 * k) 8 != d2.extractLsb' (8 * k) 8

/-- A corrected single-bit error (R476): counted, queued for write-back, reported at most once per 100 ms and bank. -/
def State.corrected (s : State) (off : Nat) : State :=
  let b := xrBank off
  let w := off / 8
  let s := s.updXr fun x =>
    { x with ecc := upd x.ecc ⟨b % 64, Nat.mod_lt _ (by decide)⟩ (satInc 32)
             writeBack := if x.writeBack.contains w then x.writeBack else x.writeBack ++ [w] }
  if s.mayRaise 0x0A01 b then
    (s.noteRaise 0x0A01 b).raise { code := 0x0A01, cls := 0, scope := .bank, unit := b, detail := b }
  else s

/-- Read the word: its value, zero when it is uncorrectable. -/
def State.wordRead (s : State) (off : Nat) (ecc : Ecc) : BitVec 64 × State :=
  if ecc = .double ∨ s.xr.bad.contains (off / 8) = true then (0, s.uncorrectable off)
  else if ecc = .corrected then (s.xrWord off, s.corrected off)
  else (s.xrWord off, s)

/-- Write enabled bytes of a word: a partial write to an uncorrectable word is discarded with its fault (R476). -/
def State.wordWrite (s : State) (off : Nat) (be : BitVec 8) (d : BitVec 64) : State :=
  if s.xr.bad.contains (off / 8) ∧ be ≠ 0xFF#8 then s.uncorrectable off
  else s.updXr fun x => (x.write (off / 8 * 8) (leBytes 8 (mergeWord (x.word off) d be).toNat)).clearBad (off / 8 * 8) (if be = 0xFF#8 then 8 else 0)

/-- One access on port L of a bank (R470): a refused one is a violation (R475), and a failed engine is cut off (Table 4.10). -/
def State.portL (s : State) (e : Fin 24) (wr : Bool) (off : Nat) (be : BitVec 8) (d : BitVec 64) (ecc : Ecc) : State :=
  let a := off / 8 * 8
  if (s.eng[e]).role = .retired then s
  else if !s.xr.permitted e.val a 8 wr then (s.xrViolation e.val a wr).updXr fun x => { x with respL := if wr then x.respL else 0 }
  else if wr then s.wordWrite a be d
  else
    let r := s.wordRead a ecc
    r.2.updXr fun x => { x with respL := r.1 }

def execPortLAccess (e : Fin 24) (wr : Bool) (off : BitVec 32) (be : BitVec 8) (d : BitVec 64) (ecc : Ecc) (s : State) : Out :=
  s.main (s.portL e wr off.toNat be d ecc)

/-- A discarded port-S write (R472): flagged, counted by master, and reported when `DV.CRCOLLEVT` asks for it. -/
def State.collision (s : State) (m : Nat) (off : Nat) : State :=
  let s := (s.strobe 0x0E 0).updXr fun x =>
    { x with collFlag := true, coll := upd x.coll ⟨(m - 32) % 16, Nat.mod_lt _ (by decide)⟩ (satInc 32) }
  if s.dv P.dvCrcollevt = 1 ∧ s.mayRaise 0x0A04 m = true then
    (s.noteRaise 0x0A04 m).raise { code := 0x0A04, cls := 0, scope := .master, unit := m, detail := m }
  else s

/-- One access on port S (R471 to R475). When an engine addresses the same word on port L in the same cycle, that access is given with
it (engine, write, byte enables, data) and both act as Table 15.2 says: a read returns the old word. A route core's write violation is a fatal violation (R475, R73). -/
def State.portS (s : State) (m : Nat) (wr : Bool) (off : Nat) (be : BitVec 8) (d : BitVec 64) (ecc : Ecc)
    (l : Option (Fin 24 × Bool × BitVec 8 × BitVec 64)) : State :=
  let a := off / 8 * 8
  let lOk := match l with | some q => q.2.1 && s.xr.permitted q.1.val a 8 true && (s.eng[q.1]).role != .retired | none => false
  let doL (s : State) : State := match l with | some q => s.portL q.1 q.2.1 a q.2.2.1 q.2.2.2 (if q.2.1 then .ok else ecc) | none => s
  let s := s.updXr fun x => { x with collFlag := false }
  if !s.xr.permitted m a 8 wr then
    let s := (s.xrViolation m a wr).updXr fun x => { x with respS := if wr then x.respS else 0 }
    let s := doL s
    if wr ∧ 32 ≤ m ∧ m ≤ 35 then s.bywayCrash 3 else s
  else if wr then
    let hit := lOk && (match l with | some q => clash q.2.2.1 q.2.2.2 be d | none => false)
    let s := doL s
    if hit then s.collision m a else s.wordWrite a be d
  else
    let r := s.wordRead a ecc
    doL (r.2.updXr fun x => { x with respS := r.1 })

def execPortSAccess (m : Fin 10) (wr : Bool) (off : BitVec 32) (be : BitVec 8) (d : BitVec 64) (ecc : Ecc)
    (l : Option (Fin 24 × Bool × BitVec 8 × BitVec 64)) (s : State) : Out :=
  s.main (s.portS (32 + m.val) wr off.toNat be d ecc l)

/-- The scrubber reads a word (R477): it writes a corrected word back unless a master has written it since, and a word whose bit is
still wrong afterwards is weak. -/
def State.scrub (s : State) (off : Nat) (ecc : Ecc) (rewritten again : Bool) : State :=
  let a := off / 8 * 8
  let w := a / 8
  if xrSize ≤ a then s
  else if ecc = .double ∨ s.xr.bad.contains w = true then s.uncorrectable a
  else
    let queued := s.xr.writeBack.contains w
    let s := if ecc = .corrected then s.corrected a else s
    let s := s.updXr fun x => { x with writeBack := x.writeBack.filter (· != w) }
    if (ecc = .corrected ∨ queued = true) ∧ rewritten = false ∧ again = true ∧ s.xr.weakWords.contains w = false then
      s.updXr fun x =>
        { x with weakWords := w :: x.weakWords, weak := upd x.weak ⟨xrBank a % 64, Nat.mod_lt _ (by decide)⟩ (satInc 16) }
    else s

def execScrubRead (off : BitVec 26) (ecc : Ecc) (rewritten again : Bool) (s : State) : Out :=
  s.main (s.scrub off.toNat ecc rewritten again)

/-- Copy of a bank to its detour words (R479, step 2): words written since the declaration are skipped, words that cannot be
corrected become zero and are listed. Unlisted bytes are zero on both sides. -/
def Xr.copyBank (x : Xr) (r : Relocation) (lost : List Nat) : Xr :=
  let listed := (lost ++ x.bad).filter (fun w => xrBank (8 * w) == r.bank && !r.written.contains w && decide (8 * w < detourBase))
  let src := x.mem.filter (fun c => decide (c.1 < detourBase) && xrBank c.1 == r.bank && !r.written.contains (c.1 / 8)
    && !listed.contains (c.1 / 8))
  { x with
    mem := src.foldl (fun m c => m.write (detourWord r.bank (xrRow c.1) + c.1 % 8) c.2) x.mem
    reloc := some { r with copied := true, listed := listed } }

def execBankRelocationCopyComplete (lost : List Nat) (s : State) : Out :=
  s.main
    (match s.xr.reloc with
     | some r => if r.copied then s else s.updXr fun x => x.copyBank r lost
     | none => s)

/-- Axes that lose a listed word (R480): in the axis block, or in the checkpoint of one of their tasks; and words of Byway. -/
def State.wordAxes (s : State) (ws : List Nat) : List (Fin 512) := (ws.filterMap fun w => s.wordOwner (8 * w)).eraseDups

/-- The bank map switches (R479 step 3, R480). -/
def execBankMapSwitch (s : State) : Out :=
  s.main
    (match s.xr.reloc with
     | none => s
     | some r =>
       if !r.copied then s
       else
         let axes := s.wordAxes r.listed
         let tasks := s.cfg.tasks.filter fun t => axes.any fun i => t.axis == i.val
         let s := s.updXr fun x =>
           { x with retired := fin? 64 r.bank, reloc := none, bad := x.bad.filter (fun w => xrBank (8 * w) != r.bank) }
         let s := axes.foldl (fun s i => s.enterRetired i) s
         let s := s.withdrawTasks fun t => axes.any fun i => t.axis == i.val
         let s := s.raise { code := 0x0A05, cls := 1, scope := .bank, unit := r.bank, detail := r.bank }
         let s := s.retireEvent .bank r.bank 0xFF r.t0 ((tasks.take 32).map fun t => retireEntry t 2 0 0)
         if r.listed.any (fun w => decide (8 * w < 0x900000)) then s.bywayCrash 2 else s)

end Sys2Proof.Machine
end

