-- ==== Sys2Proof/Machine/EngineCtl.lean ====
section
/-!
DEFINITION. Control instructions and long immediates of the loop engines (Tables 5.10, 5.11). A control slot acts at the end of
its word (`State.wordEnd`).
-/
namespace Sys2Proof.Machine

/-- The condition of Table 5.11; none for a reserved code. -/
def EngCtx.cond (c : EngCtx) (cond an : BitVec 4) : Option Bool :=
  let a := (c.getA an).toInt
  let f := c.flags &&& 0xF#32
  match cond.toNat with
  | 0 => some true
  | 1 => some (decide (a = 0))
  | 2 => some (decide (a ≠ 0))
  | 3 => some (decide (a < 0))
  | 4 => some (decide (0 ≤ a))
  | 5 => some (c.flag 0)
  | 6 => some (!c.flag 0)
  | 7 => some (f != 0#32)
  | 8 => some (f == 0#32)
  | _ => none

def Engine.control (x : Engine) (c : Ctl) : Engine := { x with ctl := c }

/-- Target of `BR` and `CALL`: `PC` + 8 × `imm24`, signed. -/
def Engine.target (x : Engine) (imm : BitVec 24) : BitVec 16 := x.ctx.pc + BitVec.ofInt 16 (8 * imm.toInt)

/-- Words of a `LOOP` body: `imm24`[23:16] + 1. -/
def loopBody (imm : BitVec 24) : Nat := imm.toNat / 65536 + 1

def execNop (i : Issue) (s : State) : Out := s.main (s.issue i fun x => x)

def execRpt (i : Issue) (arg : BitVec 8) (s : State) : Out :=
  s.main (s.issue i fun x => x.control (.rpt (arg.toNat + 1)))

/-- `RPT.R`: the count is clamped to the bound of the image's bound table, an operand (R179). -/
def execRptReg (i : Issue) (an : BitVec 4) (bound : BitVec 16) (s : State) : Out :=
  s.main (s.issue i fun x => x.control (.rpt (min (x.ctx.getA an).toNat bound.toNat)))

/-- Number of the channel's words: `HLEN`[12:0]. -/
def hlenWords (h : Word) : Nat := h.toNat % 8192

/-- An error of `HSTART` sets its bit and `DONE` and clears `BUSY` (R174). -/
def Engine.hstartError (x : Engine) (c : Fin 3) (m : Word) : Engine :=
  { x with ctx := { x.ctx with
      hstat := upd x.ctx.hstat c fun h => (h ||| m ||| 2#32) &&& ~~~1#32, hset := upd x.ctx.hset c fun h => h ||| m ||| 2#32 } }

/-- Queue the transfer of a channel (R173, R174); one that finds the queue full does not start (log 101). -/
def Engine.hstart (x : Engine) (c : Fin 3) : Engine :=
  let rel := x.run.getD { rank := 0, trigTime := 0 }
  let budget := (x.runTask.map (·.haul)).getD 0
  let n := hlenWords x.ctx.hlen[c]
  if bit rel.started c.val || (x.ctx.hstat[c]).getLsbD 0 || decide (128 ≤ x.queue.length) then x.hstartError c 0x10#32
  else if budget < rel.haulUsed + n then x.hstartError c 0x08#32
  else
    { x with
      ctx := { x.ctx with hstat := upd x.ctx.hstat c fun h => (h ||| 1#32) &&& ~~~2#32, hset := upd x.ctx.hset c fun _ => 0#32 }
      run := x.run.map fun r => { r with haulUsed := r.haulUsed + n, started := r.started ||| 2 ^ c.val }
      queue := x.queue ++ [{ rank := rel.rank, chan := some c, src := (x.ctx.hsrc[c]).toNat / 8 * 8,
                             dst := (x.ctx.hdst[c]).toNat / 8 * 8, words := n,
                             toXr := (x.ctx.hlen[c]).getLsbD 15 }] }

/-- `HSTART`: channel 3 does not exist, a reserved code. -/
def execHstart (i : Issue) (c : BitVec 2) (s : State) : Out :=
  s.main (s.issue i fun x => match fin? 3 c.toNat with | some c => x.hstart c | none => x.badWord)

def execHwait (i : Issue) (c : BitVec 2) (s : State) : Out :=
  s.main (s.issue i fun x => match fin? 3 c.toNat with | some c => x.control (.haulWait c) | none => x.badWord)

def execSync (i : Issue) (s : State) : Out := s.main (s.issue i fun x => x.control .sync)

def execEndRelease (i : Issue) (s : State) : Out := s.main (s.issue i fun x => x.control .endRel)

def execBr (i : Issue) (cond an : BitVec 4) (imm : BitVec 24) (s : State) : Out :=
  s.main (s.issue i fun x =>
    match x.ctx.cond cond an with
    | some true => x.control (.branch (some (x.target imm)) false false)
    | some false => x.control (.branch none false false)
    | none => x.badWord)

def execCall (i : Issue) (cond an : BitVec 4) (imm : BitVec 24) (s : State) : Out :=
  s.main (s.issue i fun x =>
    match x.ctx.cond cond an with
    | some true => x.control (.branch (some (x.target imm)) true false)
    | some false => x.control (.branch none false false)
    | none => x.badWord)

def execRet (i : Issue) (cond an : BitVec 4) (s : State) : Out :=
  s.main (s.issue i fun x =>
    match x.ctx.cond cond an with
    | some true => x.control (.branch x.ctx.rstack.head? false true)
    | some false => x.control (.branch none false false)
    | none => x.badWord)

def execLoop (i : Issue) (imm : BitVec 24) (s : State) : Out :=
  s.main (s.issue i fun x => x.control (.loop (loopBody imm) (imm.toNat % 65536 + 1)))

/-- `LOOP.R`: the count is clamped to the bound of the image's bound table, an operand (R179). -/
def execLoopReg (i : Issue) (an : BitVec 4) (imm : BitVec 24) (bound : BitVec 16) (s : State) : Out :=
  s.main (s.issue i fun x => x.control (.loop (loopBody imm) (min (x.ctx.getA an).toNat bound.toNat)))

def execLdiA (i : Issue) (d : BitVec 4) (imm : BitVec 32) (s : State) : Out :=
  s.main (s.issue i fun x => x.push 1 (.a d imm))

def execLdiL (i : Issue) (d : BitVec 5) (ln : BitVec 2) (imm : BitVec 32) (s : State) : Out :=
  s.main (s.issue i fun x => x.push 1 (.lane d ln imm))

end Sys2Proof.Machine
end

