-- ==== Sys2Proof/Machine/EngineMem.lean ====
section
/-!
DEFINITION. The M-slot instructions of the loop engines (Table 5.9): loads and stores over the data space of Table 5.2, and
the Crossroads windows (R171, R172).
-/
namespace Sys2Proof.Machine

/-- Queue the update of `a`n that an address mode makes (Table 5.4); the next cycle reads it (log 10). -/
def Engine.postUpdate (x : Engine) (n : BitVec 4) (p : Word) : Engine :=
  if p = x.ctx.getA n then x else x.push 1 (.a n p)

/-- Crossroads offset that a window address names, and whether the window is enabled (R171). -/
def Engine.windowOff (x : Engine) (w : Fin 4) (a : Nat) : Bool × Nat :=
  let b := x.ctx.wbase[w]
  (b.getLsbD 0, b.toNat / 4096 * 4096 + a)

/-- A load of `4 × n` bytes: its words are read at issue and land after 4 cycles; a window load waits for its data; CLM and
unmapped addresses, and windows where the form does not reach them, read zero and set `FLAGS.ADDR` (R151, R160, R172). -/
def State.load (s : State) (e : Fin 24) (addr n : Nat) (win : Bool) (dst : List Word → Write)
    (wdst : Write) : State :=
  match space addr (4 * n), win with
  | .window w a, true =>
    s.updEng e fun x =>
      let o := x.windowOff w a
      { x with wload := some { en := o.1, off := o.2, size := 4 * n, dst := wdst } }
  | .window _ _, false | .none, _ =>
    s.updEng e fun x => (x.push 1 (.flagOr flagAddr)).push 4 (dst (List.replicate n 0#32))
  | sp, _ => let ws := s.dataRead e sp n
             s.updEng e fun x => x.push 4 (dst ws)

/-- A store of words: to the DLM and the control block through the pipeline, to a port slot or a window through their own
buffers (R152, R154, R155, R172); elsewhere it is discarded and sets `FLAGS.ADDR` (R151). A store to a window that is not
enabled is discarded and logged (R171). -/
def State.store (s : State) (e : Fin 24) (addr : Nat) (ws : List Word) (win : Bool) : State :=
  match space addr (4 * ws.length), win with
  | .dlm a, _ => s.updEng e fun x => x.push 1 (.dlm a (wordBytes ws))
  | .ctrl a, _ =>
    s.updEng e fun x => (ws.zipIdx).foldl (fun x w => x.push 2 (.ctrl (a + 4 * w.2) w.1)) x
  | .slot a, _ => s.updEng e fun x => { x with pstores := x.pstores ++ [(a, wordBytes ws)] }
  | .window w a, true =>
    let o := (s.eng[e]).windowOff w a
    if !o.1 then s.xrViolation e.val o.2 true
    else
      s.updEng e fun x =>
        if x.wbuf.length < 4 then { x with wbuf := x.wbuf ++ [(o.2, wordBytes ws)] }
        else { x with wblocked := some (o.2, wordBytes ws) }
  | _, _ => s.updEng e fun x => x.push 1 (.flagOr flagAddr)

/-- An M-slot access: the address of the mode, the access, the pointer update; a reserved mode traps (R156, R178). -/
def State.access (s : State) (i : Issue) (m : MemOp) (size : Nat) (f : State → Nat → State) : State :=
  s.issueS i fun s =>
    match (s.eng[i.e]).ctx.address m m.an m.an size with
    | none => s.updEng i.e Engine.badWord
    | some (addr, p) => (f s addr).updEng i.e fun x => x.postUpdate m.an p

def firstWord (ws : List Word) : Word := ws.headD 0#32

def execLdV (i : Issue) (r : BitVec 5) (m : MemOp) (s : State) : Out :=
  s.main (s.access i m 16 fun s addr => s.load i.e addr 4 true (fun ws => .v r (ofWords ws)) (.v r 0))

def execLdA (i : Issue) (r : BitVec 4) (m : MemOp) (s : State) : Out :=
  s.main (s.access i m 4 fun s addr => s.load i.e addr 1 true (fun ws => .a r (firstWord ws)) (.a r 0))

/-- `LD.L0` to `LD.L3` reach no window (note to Table 5.9), so a window address is treated under R151. -/
def execLdL (i : Issue) (r : BitVec 5) (k : BitVec 2) (m : MemOp) (s : State) : Out :=
  s.main (s.access i m 4 fun s addr => s.load i.e addr 1 false (fun ws => .lane r k (firstWord ws)) (.lane r k 0))

def execStV (i : Issue) (r : BitVec 5) (m : MemOp) (s : State) : Out :=
  s.main (s.access i m 16 fun s addr => s.store i.e addr (lanes ((s.eng[i.e]).ctx.getV r)) true)

def execStA (i : Issue) (r : BitVec 4) (m : MemOp) (s : State) : Out :=
  s.main (s.access i m 4 fun s addr => s.store i.e addr [(s.eng[i.e]).ctx.getA r] true)

def execStL (i : Issue) (r : BitVec 5) (k : BitVec 2) (m : MemOp) (s : State) : Out :=
  s.main (s.access i m 4 fun s addr => s.store i.e addr [lane ((s.eng[i.e]).ctx.getV r) k.toNat] false)

/-- A DLM load of a double form: a pointer outside the DLM is treated under R151. -/
def State.loadDlm (s : State) (e : Fin 24) (addr : Nat) (r : BitVec 5) : State :=
  match space addr 16 with
  | .dlm a => s.load e a 4 false (fun ws => .v r (ofWords ws)) (.v r 0)
  | _ => s.updEng e fun x => (x.push 1 (.flagOr flagAddr)).push 4 (.v r 0)

/-- A DLM store of a double form. -/
def State.storeDlm (s : State) (e : Fin 24) (addr : Nat) (r : BitVec 5) : State :=
  match space addr 16 with
  | .dlm a => s.store e a (lanes ((s.eng[e]).ctx.getV r)) false
  | _ => s.updEng e fun x => x.push 1 (.flagOr flagAddr)

/-- A double form: the mode applies to `a`n and to `a`(n+8), n = 0–7; other codes are reserved. -/
def State.access2 (s : State) (i : Issue) (bad : Bool) (m : MemOp) (f : State → Nat → Nat → State) : State :=
  s.issueS i fun s =>
    let c := (s.eng[i.e]).ctx
    if 8 ≤ m.an.toNat ∨ bad = true then s.updEng i.e Engine.badWord
    else
      match c.address m m.an m.an 16, c.address m (m.an + 8#4) m.an 16 with
      | some (x1, p1), some (x2, p2) =>
        (f s x1 x2).updEng i.e fun x => (x.postUpdate m.an p1).postUpdate (m.an + 8#4) p2
      | _, _ => s.updEng i.e Engine.badWord

/-- `LD.D`: r is even. -/
def execLdD (i : Issue) (r : BitVec 5) (m : MemOp) (s : State) : Out :=
  s.main (s.access2 i (r.getLsbD 0) m fun s x1 x2 => (s.loadDlm i.e x1 r).loadDlm i.e x2 (r + 1#5))

/-- `LS.D`: there is no register `v`32, so r = 31 is reserved (DEDUCED, log 10). -/
def execLsD (i : Issue) (r : BitVec 5) (m : MemOp) (s : State) : Out :=
  s.main (s.access2 i (r == 31#5) m fun s x1 x2 => (s.loadDlm i.e x1 r).storeDlm i.e x2 (r + 1#5))

/-! ### Window buffers -/

/-- A window access has its value: the write that a load makes. -/
def Write.withData (bs : List Byte) : Write → Write
  | .v r _ => .v r (BitVec.ofNat 128 (leNat bs))
  | .a r _ => .a r (leWord bs)
  | w => w

/-- The stalled engine goes on after `c` cycles of standing still (R172). -/
def Engine.resume (x : Engine) (c : Nat) : Engine := { x.cycles c with stall := .none }

/-- Data of a window load returns after `c` cycles (R172): only when every earlier window store has been written. A refused
or disabled access reads zero and is logged (R171). -/
def execWindowLoadReturn (e : Fin 24) (c : Fin 64) (s : State) : Out :=
  s.main
    (let x := s.eng[e]
     match x.wload, x.stall with
     | some l, .load =>
       if !x.wbuf.isEmpty then s
       else
         let r := if l.en then s.xrRead e.val l.off l.size else (zeros l.size, s.xrViolation e.val l.off false)
         (r.2.updEng e fun x => ({ x.resume c.val with wload := none }).push 1 (l.dst.withData r.1)).wordEnd e
     | _, _ => s)

/-- The oldest buffered window store reaches Crossroads, `c` cycles after the engine stood still if it does (R172): a store
that waited enters the buffer and its word ends; an empty buffer ends `SYNC`. -/
def execWindowStoreDrain (e : Fin 24) (c : Fin 64) (s : State) : Out :=
  s.main
    (match s.eng[e].wbuf with
     | [] => s
     | b :: bs =>
       let s := (s.updEng e fun x => { x with wbuf := bs }).xrWrite e.val b.1 b.2
       match s.eng[e].stall, s.eng[e].wblocked with
       | .store, some w =>
         (s.updEng e fun x => { x.resume c.val with wblocked := none, wbuf := x.wbuf ++ [w] }).wordEnd e
       | .sync, _ => if bs.isEmpty then s.updEng e fun x => (x.resume c.val).advance.schedule else s
       | _, _ => s)

end Sys2Proof.Machine
end

