-- ==== Sys2Proof/Machine/EngineSlots.lean ====
section
/-!
DEFINITION. The A-slot instructions of the loop engines (Table 5.7): sources are read at issue, results land after the
latency of the table.
-/
namespace Sys2Proof.Machine

/-! ### Shared forms -/

/-- A result in a vector register after `l` cycles. -/
def Engine.putV (x : Engine) (l : Nat) (fd : BitVec 5) (r : BitVec 128) : Engine := x.push l (.v fd r)

/-- A saturating result: `FLAGS.SAT` sets with it (R149). -/
def Engine.putSat (x : Engine) (l : Nat) (fd : BitVec 5) (r : BitVec 128 × Bool) : Engine :=
  let x := x.push l (.v fd r.1)
  if r.2 then x.push l (.flagOr flagSat) else x

/-- A lane operation on two registers. -/
def Engine.bin (x : Engine) (l : Nat) (f : Word → Word → Word) (fd fa fb : BitVec 5) : Engine :=
  x.putV l fd (mapLanes f (x.ctx.getV fa) (x.ctx.getV fb))

/-- A saturating Q31 lane operation on two registers. -/
def Engine.binSat (x : Engine) (l : Nat) (f : Int → Int → Int) (fd fa fb : BitVec 5) : Engine :=
  x.putSat l fd (satLanes f (x.ctx.getV fa) (x.ctx.getV fb))

/-- A lane operation on one register. -/
def Engine.un (x : Engine) (l : Nat) (f : Word → Word) (fd fa : BitVec 5) : Engine :=
  x.putV l fd (mapLanes (fun a _ => f a) (x.ctx.getV fa) (x.ctx.getV fa))

/-- One lane in all four places. -/
def broadcast (x : BitVec 128) (k : Nat) : BitVec 128 := ofLanes (lane x k) (lane x k) (lane x k) (lane x k)

/-- Accumulator n plus `sg` times the Q62 product of two registers, lane by lane; it wraps at 72 bits (R149). -/
def Engine.macLanes (x : Engine) (n : BitVec 3) (sg : Int) (a b : BitVec 128) : Vector (BitVec 72) 4 :=
  Vector.ofFn fun k =>
    BitVec.ofInt 72 ((x.ctx.getAcc n k).toInt + sg * ((lane a k.val).toInt * (lane b k.val).toInt))

/-- A new accumulator value: the next MAC-family instruction reads it, `ACCRD` one cycle later (Table 5.7). -/
def Engine.putAcc (x : Engine) (n : BitVec 3) (v : Vector (BitVec 72) 4) : Engine :=
  (x.push 1 (.acc n v)).push 2 (.accRd n v)

def Engine.mac (x : Engine) (n : BitVec 3) (sg : Int) (a b : BitVec 128) : Engine := x.putAcc n (x.macLanes n sg a b)

/-- `fd` + a × b, fused, in FP32. -/
def Engine.fmaTo (x : Engine) (fd : BitVec 5) (a b : BitVec 128) : Engine :=
  let d := x.ctx.getV fd
  x.putV 4 fd (ofLanes (fma (lane d 0) (lane a 0) (lane b 0)) (fma (lane d 1) (lane a 1) (lane b 1))
    (fma (lane d 2) (lane a 2) (lane b 2)) (fma (lane d 3) (lane a 3) (lane b 3)))

/-- Start of the CLM half of a stream, CX or CY (Table 5.2). -/
def streamBase (y : Bool) : Nat := if y then 0x28000 else 0x20000

/-- A stream read (R158): the 128-bit word of the CLM half at the stream pointer, and the pointer 16 bytes on. A pointer
outside its half reads a free value (log 6). -/
def State.stream (s : State) (e : Fin 24) (y : Bool) : BitVec 128 × State :=
  let x := s.eng[e]
  let p := x.ctx.getA (if y then 15 else 14)
  let a := p.toNat / 16 * 16
  let b := streamBase y
  let s' := s.updEng e fun x => x.push 1 (.a (if y then 15 else 14) (p + 16#32))
  if b ≤ a ∧ a < b + 0x8000 then
    (BitVec.ofNat 128 (leNat ((if y then x.clmY else x.clmX).readN (a - b) 16)), s')
  else
    let d := s'.draw
    (BitVec.ofNat 128 d.1, d.2)

/-- The permutation of a lane code (Table 5.8). -/
def permute (x : BitVec 128) : Nat → Option (BitVec 128)
  | 0 => some (ofLanes (lane x 1) (lane x 0) (lane x 3) (lane x 2))
  | 1 => some (ofLanes (lane x 2) (lane x 3) (lane x 0) (lane x 1))
  | 2 => some (ofLanes (lane x 3) (lane x 2) (lane x 1) (lane x 0))
  | 3 => some (ofLanes (lane x 0) (lane x 0) (lane x 2) (lane x 2))
  | 4 => some (ofLanes (lane x 1) (lane x 1) (lane x 3) (lane x 3))
  | _ => none

/-- FP32 to Q31 on four lanes. -/
def fcvtFQLanes (x : BitVec 128) (fx : Nat) : BitVec 128 × Bool :=
  let g (k : Nat) := fcvtFQ (lane x k) fx
  (ofLanes (g 0).1 (g 1).1 (g 2).1 (g 3).1, (g 0).2 || (g 1).2 || (g 2).2 || (g 3).2)

/-! ### Q31 and bitwise -/

def execVadd (i : Issue) (fd fa fb : BitVec 5) (s : State) : Out :=
  s.main (s.issue i fun x => x.binSat 1 (· + ·) fd fa fb)

def execVsub (i : Issue) (fd fa fb : BitVec 5) (s : State) : Out :=
  s.main (s.issue i fun x => x.binSat 1 (· - ·) fd fa fb)

def execVmul (i : Issue) (fd fa fb : BitVec 5) (s : State) : Out :=
  s.main (s.issue i fun x => x.binSat 2 mulQ31 fd fa fb)

def execVneg (i : Issue) (fd fa : BitVec 5) (s : State) : Out :=
  s.main (s.issue i fun x => x.binSat 1 (fun a _ => -a) fd fa fa)

def execVabs (i : Issue) (fd fa : BitVec 5) (s : State) : Out :=
  s.main (s.issue i fun x => x.binSat 1 (fun a _ => if a < 0 then -a else a) fd fa fa)

def execVmin (i : Issue) (fd fa fb : BitVec 5) (s : State) : Out :=
  s.main (s.issue i fun x => x.bin 1 (fun a b => if b.toInt < a.toInt then b else a) fd fa fb)

def execVmax (i : Issue) (fd fa fb : BitVec 5) (s : State) : Out :=
  s.main (s.issue i fun x => x.bin 1 (fun a b => if a.toInt < b.toInt then b else a) fd fa fb)

/-- `VSHL` saturates (R149). -/
def execVshl (i : Issue) (fd fa fx : BitVec 5) (s : State) : Out :=
  s.main (s.issue i fun x => x.binSat 1 (fun a _ => a * 2 ^ fx.toNat) fd fa fa)

def execVshr (i : Issue) (fd fa fx : BitVec 5) (s : State) : Out :=
  s.main (s.issue i fun x => x.un 1 (fun a => a.sshiftRight fx.toNat) fd fa)

def execVand (i : Issue) (fd fa fb : BitVec 5) (s : State) : Out :=
  s.main (s.issue i fun x => x.bin 1 (· &&& ·) fd fa fb)

def execVor (i : Issue) (fd fa fb : BitVec 5) (s : State) : Out :=
  s.main (s.issue i fun x => x.bin 1 (· ||| ·) fd fa fb)

def execVxor (i : Issue) (fd fa fb : BitVec 5) (s : State) : Out :=
  s.main (s.issue i fun x => x.bin 1 (· ^^^ ·) fd fa fb)

/-- `VCMP`: code 3 is reserved and traps at run time (R178). -/
def execVcmp (i : Issue) (fa fb : BitVec 5) (cc : BitVec 2) (s : State) : Out :=
  s.main (s.issue i fun x =>
    if cc = 3#2 then x.badWord
    else
      let a := x.ctx.getV fa
      let b := x.ctx.getV fb
      x.push 1 (.flagF (laneFlags fun k => cmpInt cc.toNat (lane a k).toInt (lane b k).toInt)))

def execVsel (i : Issue) (fd fa fb : BitVec 5) (s : State) : Out :=
  s.main (s.issue i fun x =>
    let a := x.ctx.getV fa
    let b := x.ctx.getV fb
    let g (k : Nat) : Word := if x.ctx.flag k then lane a k else lane b k
    x.putV 1 fd (ofLanes (g 0) (g 1) (g 2) (g 3)))

def execVsincos (i : Issue) (fd fa : BitVec 5) (s : State) : Out :=
  s.main (s.issue i fun x => x.putSat 6 fd (vsincos (lane (x.ctx.getV fa) 0)))

/-! ### Accumulators -/

def execMac (i : Issue) (n : BitVec 3) (fa fb : BitVec 5) (s : State) : Out :=
  s.main (s.issue i fun x => x.mac n 1 (x.ctx.getV fa) (x.ctx.getV fb))

def execMacb (i : Issue) (n : BitVec 3) (fa fb : BitVec 5) (ln : BitVec 2) (s : State) : Out :=
  s.main (s.issue i fun x => x.mac n 1 (x.ctx.getV fa) (broadcast (x.ctx.getV fb) ln.toNat))

def execMacx (i : Issue) (n : BitVec 3) (fb : BitVec 5) (ln : BitVec 2) (s : State) : Out :=
  s.main (s.issueS i fun s =>
    let c := s.stream i.e false
    c.2.updEng i.e fun x => x.mac n 1 c.1 (broadcast (x.ctx.getV fb) ln.toNat))

def execMacy (i : Issue) (n : BitVec 3) (fb : BitVec 5) (ln : BitVec 2) (s : State) : Out :=
  s.main (s.issueS i fun s =>
    let c := s.stream i.e true
    c.2.updEng i.e fun x => x.mac n 1 c.1 (broadcast (x.ctx.getV fb) ln.toNat))

def execMsub (i : Issue) (n : BitVec 3) (fa fb : BitVec 5) (s : State) : Out :=
  s.main (s.issue i fun x => x.mac n (-1) (x.ctx.getV fa) (x.ctx.getV fb))

def execAclr (i : Issue) (n : BitVec 3) (s : State) : Out :=
  s.main (s.issue i fun x => x.putAcc n (Vector.replicate 4 0))

def execAccrd (i : Issue) (fd : BitVec 5) (n sh : BitVec 3) (s : State) : Out :=
  s.main (s.issue i fun x =>
    let g (k : Fin 4) := satQ31 (accRound (x.ctx.getAccRd n k) sh.toNat)
    x.putSat 2 fd (ofLanes (g 0).1 (g 1).1 (g 2).1 (g 3).1, (g 0).2 || (g 1).2 || (g 2).2 || (g 3).2))

/-! ### FP32 -/

def execFadd (i : Issue) (fd fa fb : BitVec 5) (s : State) : Out := s.main (s.issue i fun x => x.bin 4 fadd fd fa fb)

def execFsub (i : Issue) (fd fa fb : BitVec 5) (s : State) : Out := s.main (s.issue i fun x => x.bin 4 fsub fd fa fb)

def execFmul (i : Issue) (fd fa fb : BitVec 5) (s : State) : Out := s.main (s.issue i fun x => x.bin 4 fmul fd fa fb)

def execFma (i : Issue) (fd fa fb : BitVec 5) (s : State) : Out :=
  s.main (s.issue i fun x => x.fmaTo fd (x.ctx.getV fa) (x.ctx.getV fb))

def execFmacx (i : Issue) (fd fb : BitVec 5) (ln : BitVec 2) (s : State) : Out :=
  s.main (s.issueS i fun s =>
    let c := s.stream i.e false
    c.2.updEng i.e fun x => x.fmaTo fd c.1 (broadcast (x.ctx.getV fb) ln.toNat))

def execFmacy (i : Issue) (fd fb : BitVec 5) (ln : BitVec 2) (s : State) : Out :=
  s.main (s.issueS i fun s =>
    let c := s.stream i.e true
    c.2.updEng i.e fun x => x.fmaTo fd c.1 (broadcast (x.ctx.getV fb) ln.toNat))

def execFmin (i : Issue) (fd fa fb : BitVec 5) (s : State) : Out := s.main (s.issue i fun x => x.bin 4 fmin fd fa fb)

def execFmax (i : Issue) (fd fa fb : BitVec 5) (s : State) : Out := s.main (s.issue i fun x => x.bin 4 fmax fd fa fb)

def execFabs (i : Issue) (fd fa : BitVec 5) (s : State) : Out := s.main (s.issue i fun x => x.un 1 fabs fd fa)

def execFneg (i : Issue) (fd fa : BitVec 5) (s : State) : Out := s.main (s.issue i fun x => x.un 1 fneg fd fa)

/-- `FCMP`: as `VCMP`, in FP32. -/
def execFcmp (i : Issue) (fa fb : BitVec 5) (cc : BitVec 2) (s : State) : Out :=
  s.main (s.issue i fun x =>
    if cc = 3#2 then x.badWord
    else
      let a := x.ctx.getV fa
      let b := x.ctx.getV fb
      x.push 1 (.flagF (laneFlags fun k => fcmp cc.toNat (lane a k) (lane b k))))

def execFcvtQf (i : Issue) (fd fa fx : BitVec 5) (s : State) : Out :=
  s.main (s.issue i fun x => x.un 2 (fun a => fcvtQF a fx.toNat) fd fa)

def execFcvtFq (i : Issue) (fd fa fx : BitVec 5) (s : State) : Out :=
  s.main (s.issue i fun x => x.putSat 2 fd (fcvtFQLanes (x.ctx.getV fa) fx.toNat))

def execFrcp (i : Issue) (fd fa : BitVec 5) (s : State) : Out := s.main (s.issue i fun x => x.un 6 frcp fd fa)

def execFrsq (i : Issue) (fd fa : BitVec 5) (s : State) : Out := s.main (s.issue i fun x => x.un 6 frsq fd fa)

/-- `PAIR`: a Q31 multiply-accumulate from CX and an FP32 fused multiply-add from CY in one issue. -/
def execPair (i : Issue) (n : BitVec 3) (fd fa fb : BitVec 5) (ln : BitVec 2) (s : State) : Out :=
  s.main (s.issueS i fun s =>
    let cx := s.stream i.e false
    let cy := cx.2.stream i.e true
    cy.2.updEng i.e fun x =>
      (x.mac n 1 cx.1 (broadcast (x.ctx.getV fb) ln.toNat)).fmaTo fd cy.1 (broadcast (x.ctx.getV fa) ln.toNat))

/-! ### Moves -/

def execVmov (i : Issue) (fd fa : BitVec 5) (s : State) : Out :=
  s.main (s.issue i fun x => x.putV 1 fd (x.ctx.getV fa))

def execVbcast (i : Issue) (fd fa : BitVec 5) (ln : BitVec 2) (s : State) : Out :=
  s.main (s.issue i fun x => x.putV 1 fd (broadcast (x.ctx.getV fa) ln.toNat))

/-- `VPERM`: lane codes 5 to 31 are reserved (Table 5.8) and trap at run time. -/
def execVperm (i : Issue) (fd fa fx : BitVec 5) (s : State) : Out :=
  s.main (s.issue i fun x =>
    match permute (x.ctx.getV fa) fx.toNat with
    | some r => x.putV 1 fd r
    | none => x.badWord)

def execAmov (i : Issue) (ad : BitVec 4) (fa : BitVec 5) (ln : BitVec 2) (s : State) : Out :=
  s.main (s.issue i fun x => x.push 1 (.a ad (lane (x.ctx.getV fa) ln.toNat)))

def execVlane (i : Issue) (fd : BitVec 5) (ln : BitVec 2) (aa : BitVec 4) (s : State) : Out :=
  s.main (s.issue i fun x => x.push 1 (.lane fd ln (x.ctx.getA aa)))

def execAaddi (i : Issue) (ad aa : BitVec 4) (imm : BitVec 10) (s : State) : Out :=
  s.main (s.issue i fun x => x.push 1 (.a ad (x.ctx.getA aa + imm.signExtend 32)))

end Sys2Proof.Machine
end

