-- ==== Sys2Proof/Machine/Net.lean ====
section
/-!
DEFINITION. Events of the Ethernet ports (R430 to R433), Jalut rings (R434 to R437), discovery and forming of junctions (R438, R439).
-/
namespace Sys2Proof.Machine

/-! ### Ports -/

/-- A link change found by the poll (R430); Byway polls. Verification of preemption starts again with the link (R432). -/
def execMdioLinkPoll (e : Fin 4) (up : Bool) (s : State) : Out :=
  s.main
    (if s.ethMode e = 0 ∨ s.boot.bywayUp = false ∨ (s.net.ports[e]).link = up then s
     else
       let s := s.updEth e fun x =>
         { x with link := up, change := s.now
                  preempt := if up && s.dv P.dvEthPreempt e.val != 0 then .verifying else .off }
       if up then s else s.raiseEth e 0x0804)

/-- The 802.3br verify exchange ends (R432). -/
def execPreemptionVerify (e : Fin 4) (ok : Bool) (s : State) : Out :=
  s.main
    (if (s.net.ports[e]).link && s.dv P.dvEthPreempt e.val != 0 then
       s.updEth e fun x => { x with preempt := if ok then .active else .failed }
     else s)

/-- A frame arrives, of at most 9,018 bytes (R430). On a ring pair (R433) a tagged frame whose source and sequence number lie in the
window of 256 is a duplicate; any other goes on to the other port unless this device is its only destination, but a frame of the
device's own goes no second time. -/
def execFrameReceived (e : Fin 4) (src : BitVec 48) (seq len : BitVec 16) (tagged fcsOk toUs : Bool) (s : State) : Out :=
  s.main
    (if s.ethMode e = 0 ∨ 9018 < len.toNat then s
     else
       let s := s.updEth e fun x => { x with rx := satInc 32 x.rx }
       if !fcsOk then s.updEth e fun x => { x with fcs := satInc 32 x.fcs }
       else if !tagged || s.ethUse e = 0 || src.toNat == macOf e || src.toNat == macOf (otherEth e) then s
       else
         let k := (e.val / 2, src.toNat)
         let win := ((s.net.hsr.find? (fun h => h.1 == k)).map (·.2)).getD []
         if win.contains seq.toNat then s.updEth e fun x => { x with dup := satInc 32 x.dup }
         else
           let s := s.updNet fun n => { n with hsr := (k, (seq.toNat :: win).take 256) :: n.hsr.filter (fun h => h.1 != k) }
           if toUs then s else s.updEth (otherEth e) fun x => { x with tx := satInc 32 x.tx })

/-! ### A Jalut cycle -/

/-- Axes over Jalut that a member serves, in the order of their numbers. -/
def State.servedBy (s : State) (m : Nat) : List (Fin 512) := allAxes.filter fun i => s.overJalut i && s.netMember i == m

/-- The images this device publishes, then those it relays from the sources that `p` takes (R444). -/
def State.imagesFrom (s : State) (p : Nat → Bool) : List MImg :=
  (s.net.publish.filterMap fun q => (fin? 512 q.1).map fun i => s.image i q.2)
    ++ (s.net.relay.filter fun x => p x.1).map (·.2)

/-- Data of a member's downstream section (Table 13.8): its setpoints for `teff`, then the images, but for those that came from it. -/
def State.downData (s : State) (m : Nat) (teff : Nat) : List Byte :=
  ((s.servedBy m).flatMap fun i => NetSp.bytes (s.netSetpoint i teff)) ++ (s.imagesFrom (· != m)).flatMap MImg.bytes

/-- A section (Table 13.8). -/
def jalutSection (v m : Nat) (up written : Bool) (data : List Byte) : List Byte :=
  let b := leBytes 1 m ++ leBytes 1 (ofBools [up, written]) ++ leBytes 2 data.length ++ data
  if v = 2 then b ++ leBytes 4 (crc32c b).toNat else b

/-- The header of a cyclic frame (Table 13.7) of cycle `n` that starts at `start`, with `len` bytes of sections. -/
def jalutHeader (v verMax n start len : Nat) (q : Fin 2) : List Byte :=
  let size := if v = 2 then 32 else 16
  let b := leBytes 1 v ++ leBytes 1 1 ++ leBytes 2 (size + len) ++ leBytes 4 n ++ leBytes 2 q.val ++ leBytes 2 verMax ++ zeros 4
  if v = 2 then
    (let h := b ++ leBytes 8 start ++ leBytes 4 0
     h ++ leBytes 4 (crc32c h).toNat)
  else b

/-- Bytes of data in a member's upstream section: its reports and the images fixed at commit (R435). -/
def State.upLen (s : State) (m : Nat) : Nat :=
  32 * (s.servedBy m).length + 40 * ((s.net.images.find? fun x => x.1 == m).map (·.2.2)).getD 0

/-- The cyclic frame of a cycle as the leader sends it: each member's downstream section, and its upstream one to be filled. -/
def State.cyclicFrame (s : State) (q : Fin 2) (teff : Nat) : List Byte :=
  let own := topVersion s.jalutMask
  let v := if s.net.version[q] = 0 then own else s.net.version[q]
  let body := (allMembers.filter fun m => (s.net.members[m]).st != .absent).flatMap fun m =>
    let full : Bool := (s.net.members[m]).st == MemberState.member
    jalutSection v (m.val + 1) false true (if full then s.downData (m.val + 1) teff else [])
      ++ jalutSection v (m.val + 1) true false (if full then zeros (s.upLen (m.val + 1)) else [])
  jalutHeader v own s.net.cycle (teff - s.tj) body.length q ++ body

/-- The leader composes the cyclic frame of cycle n at S_n (R435): full sections in `MEMBER`, empty ones while joining or lost. -/
def State.leadCycle (s : State) (teff : Nat) : State :=
  match s.pairOf 2 with
  | none => s
  | some q =>
    let s := s.updNet fun n => { n with frame := s.cyclicFrame q teff }
    let s := allMembers.foldl (fun s m =>
      let x := s.net.members[m]
      let full : Bool := x.st == MemberState.member
      let s := s.updMember m fun x => { x with got := false, down := if full then s.downData (m.val + 1) teff else [] }
      if full then (s.servedBy (m.val + 1)).foldl (fun s i => s.netSent i teff) s else s) s
    (pairPorts q).foldl (fun s e => s.updEth e fun x => { x with tx := satInc 32 x.tx }) s

/-- A member latches the data of its upstream section at S_n (R435): its reports, its images and those from below. -/
def State.latchUp (s : State) : State :=
  let reps := s.net.owned.filterMap fun j => (fin? 512 j).map fun i => s.ownReport i
  s.updNet fun n =>
    { n with up := reps.flatMap NetRep.bytes ++ (s.imagesFrom (· != 0)).flatMap MImg.bytes, written := false }

/-- S_n (R434). Trigger 3 is the `TASK_TRIGGER` of each task that has it. -/
def State.cycleStart (s : State) : State :=
  let t := s.tj
  let n := s.now / t
  let s := s.updNet fun x => { x with cycle := n % 2 ^ 32 }
  let s := s.leadCycle ((n + 1) * t)
  (if s.net.index = 0 then s else s.latchUp).updNet fun x => { x with relay := [] }

def execJalutCycleStart (s : State) : Out := s.main (s.cycleStart.strobe 8 0)

/-- The session of the leader at this member (R440): opened with the first frame that carries its section. -/
def State.leaderSession (s : State) : State :=
  if s.host.leader.isSome then s else s.openSession .leader 3 false 31 0 0 0

/-- The leader's cyclic frame passes this member (R435). Operands: this member's index, the direction, the frame's Jalut version (the
ring's, R442) less 1, cycle number, T_J as the frames show it, whether the frame check sequence is correct, whether the section carries
data, and the records of its downstream section. -/
def State.framePass (s : State) (m : Fin 15) (d ver : Fin 2) (n tj : Nat) (fcsOk full : Bool) (sps : List NetSp)
    (imgs : List MImg) : State :=
  match s.pairOf 1 with
  | none => s
  | some q =>
    let e := pairPort q d
    let s := s.updEth e fun x => { x with rx := satInc 32 x.rx, got := true }
    let s := s.updEth (otherEth e) fun x => { x with tx := satInc 32 x.tx, inverted := !fcsOk }
    if !fcsOk then s.updEth e fun x => { x with fcs := satInc 32 x.fcs }
    else
      if s.net.got then s
      else
        let s := s.leaderSession.updNet fun x =>
          { x with index := m.val + 1, got := true, missed := 0, cycle := n, tj := tj, written := true
                   version := upd x.version q fun _ => ver.val + 1 }
        if full then imgs.foldl (fun s x => s.takeImage 0 x) (sps.foldl State.ownSetpoint s) else s

def execJalutFramePass (m : Fin 15) (d ver : Fin 2) (n tj : BitVec 32) (fcsOk full : Bool) (sps : List NetSp) (imgs : List MImg)
    (s : State) : Out :=
  s.main (s.framePass m d ver n.toNat tj.toNat fcsOk full sps imgs)

/-- An upstream section reaches the leader (R437): the first valid copy is taken; one that comes after S_n + W_c is an overrun. -/
def State.upArrival (s : State) (m : Fin 15) (d : Fin 2) (valid : Bool) (reps : List NetRep) (imgs : List MImg) : State :=
  match s.pairOf 2 with
  | none => s
  | some q =>
    let e := pairPort q d
    let s := s.updEth e fun x => { x with rx := satInc 32 x.rx, got := true }
    if !valid then s.updEth e fun x => { x with fcs := satInc 32 x.fcs }
    else if s.jalutWindow < ((s.now % s.tj : Nat) : Rat) then s.updEth e fun x => { x with overrun := satInc 32 x.overrun }
    else if (s.net.members[m]).got ∨ (s.net.members[m]).st = .absent then s
    else
      let s := s.updMember m fun x => { x with got := true }
      if (s.net.members[m]).st ≠ .member then s
      else
        let s := reps.foldl (fun s r =>
          (s.servedBy (m.val + 1)).foldl (fun s i => if s.netRemote i = r.axis.toNat then s.netReport i r else s) s) s
        imgs.foldl (fun s x => s.takeImage (m.val + 1) x) s

def execJalutUpstreamArrival (m : Fin 15) (d : Fin 2) (valid : Bool) (reps : List NetRep) (imgs : List MImg) (s : State) : Out :=
  s.main (s.upArrival m d valid reps imgs)

/-- `JALUT_FRAME_LOST` at most once per 100 ms (R437). -/
def State.frameLost (s : State) (q : Fin 2) : State :=
  let s := (pairPorts q).foldl (fun s e => s.updEth e fun x => { x with lost := satInc 32 x.lost }) s
  if s.mayRaise 0x0806 q.val then (s.noteRaise 0x0806 q.val).raiseDev 0x0806 1 q.val else s

/-- The cycle of one member ends at the leader (Table 13.12). `locked`: its servo is `LOCKED`; `same`: its `DV.CFGGEN` equals this
device's. -/
def State.memberCycle (s : State) (m : Fin 15) (locked same : Bool) : State :=
  let x := s.net.members[m]
  let ok := if x.got then x.okRun + 1 else 0
  let bad := if x.got then 0 else x.lostRun + 1
  let s := s.updMember m fun x => { x with okRun := ok, lostRun := bad, got := false }
  match x.st with
  | .absent => s
  | .joining => if decide (16 ≤ ok) && locked && !x.stale then s.setMember m .member else s
  | .member =>
    if s.dv P.dvJalutloss ≤ bad then
      (s.setMember m .lost).raiseAxes (s.memberAxes (m.val + 1)) 0x0807 (s.dv P.dvJnlossclass) (m.val + 1)
    else s
  | .lost =>
    if 16 ≤ ok then
      (if !same then (s.setMember m .joining).updMember m fun x => { x with stale := true } else if locked then s.setMember m .member else s)
    else s

/-- Both directions of a ring pair at the end of a cycle (R437). -/
def State.pairCycle (s : State) (q : Fin 2) : State :=
  let s := (pairPorts q).foldl (fun s e =>
    s.updEth e fun x => { x with silent := if x.got then 0 else x.silent + 1, got := false }) s
  let a := (s.net.ports[pairPort q 0]).silent
  let b := (s.net.ports[pairPort q 1]).silent
  let active := s.faults.table.any fun r => r.code == 0x0805 && r.detail == q.val
  if ((3 ≤ a ∧ b = 0) ∨ (3 ≤ b ∧ a = 0)) ∧ active = false then s.raiseDev 0x0805 1 q.val else s

/-- Open `FORM`s whose devices have all reached `MEMBER` complete (R438). -/
def State.formsDone (s : State) : State :=
  let ready (f : CmdRef × List Nat × Nat) : Bool := f.2.1.all fun m => (s.member? m).any (·.st == .member)
  let mask := s.membersIn .member
  let s' := s.updNet fun n => { n with form := n.form.filter fun f => !ready f }
  (s.net.form.filter ready).foldl (fun s f => s.complete f.1 .done 0 s.now (leBytes 2 mask ++ zeros 2)) s'

/-- S_(n+1) (R437, R439): what has not arrived is lost. -/
def State.cycleEnd (s : State) (locked same : BitVec 15) : State :=
  let s := match s.pairOf 2 with
    | none => s
    | some q =>
      let lost := allMembers.any fun m => (s.net.members[m]).st == .member && !(s.net.members[m]).got
      let s := allMembers.foldl (fun s m => s.memberCycle m (locked.getLsbD m.val) (same.getLsbD m.val)) s
      let s := if lost then s.frameLost q else s
      let s := allAxes.foldl (fun s i => if s.overJalut i then s.netMissed i else s) s
      (s.pairCycle q).formsDone
  match s.pairOf 1 with
  | none => s
  | some q =>
    let s := s.pairCycle q
    if s.net.index = 0 then s
    else if s.net.got then s.updNet fun n => { n with got := false }
    else (s.updNet fun n => { n with missed := n.missed + 1 }).frameLost q

def execJalutCycleEnd (locked same : BitVec 15) (s : State) : Out := s.main (s.cycleEnd locked same)

/-- A member without a valid cycle for `DV.JALUTLOSS` cycles (R439). -/
def execLeaderLossCount (s : State) : Out :=
  s.main
    (if s.net.index = 0 ∨ s.net.missed < s.dv P.dvJalutloss then s
     else (allAxes.filter fun i => s.bound i).foldl (fun s i =>
       if s.activeFault 0x0808 .axis 0 && s.activeAxisFault 0x0808 i then s else s.raiseAxis i 0x0808 (s.dv P.dvJnlossclass)) s)

/-! ### Packets over Jalut (R435) -/

/-- A whole packet from the leader or from a member. A packet of the leader is one of its session (R440): with the session's version,
and holding control as the leader says. -/
def State.jalutPacket (s : State) (src : Nat) (b : List Byte) (ctl : Bool) : State :=
  if src = 0 then
    match s.host.leader with
    | none => s
    | some x => (s.setSession .leader (some { x with version := u8 b 2, control := ctl })).receiveOrWait .leader b
  else s.relay src (parsePacket .leader b true)

/-- A fragment arrives (R435): source (0 the leader), identifier, index, count, data; and whether the leader's session holds
control. -/
def State.fragment (s : State) (src ident idx cnt : Nat) (data : List Byte) (ctl : Bool) : State :=
  if cnt ≤ idx ∨ 1468 < data.length ∨ (src ≠ 0 ∧ (s.member? src).all (·.st != .member) = true) then s
  else
    let old := (s.net.frags.find? fun f => f.src == src && f.ident == ident && f.count == cnt).getD ⟨src, ident, cnt, []⟩
    let parts := (idx, data) :: old.parts.filter (fun p => p.1 != idx)
    let others := s.net.frags.filter fun f => !(f.src == src && f.ident == ident)
    if parts.length = cnt then
      (s.updNet fun n => { n with frags := others }).jalutPacket src
        ((List.range cnt).flatMap fun k => ((parts.find? (fun p => p.1 == k)).map (·.2)).getD []) ctl
    else s.updNet fun n => { n with frags := others ++ [⟨src, ident, cnt, parts⟩] }

def execJalutPacketFragment (src : Fin 16) (ident : BitVec 16) (idx cnt : BitVec 8) (data : List Byte) (ctl : Bool) (s : State) :
    Out :=
  s.main (if !s.serving then s else s.fragment src.val ident.toNat idx.toNat cnt.toNat data ctl)

/-! ### Discovery and forming: the events (R438) -/

/-- A discovery frame or a discovery reply (R438): a device answers, the leader notes who has answered. -/
def execDiscoveryFrame (x : Discovery) (s : State) : Out :=
  s.main
    (match x with
     | .ask pos => if (s.pairOf 1).isSome then s.updNet fun n => { n with answer := some (s.ownEntry pos) } else s
     | .reply f =>
       if (s.pairOf 2).isSome then s.updNet fun n => { n with found := n.found.filter (·.serial != f.serial) ++ [f] } else s)

/-- 100 ms after a `DISCOVER` (R438). -/
def execDiscoverReplyTimer (s : State) : Out :=
  s.main
    (match s.net.discover with
     | [] => s
     | (r, t0) :: rest =>
       if !s.heldFor (some t0) 100000000 then s else
       ((s.updNet fun n => { n with discover := rest }).complete r .ok 0 s.now
         (leBytes 2 s.net.found.length ++ zeros 2 ++ s.net.found.flatMap Found.bytes)).unblock r.src)

/-- 2 s after a `FORM` (R438): the first device named that has not reached `MEMBER`. -/
def execFormTimeout (s : State) : Out :=
  s.main
    (match s.net.form with
     | [] => s
     | (r, ms, t0) :: rest =>
       if !s.heldFor (some t0) 2000000000 then s else
       let s := s.updNet fun n => { n with form := rest }
       match ms.find? fun m => !(s.member? m).any (·.st == .member) with
       | some m => s.complete r .timeout m s.now
       | none => s.complete r .done 0 s.now (leBytes 2 (s.membersIn .member) ++ zeros 2))

end Sys2Proof.Machine
end

