-- ==== Sys2Proof/Machine/Dispatch.lean ====
section
/-!
DEFINITION. One arm for each constructor of `Instr`: a direct call of its meaning, or a refusal by name.
-/
namespace Sys2Proof.Machine

def exec (i : Instr) (s : State) : Host.Outcome State Fault Refusal :=
  match i with
  | .porNRise => Sys2Proof.Machine.execPorNRise s
  | .porNFall => Sys2Proof.Machine.execPorNFall s
  | .tgRailOutOfWindow => Sys2Proof.Machine.execTgRailOutOfWindow s
  | .pgoodRise n railsOk => Sys2Proof.Machine.execPgoodRise n railsOk s
  | .stageSettleExpiry => Sys2Proof.Machine.execStageSettleExpiry s
  | .pgoodTimeout => Sys2Proof.Machine.execPgoodTimeout s
  | .seqRetryExpiry => Sys2Proof.Machine.execSeqRetryExpiry s
  | .mainRailFail stage => Sys2Proof.Machine.execMainRailFail stage s
  | .powerDownStep => Sys2Proof.Machine.execPowerDownStep s
  | .rstNAssert => Sys2Proof.Machine.execRstNAssert s
  | .warmReset c => Sys2Proof.Machine.execWarmReset c s
  | .warmResetRelease => Sys2Proof.Machine.execWarmResetRelease s
  | .clockStopDeclared n => Sys2Proof.Machine.execClockStopDeclared n s
  | .clockCountWindow counts => Sys2Proof.Machine.execClockCountWindow counts s
  | .pllLock => Sys2Proof.Machine.execPllLock s
  | .pllLockLost => Sys2Proof.Machine.execPllLockLost s
  | .tpWdog => Sys2Proof.Machine.execTpWdog s
  | .bootImageLoaded byway img f => Sys2Proof.Machine.execBootImageLoaded byway img f s
  | .tgSelftestDone ok => Sys2Proof.Machine.execTgSelftestDone ok s
  | .helloReady => Sys2Proof.Machine.execHelloReady s
  | .routeCoreWdogExpiry rc => Sys2Proof.Machine.execRouteCoreWdogExpiry rc s
  | .routeCoreTrap rc region => Sys2Proof.Machine.execRouteCoreTrap rc region s
  | .bywayRestart => Sys2Proof.Machine.execBywayRestart s
  | .qcfgEnSet q v => Sys2Proof.Machine.execQcfgEnSet q v s
  | .qcfgEnClear q v => Sys2Proof.Machine.execQcfgEnClear q v s
  | .sqDoorbell q tail entries dma => Sys2Proof.Machine.execSqDoorbell q tail entries dma s
  | .cqDoorbell q head => Sys2Proof.Machine.execCqDoorbell q head s
  | .heldPacketWrite q => Sys2Proof.Machine.execHeldPacketWrite q s
  | .coalTimeExpiry q => Sys2Proof.Machine.execCoalTimeExpiry q s
  | .tsctlTrig => Sys2Proof.Machine.execTsctlTrig s
  | .tlNsRead => Sys2Proof.Machine.execTlNsRead s
  | .pcieLinkReset up => Sys2Proof.Machine.execPcieLinkReset up s
  | .registerWrite sp off size v => Sys2Proof.Machine.execRegisterWrite sp off size v s
  | .qspiWrite b => Sys2Proof.Machine.execQspiWrite b s
  | .qspiRead n => Sys2Proof.Machine.execQspiRead n s
  | .qspiReadAgain n => Sys2Proof.Machine.execQspiReadAgain n s
  | .qspiStatus => Sys2Proof.Machine.execQspiStatus s
  | .qspiUnknownCommand c => Sys2Proof.Machine.execQspiUnknownCommand c s
  | .packetForward p => Sys2Proof.Machine.execPacketForward p s
  | .replyRelay m p => Sys2Proof.Machine.execReplyRelay m p s
  | .groupEnd p => Sys2Proof.Machine.execGroupEnd p s
  | .groupTimeout src => Sys2Proof.Machine.execGroupTimeout src s
  | .timedTagDue => Sys2Proof.Machine.execTimedTagDue s
  | .sessionTimeout src => Sys2Proof.Machine.execSessionTimeout src s
  | .hello p => Sys2Proof.Machine.execHello p s
  | .bye p => Sys2Proof.Machine.execBye p s
  | .ping p => Sys2Proof.Machine.execPing p s
  | .devinfo p => Sys2Proof.Machine.execDevinfo p s
  | .paramGet p => Sys2Proof.Machine.execParamGet p s
  | .paramSet p => Sys2Proof.Machine.execParamSet p s
  | .tableLoad p => Sys2Proof.Machine.execTableLoad p s
  | .tableActivate => Sys2Proof.Machine.execTableActivate s
  | .cfgBegin p => Sys2Proof.Machine.execCfgBegin p s
  | .cfgSet p => Sys2Proof.Machine.execCfgSet p s
  | .cfgGet p => Sys2Proof.Machine.execCfgGet p s
  | .cfgCommit p => Sys2Proof.Machine.execCfgCommit p s
  | .commitAnalysisComplete j => Sys2Proof.Machine.execCommitAnalysisComplete j s
  | .commitLoadingComplete places => Sys2Proof.Machine.execCommitLoadingComplete places s
  | .memberUnreachable m => Sys2Proof.Machine.execMemberUnreachable m s
  | .goSignal go => Sys2Proof.Machine.execGoSignal go s
  | .switchOver owned publish => Sys2Proof.Machine.execSwitchOver owned publish s
  | .cfggenCompare differ => Sys2Proof.Machine.execCfggenCompare differ s
  | .cfgAbort p => Sys2Proof.Machine.execCfgAbort p s
  | .cfgExplain p => Sys2Proof.Machine.execCfgExplain p s
  | .axisEnable p => Sys2Proof.Machine.execAxisEnable p s
  | .enableWaitTimeout j => Sys2Proof.Machine.execEnableWaitTimeout j s
  | .axisDisable p => Sys2Proof.Machine.execAxisDisable p s
  | .moveAbs p => Sys2Proof.Machine.execMoveAbs p s
  | .moveRel p => Sys2Proof.Machine.execMoveRel p s
  | .moveVel p => Sys2Proof.Machine.execMoveVel p s
  | .stop p => Sys2Proof.Machine.execStop p s
  | .home p => Sys2Proof.Machine.execHome p s
  | .pathAppend p => Sys2Proof.Machine.execPathAppend p s
  | .gearEngage p => Sys2Proof.Machine.execGearEngage p s
  | .gearRelease p => Sys2Proof.Machine.execGearRelease p s
  | .camEngage p => Sys2Proof.Machine.execCamEngage p s
  | .portForce p => Sys2Proof.Machine.execPortForce p s
  | .forceTimeout p => Sys2Proof.Machine.execForceTimeout p s
  | .portTripClear p => Sys2Proof.Machine.execPortTripClear p s
  | .portStatus p => Sys2Proof.Machine.execPortStatus p s
  | .latchArm p => Sys2Proof.Machine.execLatchArm p s
  | .latchRead p => Sys2Proof.Machine.execLatchRead p s
  | .compareSet p => Sys2Proof.Machine.execCompareSet p s
  | .compareClear p => Sys2Proof.Machine.execCompareClear p s
  | .traceSetup p => Sys2Proof.Machine.execTraceSetup p s
  | .traceStart p => Sys2Proof.Machine.execTraceStart p s
  | .traceStop p => Sys2Proof.Machine.execTraceStop p s
  | .traceStopWaitEnd => Sys2Proof.Machine.execTraceStopWaitEnd s
  | .traceRead p => Sys2Proof.Machine.execTraceRead p s
  | .timeGet p => Sys2Proof.Machine.execTimeGet p s
  | .timeStep p => Sys2Proof.Machine.execTimeStep p s
  | .netStatus p => Sys2Proof.Machine.execNetStatus p s
  | .canTxQueue p => Sys2Proof.Machine.execCanTxQueue p s
  | .canRxAck p => Sys2Proof.Machine.execCanRxAck p s
  | .junctionForm p => Sys2Proof.Machine.execJunctionForm p s
  | .discoverReplyTimer => Sys2Proof.Machine.execDiscoverReplyTimer s
  | .formTimeout => Sys2Proof.Machine.execFormTimeout s
  | .safeStatus p => Sys2Proof.Machine.execSafeStatus p s
  | .safeCfgLoad p => Sys2Proof.Machine.execSafeCfgLoad p s
  | .safeCfgCheckComplete => Sys2Proof.Machine.execSafeCfgCheckComplete s
  | .safeCfgConfirm p => Sys2Proof.Machine.execSafeCfgConfirm p s
  | .confirmTimeout => Sys2Proof.Machine.execConfirmTimeout s
  | .sealedImageWriteComplete ok => Sys2Proof.Machine.execSealedImageWriteComplete ok s
  | .brakeTest p => Sys2Proof.Machine.execBrakeTest p s
  | .brakeTestStep p mean => Sys2Proof.Machine.execBrakeTestStep p mean s
  | .faultRead p => Sys2Proof.Machine.execFaultRead p s
  | .faultAck p => Sys2Proof.Machine.execFaultAck p s
  | .retireStatus p => Sys2Proof.Machine.execRetireStatus p s
  | .fwBegin p => Sys2Proof.Machine.execFwBegin p s
  | .slotEraseComplete => Sys2Proof.Machine.execSlotEraseComplete s
  | .fwData p => Sys2Proof.Machine.execFwData p s
  | .fwEnd p => Sys2Proof.Machine.execFwEnd p s
  | .slotProgramComplete tp bw => Sys2Proof.Machine.execSlotProgramComplete tp bw s
  | .fwActivate p => Sys2Proof.Machine.execFwActivate p s
  | .rollbackFuseComplete => Sys2Proof.Machine.execRollbackFuseComplete s
  | .lepLoad p => Sys2Proof.Machine.execLepLoad p s
  | .imageVerifyComplete win => Sys2Proof.Machine.execImageVerifyComplete win s
  | .lepInfo p => Sys2Proof.Machine.execLepInfo p s
  | .dbgUnlock p => Sys2Proof.Machine.execDbgUnlock p s
  | .tmuxSelect p => Sys2Proof.Machine.execTmuxSelect p s
  | .offsetCalComplete j => Sys2Proof.Machine.execOffsetCalComplete j s
  | .bootstrapPrechargeEnd j => Sys2Proof.Machine.execBootstrapPrechargeEnd j s
  | .alignStepEnd j => Sys2Proof.Machine.execAlignStepEnd j s
  | .stepInitEnd j => Sys2Proof.Machine.execStepInitEnd j s
  | .catchWindowEnd j => Sys2Proof.Machine.execCatchWindowEnd j s
  | .standstillReached j => Sys2Proof.Machine.execStandstillReached j s
  | .currentLoopRelease j => Sys2Proof.Machine.execCurrentLoopRelease j s
  | .stepperCurrentRelease j => Sys2Proof.Machine.execStepperCurrentRelease j s
  | .positionLoopRelease j => Sys2Proof.Machine.execPositionLoopRelease j s
  | .groupTaskRelease j => Sys2Proof.Machine.execGroupTaskRelease j s
  | .setpointRelease j => Sys2Proof.Machine.execSetpointRelease j s
  | .coefficientSwitch j => Sys2Proof.Machine.execCoefficientSwitch j s
  | .lossOfSync j => Sys2Proof.Machine.execLossOfSync j s
  | .sdFault j => Sys2Proof.Machine.execSdFault j s
  | .windingOpen j => Sys2Proof.Machine.execWindingOpen j s
  | .stallTimer j => Sys2Proof.Machine.execStallTimer j s
  | .taskTrigger e rank => Sys2Proof.Machine.execTaskTrigger e rank s
  | .deadlineOverrun e rank consequential => Sys2Proof.Machine.execDeadlineOverrun e rank consequential s
  | .migrationComplete e => Sys2Proof.Machine.execMigrationComplete e s
  | .haulTransferComplete e coll ecc c => Sys2Proof.Machine.execHaulTransferComplete e coll ecc c s
  | .windowLoadReturn e c => Sys2Proof.Machine.execWindowLoadReturn e c s
  | .windowStoreDrain e c => Sys2Proof.Machine.execWindowStoreDrain e c s
  | .engineDebugHalt e => Sys2Proof.Machine.execEngineDebugHalt e s
  | .engineDebugResume e => Sys2Proof.Machine.execEngineDebugResume e s
  | .nop w => Sys2Proof.Machine.execNop w s
  | .vadd w fd fa fb => Sys2Proof.Machine.execVadd w fd fa fb s
  | .vsub w fd fa fb => Sys2Proof.Machine.execVsub w fd fa fb s
  | .vmul w fd fa fb => Sys2Proof.Machine.execVmul w fd fa fb s
  | .vneg w fd fa => Sys2Proof.Machine.execVneg w fd fa s
  | .vabs w fd fa => Sys2Proof.Machine.execVabs w fd fa s
  | .vmin w fd fa fb => Sys2Proof.Machine.execVmin w fd fa fb s
  | .vmax w fd fa fb => Sys2Proof.Machine.execVmax w fd fa fb s
  | .vshl w fd fa fx => Sys2Proof.Machine.execVshl w fd fa fx s
  | .vshr w fd fa fx => Sys2Proof.Machine.execVshr w fd fa fx s
  | .vand w fd fa fb => Sys2Proof.Machine.execVand w fd fa fb s
  | .vor w fd fa fb => Sys2Proof.Machine.execVor w fd fa fb s
  | .vxor w fd fa fb => Sys2Proof.Machine.execVxor w fd fa fb s
  | .vcmp w fa fb cc => Sys2Proof.Machine.execVcmp w fa fb cc s
  | .vsel w fd fa fb => Sys2Proof.Machine.execVsel w fd fa fb s
  | .vsincos w fd fa => Sys2Proof.Machine.execVsincos w fd fa s
  | .mac w n fa fb => Sys2Proof.Machine.execMac w n fa fb s
  | .macb w n fa fb ln => Sys2Proof.Machine.execMacb w n fa fb ln s
  | .macx w n fb ln => Sys2Proof.Machine.execMacx w n fb ln s
  | .macy w n fb ln => Sys2Proof.Machine.execMacy w n fb ln s
  | .msub w n fa fb => Sys2Proof.Machine.execMsub w n fa fb s
  | .aclr w n => Sys2Proof.Machine.execAclr w n s
  | .accrd w fd n sh => Sys2Proof.Machine.execAccrd w fd n sh s
  | .fadd w fd fa fb => Sys2Proof.Machine.execFadd w fd fa fb s
  | .fsub w fd fa fb => Sys2Proof.Machine.execFsub w fd fa fb s
  | .fmul w fd fa fb => Sys2Proof.Machine.execFmul w fd fa fb s
  | .fma w fd fa fb => Sys2Proof.Machine.execFma w fd fa fb s
  | .fmacx w fd fb ln => Sys2Proof.Machine.execFmacx w fd fb ln s
  | .fmacy w fd fb ln => Sys2Proof.Machine.execFmacy w fd fb ln s
  | .fmin w fd fa fb => Sys2Proof.Machine.execFmin w fd fa fb s
  | .fmax w fd fa fb => Sys2Proof.Machine.execFmax w fd fa fb s
  | .fabs w fd fa => Sys2Proof.Machine.execFabs w fd fa s
  | .fneg w fd fa => Sys2Proof.Machine.execFneg w fd fa s
  | .fcmp w fa fb cc => Sys2Proof.Machine.execFcmp w fa fb cc s
  | .fcvtQf w fd fa fx => Sys2Proof.Machine.execFcvtQf w fd fa fx s
  | .fcvtFq w fd fa fx => Sys2Proof.Machine.execFcvtFq w fd fa fx s
  | .frcp w fd fa => Sys2Proof.Machine.execFrcp w fd fa s
  | .frsq w fd fa => Sys2Proof.Machine.execFrsq w fd fa s
  | .pair w n fd fa fb ln => Sys2Proof.Machine.execPair w n fd fa fb ln s
  | .vmov w fd fa => Sys2Proof.Machine.execVmov w fd fa s
  | .vbcast w fd fa ln => Sys2Proof.Machine.execVbcast w fd fa ln s
  | .vperm w fd fa fx => Sys2Proof.Machine.execVperm w fd fa fx s
  | .amov w ad fa ln => Sys2Proof.Machine.execAmov w ad fa ln s
  | .vlane w fd ln aa => Sys2Proof.Machine.execVlane w fd ln aa s
  | .aaddi w ad aa imm => Sys2Proof.Machine.execAaddi w ad aa imm s
  | .ldV w r m => Sys2Proof.Machine.execLdV w r m s
  | .ldA w r m => Sys2Proof.Machine.execLdA w r m s
  | .ldL w r k m => Sys2Proof.Machine.execLdL w r k m s
  | .stV w r m => Sys2Proof.Machine.execStV w r m s
  | .stA w r m => Sys2Proof.Machine.execStA w r m s
  | .stL w r k m => Sys2Proof.Machine.execStL w r k m s
  | .ldD w r m => Sys2Proof.Machine.execLdD w r m s
  | .lsD w r m => Sys2Proof.Machine.execLsD w r m s
  | .rpt w arg => Sys2Proof.Machine.execRpt w arg s
  | .rptReg w an bound => Sys2Proof.Machine.execRptReg w an bound s
  | .hstart w c => Sys2Proof.Machine.execHstart w c s
  | .hwait w c => Sys2Proof.Machine.execHwait w c s
  | .sync w => Sys2Proof.Machine.execSync w s
  | .endRelease w => Sys2Proof.Machine.execEndRelease w s
  | .br w cond an imm => Sys2Proof.Machine.execBr w cond an imm s
  | .call w cond an imm => Sys2Proof.Machine.execCall w cond an imm s
  | .ret w cond an => Sys2Proof.Machine.execRet w cond an s
  | .loop w imm => Sys2Proof.Machine.execLoop w imm s
  | .loopReg w an imm bound => Sys2Proof.Machine.execLoopReg w an imm bound s
  | .ldiA w d imm => Sys2Proof.Machine.execLdiA w d imm s
  | .ldiL w d ln imm => Sys2Proof.Machine.execLdiL w d ln imm s
  | .carrierPeriodStart p comps drv => Sys2Proof.Machine.execCarrierPeriodStart p comps drv s
  | .setupInstant p => Sys2Proof.Machine.execSetupInstant p s
  | .commitPoint p peak => Sys2Proof.Machine.execCommitPoint p peak s
  | .portSlotStoreComplete e => Sys2Proof.Machine.execPortSlotStoreComplete e s
  | .sampleEvent p w0 w1 w2 w3 => Sys2Proof.Machine.execSampleEvent p w0 w1 w2 w3 s
  | .feedbackSample p rejected => Sys2Proof.Machine.execFeedbackSample p rejected s
  | .comparatorTrip p comps => Sys2Proof.Machine.execComparatorTrip p comps s
  | .blankingEnd p comps => Sys2Proof.Machine.execBlankingEnd p comps s
  | .drvfltNLow p => Sys2Proof.Machine.execDrvfltNLow p s
  | .delayLineCalibration p taps => Sys2Proof.Machine.execDelayLineCalibration p taps s
  | .portUpset p feedback => Sys2Proof.Machine.execPortUpset p feedback s
  | .chopperThresholdCross p w win => Sys2Proof.Machine.execChopperThresholdCross p w win s
  | .chopperOffTimeExpiry p w fastPart win => Sys2Proof.Machine.execChopperOffTimeExpiry p w fastPart win s
  | .busDecimatedValue b w chfb => Sys2Proof.Machine.execBusDecimatedValue b w chfb s
  | .busChargedTimer b => Sys2Proof.Machine.execBusChargedTimer b s
  | .busBypassTimer b => Sys2Proof.Machine.execBusBypassTimer b s
  | .busUvTimer b => Sys2Proof.Machine.execBusUvTimer b s
  | .prechargeTimeout b => Sys2Proof.Machine.execPrechargeTimeout b s
  | .chfbTimeout b chfb => Sys2Proof.Machine.execChfbTimeout b chfb s
  | .feedbackInputChange p a b z tag k => Sys2Proof.Machine.execFeedbackInputChange p a b z tag k s
  | .chatterWindow x n => Sys2Proof.Machine.execChatterWindow x n s
  | .inputStuckTimeout x => Sys2Proof.Machine.execInputStuckTimeout x s
  | .hallInvalidTimer p => Sys2Proof.Machine.execHallInvalidTimer p s
  | .ssiFrameStart p fbb => Sys2Proof.Machine.execSsiFrameStart p fbb s
  | .ssiFrameEnd p samples => Sys2Proof.Machine.execSsiFrameEnd p samples s
  | .resolverWindow p w2 w3 => Sys2Proof.Machine.execResolverWindow p w2 w3 s
  | .probeEdge n level tag k tickOnly => Sys2Proof.Machine.execProbeEdge n level tag k tickOnly s
  | .emuUpdate n => Sys2Proof.Machine.execEmuUpdate n s
  | .compareOutputFire j k => Sys2Proof.Machine.execCompareOutputFire j k s
  | .comparePulseEnd j k => Sys2Proof.Machine.execComparePulseEnd j k s
  | .tollgateCycle edm brkfb pads mismatch => Sys2Proof.Machine.execTollgateCycle edm brkfb pads mismatch s
  | .siFilteredChange n level run us => Sys2Proof.Machine.execSiFilteredChange n level run us s
  | .tpoPulse n start low back => Sys2Proof.Machine.execTpoPulse n start low back s
  | .torqueOffSample => Sys2Proof.Machine.execTorqueOffSample s
  | .outputWatchdogExpiry => Sys2Proof.Machine.execOutputWatchdogExpiry s
  | .tgoscFaultLine => Sys2Proof.Machine.execTgoscFaultLine s
  | .ss1Timeout p => Sys2Proof.Machine.execSs1Timeout p s
  | .discrepancyTimer f => Sys2Proof.Machine.execDiscrepancyTimer f s
  | .lockDelayExpiry f => Sys2Proof.Machine.execLockDelayExpiry f s
  | .lockFbTimeout f => Sys2Proof.Machine.execLockFbTimeout f s
  | .brkfbTimeout p => Sys2Proof.Machine.execBrkfbTimeout p s
  | .edmTimeout o => Sys2Proof.Machine.execEdmTimeout o s
  | .soOffPulse o low high => Sys2Proof.Machine.execSoOffPulse o low high s
  | .resetStuckTimer => Sys2Proof.Machine.execResetStuckTimer s
  | .brakeTestDueTimer p => Sys2Proof.Machine.execBrakeTestDueTimer p s
  | .brakeReleaseRequest p release => Sys2Proof.Machine.execBrakeReleaseRequest p release s
  | .cfgTransfer copy0 copy1 => Sys2Proof.Machine.execCfgTransfer copy0 copy1 s
  | .tgBackgroundTest ok => Sys2Proof.Machine.execTgBackgroundTest ok s
  | .tgSilent => Sys2Proof.Machine.execTgSilent s
  | .syncReceived e gmTime tbi phase => Sys2Proof.Machine.execSyncReceived e gmTime tbi phase s
  | .syncTimeout => Sys2Proof.Machine.execSyncTimeout s
  | .holdoverLimit => Sys2Proof.Machine.execHoldoverLimit s
  | .bmcaSelection sel passive => Sys2Proof.Machine.execBmcaSelection sel passive s
  | .announceReceived e gm prio1 prio2 steps => Sys2Proof.Machine.execAnnounceReceived e gm prio1 prio2 steps s
  | .pdelayExchange e delay => Sys2Proof.Machine.execPdelayExchange e delay s
  | .syncTransmit e => Sys2Proof.Machine.execSyncTransmit e s
  | .ptpForeignForward e resid corr => Sys2Proof.Machine.execPtpForeignForward e resid corr s
  | .transmitStamp e ident kind tag k owned => Sys2Proof.Machine.execTransmitStamp e ident kind tag k owned s
  | .ppsInEdge tag k => Sys2Proof.Machine.execPpsInEdge tag k s
  | .ppsOutSecond rise => Sys2Proof.Machine.execPpsOutSecond rise s
  | .mdioLinkPoll e up => Sys2Proof.Machine.execMdioLinkPoll e up s
  | .preemptionVerify e ok => Sys2Proof.Machine.execPreemptionVerify e ok s
  | .frameReceived e src seq len tagged fcsOk toUs => Sys2Proof.Machine.execFrameReceived e src seq len tagged fcsOk toUs s
  | .jalutCycleStart => Sys2Proof.Machine.execJalutCycleStart s
  | .jalutFramePass m d ver n tj fcsOk full sps imgs => Sys2Proof.Machine.execJalutFramePass m d ver n tj fcsOk full sps imgs s
  | .jalutUpstreamArrival m d valid reps imgs => Sys2Proof.Machine.execJalutUpstreamArrival m d valid reps imgs s
  | .jalutCycleEnd locked same => Sys2Proof.Machine.execJalutCycleEnd locked same s
  | .leaderLossCount => Sys2Proof.Machine.execLeaderLossCount s
  | .jalutPacketFragment src ident idx cnt data ctl => Sys2Proof.Machine.execJalutPacketFragment src ident idx cnt data ctl s
  | .discoveryFrame x => Sys2Proof.Machine.execDiscoveryFrame x s
  | .canFrameEnd c f sof => Sys2Proof.Machine.execCanFrameEnd c f sof s
  | .canRecessiveRun c => Sys2Proof.Machine.execCanRecessiveRun c s
  | .canErrorDetected c e sof => Sys2Proof.Machine.execCanErrorDetected c e sof s
  | .canTxSuccess c sof delay => Sys2Proof.Machine.execCanTxSuccess c sof delay s
  | .canArbitrationLoss c sof => Sys2Proof.Machine.execCanArbitrationLoss c sof s
  | .canRateCandidateTimeout c => Sys2Proof.Machine.execCanRateCandidateTimeout c s
  | .canReferenceInstant c => Sys2Proof.Machine.execCanReferenceInstant c s
  | .canReferenceReceived c f sof => Sys2Proof.Machine.execCanReferenceReceived c f sof s
  | .canReferenceMissing c => Sys2Proof.Machine.execCanReferenceMissing c s
  | .canSlotCapture c k => Sys2Proof.Machine.execCanSlotCapture c k s
  | .canWindowMark c k => Sys2Proof.Machine.execCanWindowMark c k s
  | .canTxenwinEnd c started => Sys2Proof.Machine.execCanTxenwinEnd c started s
  | .portLAccess e wr off be d ecc => Sys2Proof.Machine.execPortLAccess e wr off be d ecc s
  | .portSAccess m wr off be d ecc l => Sys2Proof.Machine.execPortSAccess m wr off be d ecc l s
  | .scrubRead off ecc rewritten again => Sys2Proof.Machine.execScrubRead off ecc rewritten again s
  | .bankRelocationCopyComplete lost => Sys2Proof.Machine.execBankRelocationCopyComplete lost s
  | .bankMapSwitch => Sys2Proof.Machine.execBankMapSwitch s
  | .waymarkSampleIntake ch t tap => Sys2Proof.Machine.execWaymarkSampleIntake ch t tap s
  | .waymarkRecordWrite => Sys2Proof.Machine.execWaymarkRecordWrite s
  | .dieTempSample v => Sys2Proof.Machine.execDieTempSample v s
  | .tgRailReturn => Sys2Proof.Machine.execTgRailReturn s
  | .stagingBufferWritten n => Sys2Proof.Machine.execStagingBufferWritten n s
  | .jtagDebugAccess op => Sys2Proof.Machine.execJtagDebugAccess op s
  | .gpioEdge n level t => Sys2Proof.Machine.execGpioEdge n level t s

end Sys2Proof.Machine
end

