-- ==== Sys2Proof/Machine/Tick.lean ====
section
/-!
DEFINITION. What one PWMCLK tick does when no command waits (log 28): line time (R414), the carriers and outputs of the ports,
the scheduled edges of the emulation units, the cycle counters of the loop engines, and the boot steps that no row brings about
(log 88).
-/
namespace Sys2Proof.Machine

/-- Line time advances by the addend, in units of 2⁻⁴⁰ ns (R414). -/
def TimeUnit.advance (t : TimeUnit) : TimeUnit :=
  let x := t.ns * 2 ^ 40 + t.frac * 2 ^ 24 + t.ext + t.addend
  let ns := x / 2 ^ 40
  { t with
    sec := (t.sec + ns / 1000000000) % 2 ^ 48, ns := ns % 1000000000
    frac := x % 2 ^ 40 / 2 ^ 24, ext := x % 2 ^ 24 }

/-- One tick of an excitation unit (R268). At every 16th tick from the carrier epoch it puts out one bit of a pulse-density stream whose
density is that of a sine of `DV.REX_PERIOD` ticks and amplitude `DV.REX_AMP`, with its positive peak a quarter of the period after
the epoch; the modulator is of first order (DESIGN CHOICE, log 106). A disabled unit drives its pin low. -/
def State.rexNext (s : State) (n : Fin 8) : Rex :=
  let x := s.rex[n]
  let per := s.dv P.dvRexPeriod n.val
  if s.dv P.dvRexEn n.val = 0 then {}
  else if s.ticks % 16 ≠ 0 ∨ per = 0 then x
  else
    let d := (1 + s.dvF P.dvRexAmp n.val * Config.sin (2 * Config.pi * ((s.ticks % per : Nat) : Rat) / (per : Rat))) / 2
    let a := x.acc + d
    if 1 ≤ a then { level := true, acc := a - 1 } else { level := false, acc := a }

def State.rexTick (s : State) : State := { s with rex := Vector.ofFn s.rexNext }

/-- The outputs of every port move on to the end of the running tick. -/
def State.portsSub (s : State) : State := allPorts.foldl (fun s p => s.portSub p) s

/-- The outputs of every port at a new tick. -/
def State.portsTick (s : State) : State := allPorts.foldl (fun s p => s.portTick p) s

/-- One PWMCLK tick (2.5 ns). In a reset of the main domain only Tollgate's clock runs. -/
def State.tick (s : State) : State :=
  let s := s.updTg fun t => { t with clk := t.clk + 1 }
  if s.boot.inReset then s
  else
    let s := s.portsSub
    let s : State := { s with
      ticks := s.ticks + 1, time := s.time.advance
      eng := s.eng.map fun x => { x with cycle := x.cycle + 3#32 }
      emus := Vector.ofFn fun n => (s.emus[n]).advance (s.emuZ n) 32 }
    let s := s.rexTick
    s.portsTick.bootStep

end Sys2Proof.Machine
end

