-- ==== Sys2Proof/WellFormed.lean ====
section
/-!
DEFINITION. Well-formed commands: the operands are such as the spec's fields and tables admit. What a command with a value outside them
does is said by its meaning; here only the form of an operand is judged.
-/
namespace Sys2Proof

/-- Largest payload of a packet version (Table 3.1). -/
def payloadMost (v : BitVec 8) : Nat := if v = 1 then 1020 else 4080

/-- A request packet past checks 1 to 6 of Table 3.3: a version, no reserved flag, a payload within the version's limit, and room for
the tag when it is timed (R93). -/
def Packet.wfAny (p : Packet) : Bool :=
  (p.version == 1 || p.version == 2 || p.version == 3) && p.flags.toNat < 16 && p.payload.length ≤ payloadMost p.version
    && (!p.flags.getLsbD 2 || 8 ≤ p.payload.length)

/-- A request for this device with the opcode of its row. -/
def Packet.wf (p : Packet) (op : Nat) : Bool := p.wfAny && p.opcode.toNat == op && p.path == 0

/-- A ring entry carries 60 bytes (Table 3.19), of which the fragment uses at most that many. -/
def RingEntry.wf (e : RingEntry) : Bool := e.data.length == 60

/-- Modes 6 and 7 are reserved; the circular modes reach `a0` to `a7` (Table 5.4). -/
def MemOp.wf (m : MemOp) : Bool := m.mode.toNat ≤ 5 && (m.mode.toNat < 4 || m.an.toNat ≤ 7)

/-- An aligned register offset (R11), inside the 16 KiB of BAR0 and the 8 KiB of BAR2/3 (R110). -/
def RegSpace.wf (sp : RegSpace) (off : BitVec 16) : Bool :=
  match sp with
  | .bar0 => off.toNat % 4 == 0 && off.toNat < 0x4000
  | .bar2 => off.toNat % 4 == 0 && off.toNat < 0x2000
  | .msixControl => true
  | .region _ _ _ => true

/-- Data lengths and identifiers of the formats (Table 14.1). -/
def CanFrame.wf (f : CanFrame) : Bool :=
  (match f.fmt with
   | 1 => f.data.length ≤ 8
   | 2 => f.data.length ≤ 8 || [12, 16, 20, 24, 32, 48, 64].contains f.data.length
   | 3 => 1 ≤ f.data.length && f.data.length ≤ 2048
   | _ => false)
  && (f.ide || f.id.toNat < 2048) && !(f.fmt == 3 && f.ide) && !(f.rtr && f.fmt != 1)

/-- Axis numbers of the cyclic records (Table 13.9). -/
def NetSp.wf (x : NetSp) : Bool := x.axis.toNat < 512
def NetRep.wf (x : NetRep) : Bool := x.axis.toNat < 512
def MImg.wf (x : MImg) : Bool := x.axis.toNat < 512

/-- A discovery reply names a member index of at most 15 (R438). -/
def Discovery.wf : Discovery → Bool
  | .ask _ => true
  | .reply f => f.index.toNat ≤ 15

/-- Bytes of a local memory (Table 5.1). -/
def EngMem.size : EngMem → Nat
  | .plm => 65536
  | .clmX => 32768
  | .clmY => 32768
  | .dlm => 131072

/-- Debug accesses stay within the memory they name (Table 17.8). -/
def JtagOp.wf : JtagOp → Bool
  | .bypass => true
  | .idcode => true
  | .sample _ => true
  | .readEngine _ m a n => a.toNat + n.toNat ≤ m.size
  | .writeEngine _ m a bs => a.toNat + bs.length ≤ m.size
  | .stepEngine _ => true
  | .readXr off n => off.toNat + n.toNat ≤ 0x2800000
  | .writeXr off bs => off.toNat + bs.length ≤ 0x2800000
  | .readCore _ => true
  | .haltCore _ => true
  | .stepCore _ => true
  | .resumeCore _ => true
  | .extest _ => true

/-- Well-formed commands. -/
def Instr.wf (i : Instr) : Bool :=
  match i with
  | .porNRise => true
  | .porNFall => true
  | .tgRailOutOfWindow => true
  | .pgoodRise _ _ => true
  | .stageSettleExpiry => true
  | .pgoodTimeout => true
  | .seqRetryExpiry => true
  | .mainRailFail _ => true
  | .powerDownStep => true
  | .rstNAssert => true
  | .warmReset _ => true
  | .warmResetRelease => true
  | .clockStopDeclared _ => true
  | .clockCountWindow _ => true
  | .pllLock => true
  | .pllLockLost => true
  | .tpWdog => true
  | .bootImageLoaded _ img _ => decide (img.length ≤ 0x800110)
  | .tgSelftestDone _ => true
  | .helloReady => true
  | .routeCoreWdogExpiry _ => true
  | .routeCoreTrap _ _ => true
  | .bywayRestart => true
  | .qcfgEnSet _ _ => true
  | .qcfgEnClear _ _ => true
  | .sqDoorbell _ _ entries _ => entries.all RingEntry.wf
  | .cqDoorbell _ _ => true
  | .heldPacketWrite _ => true
  | .coalTimeExpiry _ => true
  | .tsctlTrig => true
  | .tlNsRead => true
  | .pcieLinkReset _ => true
  | .registerWrite sp off _ _ => sp.wf off
  | .qspiWrite b => (b.length ≤ 4104)
  | .qspiRead _ => true
  | .qspiReadAgain _ => true
  | .qspiStatus => true
  | .qspiUnknownCommand _ => true
  | .packetForward p => (p.wfAny && p.path != 0)
  | .replyRelay _ p => (p.payload.length ≤ 4080 && p.opcode.getLsbD 15)
  | .groupEnd p => (p.wfAny && p.flags.getLsbD 1 && p.path == 0)
  | .groupTimeout _ => true
  | .timedTagDue => true
  | .sessionTimeout _ => true
  | .hello p => p.wf 0x0001
  | .bye p => p.wf 0x0002
  | .ping p => p.wf 0x0003
  | .devinfo p => p.wf 0x0004
  | .paramGet p => p.wf 0x0301
  | .paramSet p => p.wf 0x0302
  | .tableLoad p => p.wf 0x0303
  | .tableActivate => true
  | .cfgBegin p => p.wf 0x0101
  | .cfgSet p => p.wf 0x0102
  | .cfgGet p => p.wf 0x0103
  | .cfgCommit p => p.wf 0x0104
  | .commitAnalysisComplete _ => true
  | .commitLoadingComplete _ => true
  | .memberUnreachable _ => true
  | .goSignal _ => true
  | .switchOver _ _ => true
  | .cfggenCompare _ => true
  | .cfgAbort p => p.wf 0x0105
  | .cfgExplain p => p.wf 0x0106
  | .axisEnable p => p.wf 0x0201
  | .enableWaitTimeout _ => true
  | .axisDisable p => p.wf 0x0202
  | .moveAbs p => p.wf 0x0203
  | .moveRel p => p.wf 0x0204
  | .moveVel p => p.wf 0x0205
  | .stop p => p.wf 0x0206
  | .home p => p.wf 0x0207
  | .pathAppend p => p.wf 0x0208
  | .gearEngage p => p.wf 0x0209
  | .gearRelease p => p.wf 0x020A
  | .camEngage p => p.wf 0x020B
  | .portForce p => p.wf 0x0401
  | .forceTimeout _ => true
  | .portTripClear p => p.wf 0x0402
  | .portStatus p => p.wf 0x0403
  | .latchArm p => p.wf 0x0501
  | .latchRead p => p.wf 0x0502
  | .compareSet p => p.wf 0x0503
  | .compareClear p => p.wf 0x0504
  | .traceSetup p => p.wf 0x0601
  | .traceStart p => p.wf 0x0602
  | .traceStop p => p.wf 0x0603
  | .traceStopWaitEnd => true
  | .traceRead p => p.wf 0x0604
  | .timeGet p => p.wf 0x0701
  | .timeStep p => p.wf 0x0702
  | .netStatus p => p.wf 0x0703
  | .canTxQueue p => p.wf 0x0704
  | .canRxAck p => p.wf 0x0705
  | .junctionForm p => p.wf 0x0706
  | .discoverReplyTimer => true
  | .formTimeout => true
  | .safeStatus p => p.wf 0x0801
  | .safeCfgLoad p => p.wf 0x0802
  | .safeCfgCheckComplete => true
  | .safeCfgConfirm p => p.wf 0x0803
  | .confirmTimeout => true
  | .sealedImageWriteComplete _ => true
  | .brakeTest p => p.wf 0x0804
  | .brakeTestStep _ _ => true
  | .faultRead p => p.wf 0x0901
  | .faultAck p => p.wf 0x0902
  | .retireStatus p => p.wf 0x0903
  | .fwBegin p => p.wf 0x0A01
  | .slotEraseComplete => true
  | .fwData p => p.wf 0x0A02
  | .fwEnd p => p.wf 0x0A03
  | .slotProgramComplete _ _ => true
  | .fwActivate p => p.wf 0x0A04
  | .rollbackFuseComplete => true
  | .lepLoad p => p.wf 0x0B01
  | .imageVerifyComplete _ => true
  | .lepInfo p => p.wf 0x0B02
  | .dbgUnlock p => p.wf 0x0C01
  | .tmuxSelect p => p.wf 0x0C02
  | .offsetCalComplete _ => true
  | .bootstrapPrechargeEnd _ => true
  | .alignStepEnd _ => true
  | .stepInitEnd _ => true
  | .catchWindowEnd _ => true
  | .standstillReached _ => true
  | .currentLoopRelease _ => true
  | .stepperCurrentRelease _ => true
  | .positionLoopRelease _ => true
  | .groupTaskRelease _ => true
  | .setpointRelease _ => true
  | .coefficientSwitch _ => true
  | .lossOfSync _ => true
  | .sdFault _ => true
  | .windingOpen _ => true
  | .stallTimer _ => true
  | .taskTrigger _ _ => true
  | .deadlineOverrun _ _ _ => true
  | .migrationComplete _ => true
  | .haulTransferComplete _ coll ecc _ => coll.all (fun k => k < 4096) && ecc.all (fun x => x.1 < 4096)
  | .windowLoadReturn _ _ => true
  | .windowStoreDrain _ _ => true
  | .engineDebugHalt _ => true
  | .engineDebugResume _ => true
  | .nop _ => true
  | .vadd _ _ _ _ => true
  | .vsub _ _ _ _ => true
  | .vmul _ _ _ _ => true
  | .vneg _ _ _ => true
  | .vabs _ _ _ => true
  | .vmin _ _ _ _ => true
  | .vmax _ _ _ _ => true
  | .vshl _ _ _ _ => true
  | .vshr _ _ _ _ => true
  | .vand _ _ _ _ => true
  | .vor _ _ _ _ => true
  | .vxor _ _ _ _ => true
  | .vcmp _ _ _ cc => (cc != 3)
  | .vsel _ _ _ _ => true
  | .vsincos _ _ _ => true
  | .mac _ _ _ _ => true
  | .macb _ _ _ _ _ => true
  | .macx _ _ _ _ => true
  | .macy _ _ _ _ => true
  | .msub _ _ _ _ => true
  | .aclr _ _ => true
  | .accrd _ _ _ _ => true
  | .fadd _ _ _ _ => true
  | .fsub _ _ _ _ => true
  | .fmul _ _ _ _ => true
  | .fma _ _ _ _ => true
  | .fmacx _ _ _ _ => true
  | .fmacy _ _ _ _ => true
  | .fmin _ _ _ _ => true
  | .fmax _ _ _ _ => true
  | .fabs _ _ _ => true
  | .fneg _ _ _ => true
  | .fcmp _ _ _ cc => (cc != 3)
  | .fcvtQf _ _ _ _ => true
  | .fcvtFq _ _ _ _ => true
  | .frcp _ _ _ => true
  | .frsq _ _ _ => true
  | .pair _ _ _ _ _ _ => true
  | .vmov _ _ _ => true
  | .vbcast _ _ _ _ => true
  | .vperm _ _ _ fx => (fx.toNat ≤ 4)
  | .amov _ _ _ _ => true
  | .vlane _ _ _ _ => true
  | .aaddi _ _ _ _ => true
  | .ldV _ _ m => m.wf
  | .ldA _ _ m => m.wf
  | .ldL _ _ _ m => m.wf
  | .stV _ _ m => m.wf
  | .stA _ _ m => m.wf
  | .stL _ _ _ m => m.wf
  | .ldD _ r m => m.wf && (m.an.toNat ≤ 7) && (r.toNat % 2 == 0)
  | .lsD _ _ m => m.wf && (m.an.toNat ≤ 7)
  | .rpt _ _ => true
  | .rptReg _ _ _ => true
  | .hstart _ c => (c != 3)
  | .hwait _ c => (c != 3)
  | .sync _ => true
  | .endRelease _ => true
  | .br _ cond _ _ => (cond.toNat ≤ 8)
  | .call _ cond _ _ => (cond.toNat ≤ 8)
  | .ret _ cond _ => (cond.toNat ≤ 8)
  | .loop _ _ => true
  | .loopReg _ _ _ _ => true
  | .ldiA _ _ _ => true
  | .ldiL _ _ _ _ => true
  | .carrierPeriodStart _ _ _ => true
  | .setupInstant _ => true
  | .commitPoint _ _ => true
  | .portSlotStoreComplete _ => true
  | .sampleEvent _ _ _ _ _ => true
  | .feedbackSample _ _ => true
  | .comparatorTrip _ _ => true
  | .blankingEnd _ _ => true
  | .drvfltNLow _ => true
  | .delayLineCalibration _ taps => taps.length == 64
  | .portUpset _ _ => true
  | .chopperThresholdCross _ _ _ => true
  | .chopperOffTimeExpiry _ _ _ _ => true
  | .busDecimatedValue _ _ _ => true
  | .busChargedTimer _ => true
  | .busBypassTimer _ => true
  | .busUvTimer _ => true
  | .prechargeTimeout _ => true
  | .chfbTimeout _ _ => true
  | .feedbackInputChange _ _ _ _ _ _ => true
  | .chatterWindow _ _ => true
  | .inputStuckTimeout _ => true
  | .hallInvalidTimer _ => true
  | .ssiFrameStart _ _ => true
  | .ssiFrameEnd _ _ => true
  | .resolverWindow _ _ _ => true
  | .probeEdge _ _ _ _ _ => true
  | .emuUpdate _ => true
  | .compareOutputFire _ _ => true
  | .comparePulseEnd _ _ => true
  | .tollgateCycle _ _ _ _ => true
  | .siFilteredChange _ _ _ _ => true
  | .tpoPulse _ _ _ _ => true
  | .torqueOffSample => true
  | .outputWatchdogExpiry => true
  | .tgoscFaultLine => true
  | .ss1Timeout _ => true
  | .discrepancyTimer _ => true
  | .lockDelayExpiry _ => true
  | .lockFbTimeout _ => true
  | .brkfbTimeout _ => true
  | .edmTimeout _ => true
  | .soOffPulse _ _ _ => true
  | .resetStuckTimer => true
  | .brakeTestDueTimer _ => true
  | .brakeReleaseRequest _ _ => true
  | .cfgTransfer c0 c1 => decide (c0.length ≤ 65536) && decide (c1.length ≤ 65536)
  | .tgBackgroundTest _ => true
  | .tgSilent => true
  | .syncReceived _ _ _ _ => true
  | .syncTimeout => true
  | .holdoverLimit => true
  | .bmcaSelection _ _ => true
  | .announceReceived _ _ _ _ _ => true
  | .pdelayExchange _ _ => true
  | .syncTransmit _ => true
  | .ptpForeignForward _ _ _ => true
  | .transmitStamp _ _ _ _ _ _ => true
  | .ppsInEdge _ _ => true
  | .ppsOutSecond _ => true
  | .mdioLinkPoll _ _ => true
  | .preemptionVerify _ _ => true
  | .frameReceived _ _ _ _ _ _ _ => true
  | .jalutCycleStart => true
  | .jalutFramePass _ _ _ _ _ _ _ sps imgs => sps.all NetSp.wf && imgs.all MImg.wf
  | .jalutUpstreamArrival _ _ _ reps imgs => reps.all NetRep.wf && imgs.all MImg.wf
  | .jalutCycleEnd _ _ => true
  | .leaderLossCount => true
  | .jalutPacketFragment _ _ idx cnt data _ => (data.length ≤ 1468 && idx.toNat < cnt.toNat)
  | .discoveryFrame x => x.wf
  | .canFrameEnd _ f _ => f.wf
  | .canRecessiveRun _ => true
  | .canErrorDetected _ _ _ => true
  | .canTxSuccess _ _ _ => true
  | .canArbitrationLoss _ _ => true
  | .canRateCandidateTimeout _ => true
  | .canReferenceInstant _ => true
  | .canReferenceReceived _ f _ => f.wf
  | .canReferenceMissing _ => true
  | .canSlotCapture _ _ => true
  | .canWindowMark _ _ => true
  | .canTxenwinEnd _ _ => true
  | .portLAccess _ _ off _ _ _ => (off.toNat < 0x2800000 && off.toNat % 8 == 0)
  | .portSAccess _ _ off _ _ _ _ => (off.toNat < 0x2800000 && off.toNat % 8 == 0)
  | .scrubRead off _ _ _ => (off.toNat < 0x2800000)
  | .bankRelocationCopyComplete lost => lost.all (fun k => k < 81920)
  | .bankMapSwitch => true
  | .waymarkSampleIntake _ _ _ => true
  | .waymarkRecordWrite => true
  | .dieTempSample _ => true
  | .tgRailReturn => true
  | .stagingBufferWritten _ => true
  | .jtagDebugAccess op => op.wf
  | .gpioEdge _ _ _ => true

end Sys2Proof
end

