-- ==== Sys2Proof/Safety.lean ====
section
/-!
DEFINITION. The terms the statements use: what it is for a command to complete, which part of the state a command may touch, and the
invariants that every step is to keep.
-/
namespace Sys2Proof.Machine

/-- The command answers a next state, and `P` holds of it. -/
def Completes (c : Instr) (s : State) (P : State → Prop) : Prop := ∃ t, exec c s = .next t ∧ P t

/-- The command completes: while the main domain is held in reset it changes nothing (R48), and otherwise `P` holds of the next
state. -/
def Acts (c : Instr) (s : State) (P : State → Prop) : Prop := Completes c s fun t => if s.boot.inReset = true then t = s else P t

/-! ### Loop engines -/

/-- Engine `e` becomes `x`, and nothing else changes. -/
def EngineBecomes (e : Fin 24) (x : Engine) (s t : State) : Prop := t = { s with eng := upd s.eng e fun _ => x }

/-- Engine `e` queues these writes behind those already on their way, and nothing else changes. -/
def Queues (e : Fin 24) (ws : List (Nat × Write)) (s t : State) : Prop :=
  EngineBecomes e { s.eng[e] with pend := (s.eng[e]).pend ++ ws } s t

/-- A slot that issues in the middle of its word, whose codes are defined, with no ECC error in what it reads. -/
def MidWord (w : Issue) (s : State) : Prop := (s.eng[w.e]).canIssue = true ∧ w.ecc = .ok ∧ w.bad = false ∧ w.last = false

/-- The same, with a word that ends. -/
def LastSlot (w : Issue) (s : State) : Prop := (s.eng[w.e]).canIssue = true ∧ w.ecc = .ok ∧ w.bad = false ∧ w.last = true

/-- The issue of a loop-engine instruction; none for every other command. -/
def issueOf : Instr → Option Issue
  | .nop w | .sync w | .endRelease w | .vadd w .. | .vsub w .. | .vmul w .. | .vneg w .. | .vabs w .. | .vmin w .. | .vmax w ..
  | .vshl w .. | .vshr w .. | .vand w .. | .vor w .. | .vxor w .. | .vcmp w .. | .vsel w .. | .vsincos w .. | .mac w .. | .macb w ..
  | .macx w .. | .macy w .. | .msub w .. | .aclr w .. | .accrd w .. | .fadd w .. | .fsub w .. | .fmul w .. | .fma w ..
  | .fmacx w .. | .fmacy w .. | .fmin w .. | .fmax w .. | .fabs w .. | .fneg w .. | .fcmp w .. | .fcvtQf w .. | .fcvtFq w ..
  | .frcp w .. | .frsq w .. | .pair w .. | .vmov w .. | .vbcast w .. | .vperm w .. | .amov w .. | .vlane w .. | .aaddi w ..
  | .ldV w .. | .ldA w .. | .ldL w .. | .stV w .. | .stA w .. | .stL w .. | .ldD w .. | .lsD w .. | .rpt w .. | .rptReg w ..
  | .hstart w .. | .hwait w .. | .br w .. | .call w .. | .ret w .. | .loop w .. | .loopReg w .. | .ldiA w .. | .ldiL w .. => some w
  | _ => none

/-- A loop-engine instruction with its issue changed. -/
def withIssue (g : Issue → Issue) : Instr → Instr
  | .nop w => .nop (g w)
  | .sync w => .sync (g w)
  | .endRelease w => .endRelease (g w)
  | .vadd w fd fa fb => .vadd (g w) fd fa fb
  | .vsub w fd fa fb => .vsub (g w) fd fa fb
  | .vmul w fd fa fb => .vmul (g w) fd fa fb
  | .vneg w fd fa => .vneg (g w) fd fa
  | .vabs w fd fa => .vabs (g w) fd fa
  | .vmin w fd fa fb => .vmin (g w) fd fa fb
  | .vmax w fd fa fb => .vmax (g w) fd fa fb
  | .vshl w fd fa fx => .vshl (g w) fd fa fx
  | .vshr w fd fa fx => .vshr (g w) fd fa fx
  | .vand w fd fa fb => .vand (g w) fd fa fb
  | .vor w fd fa fb => .vor (g w) fd fa fb
  | .vxor w fd fa fb => .vxor (g w) fd fa fb
  | .vcmp w fa fb cc => .vcmp (g w) fa fb cc
  | .vsel w fd fa fb => .vsel (g w) fd fa fb
  | .vsincos w fd fa => .vsincos (g w) fd fa
  | .mac w n fa fb => .mac (g w) n fa fb
  | .macb w n fa fb ln => .macb (g w) n fa fb ln
  | .macx w n fb ln => .macx (g w) n fb ln
  | .macy w n fb ln => .macy (g w) n fb ln
  | .msub w n fa fb => .msub (g w) n fa fb
  | .aclr w n => .aclr (g w) n
  | .accrd w fd n sh => .accrd (g w) fd n sh
  | .fadd w fd fa fb => .fadd (g w) fd fa fb
  | .fsub w fd fa fb => .fsub (g w) fd fa fb
  | .fmul w fd fa fb => .fmul (g w) fd fa fb
  | .fma w fd fa fb => .fma (g w) fd fa fb
  | .fmacx w fd fb ln => .fmacx (g w) fd fb ln
  | .fmacy w fd fb ln => .fmacy (g w) fd fb ln
  | .fmin w fd fa fb => .fmin (g w) fd fa fb
  | .fmax w fd fa fb => .fmax (g w) fd fa fb
  | .fabs w fd fa => .fabs (g w) fd fa
  | .fneg w fd fa => .fneg (g w) fd fa
  | .fcmp w fa fb cc => .fcmp (g w) fa fb cc
  | .fcvtQf w fd fa fx => .fcvtQf (g w) fd fa fx
  | .fcvtFq w fd fa fx => .fcvtFq (g w) fd fa fx
  | .frcp w fd fa => .frcp (g w) fd fa
  | .frsq w fd fa => .frsq (g w) fd fa
  | .pair w n fd fa fb ln => .pair (g w) n fd fa fb ln
  | .vmov w fd fa => .vmov (g w) fd fa
  | .vbcast w fd fa ln => .vbcast (g w) fd fa ln
  | .vperm w fd fa fx => .vperm (g w) fd fa fx
  | .amov w ad fa ln => .amov (g w) ad fa ln
  | .vlane w fd ln aa => .vlane (g w) fd ln aa
  | .aaddi w ad aa imm => .aaddi (g w) ad aa imm
  | .ldV w r m => .ldV (g w) r m
  | .ldA w r m => .ldA (g w) r m
  | .ldL w r k m => .ldL (g w) r k m
  | .stV w r m => .stV (g w) r m
  | .stA w r m => .stA (g w) r m
  | .stL w r k m => .stL (g w) r k m
  | .ldD w r m => .ldD (g w) r m
  | .lsD w r m => .lsD (g w) r m
  | .rpt w arg => .rpt (g w) arg
  | .rptReg w an bound => .rptReg (g w) an bound
  | .hstart w c => .hstart (g w) c
  | .hwait w c => .hwait (g w) c
  | .br w cond an imm => .br (g w) cond an imm
  | .call w cond an imm => .call (g w) cond an imm
  | .ret w cond an => .ret (g w) cond an
  | .loop w imm => .loop (g w) imm
  | .loopReg w an imm bound => .loopReg (g w) an imm bound
  | .ldiA w d imm => .ldiA (g w) d imm
  | .ldiL w d ln imm => .ldiL (g w) d ln imm
  | c => c

/-- The four lanes of a result, each saturated to Q31 (R149). -/
def sat4 (f : Nat → Int) : BitVec 128 := ofLanes (satQ31 (f 0)).1 (satQ31 (f 1)).1 (satQ31 (f 2)).1 (satQ31 (f 3)).1

/-- Some lane saturates. -/
def anySat (f : Nat → Int) : Bool := (satQ31 (f 0)).2 || (satQ31 (f 1)).2 || (satQ31 (f 2)).2 || (satQ31 (f 3)).2

/-- What a saturating result queues: the register, and `FLAGS.SAT` when a lane saturates. -/
def satWrites (l : Nat) (fd : BitVec 5) (f : Nat → Int) : List (Nat × Write) :=
  (l, .v fd (sat4 f)) :: if anySat f then [(l, .flagOr 0x10#32)] else []

/-- The four lanes of a result. -/
def lanes4 (f : Nat → Word) : BitVec 128 := ofLanes (f 0) (f 1) (f 2) (f 3)

/-- What a multiply-accumulate queues: the accumulator for the next MAC-family instruction, and for `ACCRD` a cycle later. -/
def accWrites (n : BitVec 3) (f : Fin 4 → Int) : List (Nat × Write) :=
  let v : Vector (BitVec 72) 4 := Vector.ofFn fun k => BitVec.ofInt 72 (f k)
  [(1, .acc n v), (2, .accRd n v)]

/-- The pointer update that an address mode queues: none when the pointer keeps its value. -/
def ptrWrites (c : EngCtx) (n : BitVec 4) (p : Word) : List (Nat × Write) := if p = c.getA n then [] else [(1, .a n p)]

/-- An engine in the middle of a release, outside repeats, loops and delay slots, with no trigger waiting and nothing of the word in
issue left to act. -/
structure Plain (x : Engine) : Prop where
  seq : x.ctl = .seq
  rpt : x.rpt = 0
  loops : x.loops = []
  delay : x.delay = none
  waiting : x.waiting = []
  run : x.run.isSome = true
  running : x.halted = false
  load : x.wload = none
  blocked : x.wblocked = none

/-- A cycle passes and `PC` moves on by `n` bytes. -/
def Engine.stepTo (x : Engine) (n : BitVec 16) : Engine :=
  let y := ({ x with stepOne := false } : Engine).cycle1
  { y with ctx := { y.ctx with pc := x.ctx.pc + n } }

/-! ### Resets -/

/-- What every reset of the main domain leaves (Table 2.4): its logic and Crossroads at their reset values; Tollgate, the boot
directory, the fuses, the retirements and the count of resets kept. -/
structure MainReset (s t : State) : Prop where
  queue : t.pending = s.pending
  cfg : t.cfg = {}
  host : t.host = {}
  axes : t.axes = Vector.replicate 512 {}
  time : t.time = {}
  memory : t.xr.mem = []
  wm : t.wm = {}
  net : t.net = {}
  active : t.faults.table = []
  log : t.faults.crlog = {}
  inReset : t.boot.inReset = true
  stopped : t.boot.ready = false ∧ t.boot.bywayUp = false ∧ t.boot.stage = 0
  count : t.boot.rstCount = s.boot.rstCount + 1
  flash : t.boot.dirs = s.boot.dirs ∧ t.boot.slots = s.boot.slots ∧ t.tg.flash = s.tg.flash
  fuses : t.boot.rollTp = s.boot.rollTp ∧ t.boot.rollBw = s.boot.rollBw ∧ t.dbg.revoked = s.dbg.revoked
  tollgate : t.tg.st = s.tg.st ∧ t.tg.cfg = s.tg.cfg ∧ t.tg.gen = s.tg.gen ∧ t.tg.brk = s.tg.brk
    ∧ t.tg.ports.map (·.st) = s.tg.ports.map (·.st)
  retired : t.faults.portsRetired = s.faults.portsRetired ∧ t.faults.fbRetired = s.faults.fbRetired
    ∧ t.faults.enginesRetired = s.faults.enginesRetired
  torqueOff : ∀ p : Fin 64, t.ports[p] = { offRetired := (s.ports[p]).offRetired }

/-! ### Host packets -/

/-- The packet and the opcode of a host-opcode row (Tables 3.6 to 3.10, 3.28 and those of the other chapters). -/
def rowOf : Instr → Option (Packet × Nat)
  | .hello p => some (p, 0x0001)
  | .bye p => some (p, 0x0002)
  | .ping p => some (p, 0x0003)
  | .devinfo p => some (p, 0x0004)
  | .paramGet p => some (p, 0x0301)
  | .paramSet p => some (p, 0x0302)
  | .tableLoad p => some (p, 0x0303)
  | .cfgBegin p => some (p, 0x0101)
  | .cfgSet p => some (p, 0x0102)
  | .cfgGet p => some (p, 0x0103)
  | .cfgCommit p => some (p, 0x0104)
  | .cfgAbort p => some (p, 0x0105)
  | .cfgExplain p => some (p, 0x0106)
  | .axisEnable p => some (p, 0x0201)
  | .axisDisable p => some (p, 0x0202)
  | .moveAbs p => some (p, 0x0203)
  | .moveRel p => some (p, 0x0204)
  | .moveVel p => some (p, 0x0205)
  | .stop p => some (p, 0x0206)
  | .home p => some (p, 0x0207)
  | .pathAppend p => some (p, 0x0208)
  | .gearEngage p => some (p, 0x0209)
  | .gearRelease p => some (p, 0x020A)
  | .camEngage p => some (p, 0x020B)
  | .portForce p => some (p, 0x0401)
  | .portTripClear p => some (p, 0x0402)
  | .portStatus p => some (p, 0x0403)
  | .latchArm p => some (p, 0x0501)
  | .latchRead p => some (p, 0x0502)
  | .compareSet p => some (p, 0x0503)
  | .compareClear p => some (p, 0x0504)
  | .traceSetup p => some (p, 0x0601)
  | .traceStart p => some (p, 0x0602)
  | .traceStop p => some (p, 0x0603)
  | .traceRead p => some (p, 0x0604)
  | .timeGet p => some (p, 0x0701)
  | .timeStep p => some (p, 0x0702)
  | .netStatus p => some (p, 0x0703)
  | .canTxQueue p => some (p, 0x0704)
  | .canRxAck p => some (p, 0x0705)
  | .junctionForm p => some (p, 0x0706)
  | .safeStatus p => some (p, 0x0801)
  | .safeCfgLoad p => some (p, 0x0802)
  | .safeCfgConfirm p => some (p, 0x0803)
  | .brakeTest p => some (p, 0x0804)
  | .faultRead p => some (p, 0x0901)
  | .faultAck p => some (p, 0x0902)
  | .retireStatus p => some (p, 0x0903)
  | .fwBegin p => some (p, 0x0A01)
  | .fwData p => some (p, 0x0A02)
  | .fwEnd p => some (p, 0x0A03)
  | .fwActivate p => some (p, 0x0A04)
  | .lepLoad p => some (p, 0x0B01)
  | .lepInfo p => some (p, 0x0B02)
  | .dbgUnlock p => some (p, 0x0C01)
  | .tmuxSelect p => some (p, 0x0C02)
  | _ => none

/-- The same packet with the row's opcode. -/
def asOp (p : Packet) (n : Nat) : Packet := { p with opcode := BitVec.ofNat 16 n }

/-- A packet with opcode `n` that reaches step 12 at once (Table 3.3): the device serves packets, the packet is neither grouped nor
timed, no group of its queue is open, steps 10 and 11 pass, its tag is free, and fewer than 256 commands await completion. No
command of its queue still owes a synchronous reply (R86), and no axis has a disable still to take effect, as between any two commands. -/
structure Served (p : Packet) (n : Nat) (s : State) : Prop where
  serving : s.serving = true
  plain : p.flags.getLsbD 1 = false ∧ p.flags.getLsbD 2 = false
  noGroup : s.host.groups.all (fun g => g.1 != p.src) = true
  noForward : s.host.fwdGroups.all (fun g => g.1 != p.src) = true
  passes : s.check10 (asOp p n) = .ok ()
  tag : n = 1 ∨ s.tagUsed (asOp p n) = false
  settled : ∀ i : Fin 512, (s.axes[i]).dropNow = false
  room : s.awaitCount (asOp p n) < 256
  unblocked : s.blocked p.src = false

/-- The command of a packet completes with `P` on every state that becomes `s` once the packet has restarted the timeout of its session
(R105). -/
def Sends (c : Instr) (p : Packet) (s : State) (P : State → Prop) : Prop := ∀ s₀ : State, s₀.keepAlive p.src = s → Acts c s₀ P

/-- `t` is `u` after the reply to the packet, as R82 and R83 send it (`State.replyWith`). -/
def Replied (p : Packet) (n : Nat) (s : State) (st : Status) (det : Nat) (body : List Byte) (u t : State) : Prop :=
  t = (s.replyWith (asOp p n) { st := st, det := det, body := body, s := u } false).noteDevstat

/-- The packet is answered `OK`, and its effect is `u`. -/
def Ok (p : Packet) (n : Nat) (s u t : State) : Prop := Replied p n s .ok 0 [] u t

/-- The packet is answered `OK` with reply fields, and changes nothing else. -/
def Tells (p : Packet) (n : Nat) (s : State) (body : List Byte) (t : State) : Prop := Replied p n s .ok 0 body s t

/-- The packet is accepted: its effect is `u`, and its tag is in use until its completion (R84, R85). -/
def Accepted (p : Packet) (n : Nat) (s u t : State) : Prop := Replied p n s .accepted 0 [] (u.await (asOp p n)) t

/-- The packet is refused and changes nothing else. -/
def Refused (p : Packet) (n : Nat) (s : State) (st : Status) (det : Nat) (t : State) : Prop := Replied p n s st det [] s t

/-! ### Line time -/

/-- `t` is `s` with line time stepped by `d` units of 2⁻¹⁶ ns (R429): what a running motion has taken over, the mailboxes and the
differences of the next sample record move with it; positions, recorded probe edges and milestones keep their values. -/
structure Stepped (d : Int) (s t : State) : Prop where
  counter : t.time.fine = s.time.fine + d
  fields : t.time.ns < 1000000000 ∧ t.time.frac < 65536
  unit : { t.time with sec := s.time.sec, ns := s.time.ns, frac := s.time.frac } = s.time
  plans : ∀ i : Fin 512, (t.axes[i]).prof.plan.t0 = (s.axes[i]).prof.plan.t0 + (d : Rat) / 65536
  schedules : ∀ (i : Fin 512) (k : Fin 4), ((t.axes[i]).compares[k]).sched =
    ((s.axes[i]).compares[k]).sched.map fun x => (x.1 + (d : Rat) / 65536, x.2)
  records : ∀ p : Fin 64, (t.ports[p]).prevExtT = (((s.ports[p]).prevExtT : Int) + d / 65536).toNat
    ∧ (t.ports[p]).appliedT = (((s.ports[p]).appliedT : Int) + d / 65536).toNat
  boxes : s.xr.mem.wf = true → s.xr.retired = none ∨ s.xr.reloc = none → ∀ (i : Fin 512) (k : Fin 2), let a := spBox i.val + 16 + k.val * 48
    let v : Nat := leNat (s.xr.read a 8)
    0 ≤ (v : Int) + d / 65536 → (v : Int) + d / 65536 < 2 ^ 64 →
    (leNat (t.xr.read a 8) : Int) = if v = 0 then 0 else (v : Int) + d / 65536
  positions : ∀ i : Fin 512, (t.axes[i]).st = (s.axes[i]).st ∧ (t.axes[i]).prof.cmdPos = (s.axes[i]).prof.cmdPos
    ∧ (t.axes[i]).prof.cmdVel = (s.axes[i]).prof.cmdVel ∧ (t.axes[i]).home = (s.axes[i]).home
  stamps : t.probes = s.probes ∧ ∀ (i : Fin 512) (k : Fin 4), ((t.axes[i]).latches[k]).stones = ((s.axes[i]).latches[k]).stones
  timed : t.host.timed = s.host.timed

/-! ### What every step keeps -/

/-- The fields of line time are in their ranges (R6, R414), and every memory keeps its canonical form: addresses strictly rising, no
byte listed that is the value an unlisted byte reads as. -/
structure Inv (s : State) : Prop where
  time : s.time.ns < 1000000000 ∧ s.time.frac < 2 ^ 16 ∧ s.time.ext < 2 ^ 24
  crossroads : s.xr.mem.wf = true
  engines : ∀ e : Fin 24, (s.eng[e]).plm.wf = true ∧ (s.eng[e]).clmX.wf = true ∧ (s.eng[e]).clmY.wf = true ∧ (s.eng[e]).dlm.wf = true

end Sys2Proof.Machine
end

