-- ==== Sys2Proof/Certificates/Slice0/Obligations.lean ====
section
/-!
DEFINITION. The statements for the provers.
-/
open Sys2Proof Sys2Proof.Machine

/-! ### Loop engines (chapter 5) -/

/-- R149, Table 5.7: the Q31 instructions act lane by lane on their sources as read at issue, saturate, set `FLAGS.SAT` with a
saturating result, and their results land after one cycle, those of `VMUL` after two.

R150, Table 5.7: the FP32 instructions and `VSINCOS` act lane by lane and land after their latencies; `FCVT.FQ` and `VSINCOS`
saturate.

The values of `FRCP`, `FRSQ` and `VSINCOS` within their error bounds are the model's choice (log 20). -/
def Obligations.VectorLanes : Prop :=
  (
    ∀ (w : Issue) (fd fa fb fx : BitVec 5) (cc : BitVec 2) (s : State), MidWord w s → cc ≠ 3#2 →
      let c := (s.eng[w.e]).ctx
      let a (k : Nat) : Int := (lane (c.getV fa) k).toInt
      let b (k : Nat) : Int := (lane (c.getV fb) k).toInt
      let q := Queues w.e
      Acts (.vadd w fd fa fb) s (q (satWrites 1 fd fun k => a k + b k) s)
      ∧ Acts (.vsub w fd fa fb) s (q (satWrites 1 fd fun k => a k - b k) s)
      ∧ Acts (.vmul w fd fa fb) s (q (satWrites 2 fd fun k => (a k * b k + 2 ^ 30) / 2 ^ 31) s)
      ∧ Acts (.vneg w fd fa) s (q (satWrites 1 fd fun k => -a k) s)
      ∧ Acts (.vabs w fd fa) s (q (satWrites 1 fd fun k => if a k < 0 then -a k else a k) s)
      ∧ Acts (.vmin w fd fa fb) s (q [(1, .v fd (lanes4 fun k => BitVec.ofInt 32 (min (a k) (b k))))] s)
      ∧ Acts (.vmax w fd fa fb) s (q [(1, .v fd (lanes4 fun k => BitVec.ofInt 32 (max (a k) (b k))))] s)
      ∧ Acts (.vshl w fd fa fx) s (q (satWrites 1 fd fun k => a k * 2 ^ fx.toNat) s)
      ∧ Acts (.vshr w fd fa fx) s (q [(1, .v fd (lanes4 fun k => BitVec.ofInt 32 (a k / 2 ^ fx.toNat)))] s)
      ∧ Acts (.vand w fd fa fb) s (q [(1, .v fd (c.getV fa &&& c.getV fb))] s)
      ∧ Acts (.vor w fd fa fb) s (q [(1, .v fd (c.getV fa ||| c.getV fb))] s)
      ∧ Acts (.vxor w fd fa fb) s (q [(1, .v fd (c.getV fa ^^^ c.getV fb))] s)
      ∧ Acts (.vsel w fd fa fb) s
          (q [(1, .v fd (lanes4 fun k => if c.flags.getLsbD k then lane (c.getV fa) k else lane (c.getV fb) k))] s)
      ∧ Acts (.vcmp w fa fb cc) s (fun t => ∃ f : BitVec 4, Queues w.e [(1, .flagF f)] s t ∧ ∀ k : Fin 4,
          f.getLsbD k = if cc = 0#2 then decide (b k < a k) else if cc = 1#2 then decide (b k ≤ a k) else decide (a k = b k)))
  ∧ (
    ∀ (w : Issue) (fd fa fb fx : BitVec 5) (cc : BitVec 2) (s : State), MidWord w s → cc ≠ 3#2 →
      let c := (s.eng[w.e]).ctx
      let a (k : Nat) := lane (c.getV fa) k
      let b (k : Nat) := lane (c.getV fb) k
      let put (l : Nat) (f : Nat → Word) := Queues w.e [(l, .v fd (lanes4 f))] s
      Acts (.fadd w fd fa fb) s (put 4 fun k => fadd (a k) (b k))
      ∧ Acts (.fsub w fd fa fb) s (put 4 fun k => fsub (a k) (b k))
      ∧ Acts (.fmul w fd fa fb) s (put 4 fun k => fmul (a k) (b k))
      ∧ Acts (.fma w fd fa fb) s (put 4 fun k => fma (lane (c.getV fd) k) (a k) (b k))
      ∧ Acts (.fmin w fd fa fb) s (put 4 fun k => fmin (a k) (b k))
      ∧ Acts (.fmax w fd fa fb) s (put 4 fun k => fmax (a k) (b k))
      ∧ Acts (.fabs w fd fa) s (put 1 fun k => fabs (a k))
      ∧ Acts (.fneg w fd fa) s (put 1 fun k => fneg (a k))
      ∧ Acts (.fcvtQf w fd fa fx) s (put 2 fun k => fcvtQF (a k) fx.toNat)
      ∧ Acts (.frcp w fd fa) s (put 6 fun k => frcp (a k))
      ∧ Acts (.frsq w fd fa) s (put 6 fun k => frsq (a k))
      ∧ Acts (.vsincos w fd fa) s (Queues w.e ((6, .v fd (vsincos (a 0)).1) ::
          if (vsincos (a 0)).2 then [(6, .flagOr 0x10#32)] else []) s)
      ∧ Acts (.fcvtFq w fd fa fx) s (Queues w.e ((2, .v fd (lanes4 fun k => (fcvtFQ (a k) fx.toNat).1)) ::
          if (List.range 4).any (fun k => (fcvtFQ (a k) fx.toNat).2) then [(2, .flagOr 0x10#32)] else []) s)
      ∧ Acts (.fcmp w fa fb cc) s (fun t => ∃ f : BitVec 4, Queues w.e [(1, .flagF f)] s t ∧
          ∀ k : Fin 4, f.getLsbD k = fcmp cc.toNat (a k) (b k)))

/-- Table 5.7, R149: `MAC`, `MSUB`, `MACB` and `ACLR` change the accumulator that the next MAC-family instruction reads after one
cycle and `ACCRD` after two, wrapping at 72 bits; `ACCRD` rounds, shifts and saturates.

Table 5.7, Table 5.8, Table 5.10: the moves and the long immediates. -/
def Obligations.AccumulatorsAndMoves : Prop :=
  (
    ∀ (w : Issue) (n sh : BitVec 3) (fd fa fb : BitVec 5) (ln : BitVec 2) (s : State), MidWord w s →
      let c := (s.eng[w.e]).ctx
      let a (k : Nat) : Int := (lane (c.getV fa) k).toInt
      let b (k : Nat) : Int := (lane (c.getV fb) k).toInt
      let acc (k : Fin 4) : Int := (c.getAcc n k).toInt
      Acts (.mac w n fa fb) s (Queues w.e (accWrites n fun k => acc k + a k * b k) s)
      ∧ Acts (.msub w n fa fb) s (Queues w.e (accWrites n fun k => acc k - a k * b k) s)
      ∧ Acts (.macb w n fa fb ln) s (Queues w.e (accWrites n fun k => acc k + a k * b ln.toNat) s)
      ∧ Acts (.aclr w n) s (Queues w.e (accWrites n fun _ => 0) s)
      ∧ Acts (.accrd w fd n sh) s (Queues w.e
          (satWrites 2 fd fun k => ((c.getAccRd n ⟨k % 4, Nat.mod_lt _ (by decide)⟩).toInt + 2 ^ (30 - sh.toNat)) / 2 ^ (31 - sh.toNat)) s))
  ∧ (
    ∀ (w : Issue) (fd fa fx : BitVec 5) (ad aa : BitVec 4) (ln : BitVec 2) (i10 : BitVec 10) (imm : Word) (s : State),
      MidWord w s → fx.toNat ≤ 4 →
      let c := (s.eng[w.e]).ctx
      let v := c.getV fa
      let src : List Nat := [[1, 0, 3, 2], [2, 3, 0, 1], [3, 2, 1, 0], [0, 0, 2, 2], [1, 1, 3, 3]].getD fx.toNat []
      Acts (.vmov w fd fa) s (Queues w.e [(1, .v fd v)] s)
      ∧ Acts (.vbcast w fd fa ln) s (Queues w.e [(1, .v fd (lanes4 fun _ => lane v ln.toNat))] s)
      ∧ Acts (.vperm w fd fa fx) s (Queues w.e [(1, .v fd (lanes4 fun k => lane v (src.getD k 0)))] s)
      ∧ Acts (.amov w ad fa ln) s (Queues w.e [(1, .a ad (lane v ln.toNat))] s)
      ∧ Acts (.vlane w fd ln aa) s (Queues w.e [(1, .lane fd ln (c.getA aa))] s)
      ∧ Acts (.aaddi w ad aa i10) s (Queues w.e [(1, .a ad (BitVec.ofInt 32 ((c.getA aa).toInt + i10.toInt)))] s)
      ∧ Acts (.ldiA w ad imm) s (Queues w.e [(1, .a ad imm)] s)
      ∧ Acts (.ldiL w fd ln imm) s (Queues w.e [(1, .lane fd ln imm)] s))

/-- R158: with `a14` and `a15` in CLM X and CLM Y, `MACX`, `MACY`, `FMACX`, `FMACY` and `PAIR` read the 128-bit word at their stream
pointer, move the pointer on by 16, and use the word as their operand. -/
def Obligations.Streams : Prop :=
  ∀ (w : Issue) (n : BitVec 3) (fd fa fb : BitVec 5) (ln : BitVec 2) (s : State), MidWord w s →
    let x := s.eng[w.e]
    let c := x.ctx
    let px := (c.getA 14#4).toNat / 16 * 16
    let py := (c.getA 15#4).toNat / 16 * 16
    (0x20000 ≤ px ∧ px < 0x28000) → (0x28000 ≤ py ∧ py < 0x30000) →
    let cx := BitVec.ofNat 128 (leNat (x.clmX.readN (px - 0x20000) 16))
    let cy := BitVec.ofNat 128 (leNat (x.clmY.readN (py - 0x28000) 16))
    let nextX : Nat × Write := (1, .a 14#4 (c.getA 14#4 + 16#32))
    let nextY : Nat × Write := (1, .a 15#4 (c.getA 15#4 + 16#32))
    let mac (m : BitVec 128) := accWrites n fun k => (c.getAcc n k).toInt + (lane m k).toInt * (lane (c.getV fb) ln.toNat).toInt
    let fm (m : BitVec 128) (g : BitVec 5) : Nat × Write :=
      (4, .v fd (lanes4 fun k => fma (lane (c.getV fd) k) (lane m k) (lane (c.getV g) ln.toNat)))
    Acts (.macx w n fb ln) s (Queues w.e (nextX :: mac cx) s)
    ∧ Acts (.macy w n fb ln) s (Queues w.e (nextY :: mac cy) s)
    ∧ Acts (.fmacx w fd fb ln) s (Queues w.e [nextX, fm cx fb] s)
    ∧ Acts (.fmacy w fd fb ln) s (Queues w.e [nextY, fm cy fb] s)
    ∧ Acts (.pair w n fd fa fb ln) s (Queues w.e ([nextX, nextY] ++ mac cx ++ [fm cy fa]) s)

/-- Table 5.9, R151, R156, R160: loads. The bytes at the address that the mode forms land after four cycles; address bits below the
element size count as zero; outside what the form reaches a load reads zero and sets `FLAGS.ADDR`; a window load is outstanding until
its data returns.

Table 5.9, R151, R154 to R156, R172: stores. A DLM store lands after its issue cycle, so a load of the same cycle reads the old
bytes; a control-block store takes effect two cycles later; a port-slot store and a window store wait in their buffers; elsewhere the
write is discarded and `FLAGS.ADDR` sets.

R157: a step shorter than the buffer leaves a circular pointer that lies inside its buffer inside it.

That pointer updates take one cycle and that `LS.D` reads its store data at issue are the model's readings (log 10). -/
def Obligations.LoadsAndStores : Prop :=
  (
    ∀ (w : Issue) (r : BitVec 5) (ra : BitVec 4) (k : BitVec 2) (m : MemOp) (s : State), MidWord w s →
      let x := s.eng[w.e]
      let c := x.ctx
      let flag : Nat × Write := (1, .flagOr 0x20#32)
      (∀ addr p, c.address m m.an m.an 16 = some (addr, p) →
        let a := addr / 16 * 16
        let q := fun ws => Queues w.e (ws ++ ptrWrites c m.an p) s
        (a < 0x20000 → Acts (.ldV w r m) s (q [(4, .v r (BitVec.ofNat 128 (leNat (x.dlm.readN a 16))))]))
        ∧ ((0x20000 ≤ a ∧ a < 0x30000 ∨ 0x31000 ≤ a ∧ a < 0x40000 ∨ 0x41000 ≤ a ∧ a < 0x80000 ∨ 0xC0000 ≤ a) →
            Acts (.ldV w r m) s (q [flag, (4, .v r 0)]))
        ∧ ((0x30000 ≤ a ∧ a < 0x31000) →
            Acts (.ldV w r m) s (q [(4, .v r (lanes4 fun j => x.ctrlRead (a - 0x30000 + 4 * j)))]))
        ∧ (∀ i, 0x40000 ≤ a → a < 0x41000 → x.slotPort ((a - 0x40000) / 256) = some i →
            Acts (.ldV w r m) s (q [(4, .v r (lanes4 fun j => (s.ports[i]).slotRead ((a - 0x40000) % 256 + 4 * j)))]))
        ∧ ((0x80000 ≤ a ∧ a < 0xC0000) → Acts (.ldV w r m) s fun t => ∃ b : Word,
            b = c.wbase[(⟨(a - 0x80000) / 0x10000 % 4, by omega⟩ : Fin 4)] ∧
            EngineBecomes w.e { x with
              pend := x.pend ++ ptrWrites c m.an p
              wload := some { en := b.getLsbD 0, off := b.toNat / 4096 * 4096 + (a - 0x80000) % 0x10000, size := 16, dst := .v r 0 } } s t))
      ∧ (∀ addr p, c.address m m.an m.an 4 = some (addr, p) →
        let a := addr / 4 * 4
        let q := fun ws => Queues w.e (ws ++ ptrWrites c m.an p) s
        let word := BitVec.ofNat 32 (leNat (x.dlm.readN a 4))
        (a < 0x20000 → Acts (.ldA w ra m) s (q [(4, .a ra word)]) ∧ Acts (.ldL w r k m) s (q [(4, .lane r k word)]))
        ∧ ((0x20000 ≤ a ∧ a < 0x30000 ∨ 0x31000 ≤ a ∧ a < 0x40000 ∨ 0x41000 ≤ a ∧ a < 0x80000 ∨ 0xC0000 ≤ a) →
            Acts (.ldA w ra m) s (q [flag, (4, .a ra 0)]) ∧ Acts (.ldL w r k m) s (q [flag, (4, .lane r k 0)]))
        ∧ ((0x80000 ≤ a ∧ a < 0xC0000) → Acts (.ldL w r k m) s (q [flag, (4, .lane r k 0)]))
        ∧ ((0x30000 ≤ a ∧ a < 0x31000) → Acts (.ldA w ra m) s (q [(4, .a ra (x.ctrlRead (a - 0x30000)))])
            ∧ Acts (.ldL w r k m) s (q [(4, .lane r k (x.ctrlRead (a - 0x30000)))]))
        ∧ (∀ i, 0x40000 ≤ a → a < 0x41000 → x.slotPort ((a - 0x40000) / 256) = some i →
            let u := (s.ports[i]).slotRead ((a - 0x40000) % 256)
            Acts (.ldA w ra m) s (q [(4, .a ra u)]) ∧ Acts (.ldL w r k m) s (q [(4, .lane r k u)]))
        ∧ ((0x80000 ≤ a ∧ a < 0xC0000) → Acts (.ldA w ra m) s fun t => ∃ b : Word,
            b = c.wbase[(⟨(a - 0x80000) / 0x10000 % 4, by omega⟩ : Fin 4)] ∧
            EngineBecomes w.e { x with
              pend := x.pend ++ ptrWrites c m.an p
              wload := some { en := b.getLsbD 0, off := b.toNat / 4096 * 4096 + (a - 0x80000) % 0x10000, size := 4, dst := .a ra 0 } } s t))
      ∧ (∀ a1 p1 a2 p2, m.an.toNat < 8 → r.getLsbD 0 = false → c.address m m.an m.an 16 = some (a1, p1) →
        c.address m (m.an + 8#4) m.an 16 = some (a2, p2) →
        let d (a : Nat) (r : BitVec 5) : List (Nat × Write) :=
          if a / 16 * 16 < 0x20000 then [(4, .v r (BitVec.ofNat 128 (leNat (x.dlm.readN (a / 16 * 16) 16))))] else [flag, (4, .v r 0)]
        Acts (.ldD w r m) s
          (Queues w.e (d a1 r ++ d a2 (r + 1#5) ++ ptrWrites c m.an p1 ++ ptrWrites c (m.an + 8#4) p2) s)))
  ∧ (
    ∀ (w : Issue) (r : BitVec 5) (ra : BitVec 4) (k : BitVec 2) (m : MemOp) (s : State), MidWord w s →
      let x := s.eng[w.e]
      let c := x.ctx
      let flag : Nat × Write := (1, .flagOr 0x20#32)
      let slots (p : Word) (n : BitVec 4) (a : Nat) (bs : List Byte) := EngineBecomes w.e { x with
        pend := x.pend ++ ptrWrites c n p, pstores := x.pstores ++ [(a, bs)] } s
      (∀ addr p, c.address m m.an m.an 16 = some (addr, p) →
        let a := addr / 16 * 16
        let q := fun ws => Queues w.e (ws ++ ptrWrites c m.an p) s
        let bs := leBytes 16 (c.getV r).toNat
        (a < 0x20000 → Acts (.stV w r m) s (q [(1, .dlm a bs)]))
        ∧ ((0x30000 ≤ a ∧ a < 0x31000) → Acts (.stV w r m) s
            (q ((List.range 4).map fun j => (2, .ctrl (a - 0x30000 + 4 * j) (lane (c.getV r) j)))))
        ∧ ((0x40000 ≤ a ∧ a < 0x41000) → Acts (.stV w r m) s (slots p m.an (a - 0x40000) bs))
        ∧ ((0x20000 ≤ a ∧ a < 0x30000 ∨ 0x31000 ≤ a ∧ a < 0x40000 ∨ 0x41000 ≤ a ∧ a < 0x80000 ∨ 0xC0000 ≤ a) →
            Acts (.stV w r m) s (q [flag]))
        ∧ ((0x80000 ≤ a ∧ a < 0xC0000) →
            let b : Word := c.wbase[(⟨(a - 0x80000) / 0x10000 % 4, by omega⟩ : Fin 4)]
            let o := b.toNat / 4096 * 4096 + (a - 0x80000) % 0x10000
            (b.getLsbD 0 = true → x.wbuf.length < 4 → Acts (.stV w r m) s (EngineBecomes w.e { x with
              pend := x.pend ++ ptrWrites c m.an p, wbuf := x.wbuf ++ [(o, bs)] } s))
            ∧ (b.getLsbD 0 = true → 4 ≤ x.wbuf.length → Acts (.stV w r m) s (EngineBecomes w.e { x with
              pend := x.pend ++ ptrWrites c m.an p, wblocked := some (o, bs) } s))
            ∧ (b.getLsbD 0 = false → Acts (.stV w r m) s fun t =>
                t = ((s.xrViolation w.e.val o true).updEng w.e fun y => y.postUpdate m.an p))))
      ∧ (∀ addr p, c.address m m.an m.an 4 = some (addr, p) →
        let a := addr / 4 * 4
        let q := fun ws => Queues w.e (ws ++ ptrWrites c m.an p) s
        let ba := leBytes 4 (c.getA ra).toNat
        let bl := leBytes 4 (lane (c.getV r) k.toNat).toNat
        (a < 0x20000 → Acts (.stA w ra m) s (q [(1, .dlm a ba)]) ∧ Acts (.stL w r k m) s (q [(1, .dlm a bl)]))
        ∧ ((0x30000 ≤ a ∧ a < 0x31000) → Acts (.stA w ra m) s (q [(2, .ctrl (a - 0x30000) (c.getA ra))])
            ∧ Acts (.stL w r k m) s (q [(2, .ctrl (a - 0x30000) (lane (c.getV r) k.toNat))]))
        ∧ ((0x40000 ≤ a ∧ a < 0x41000) → Acts (.stA w ra m) s (slots p m.an (a - 0x40000) ba)
            ∧ Acts (.stL w r k m) s (slots p m.an (a - 0x40000) bl))
        ∧ ((0x80000 ≤ a ∧ a < 0xC0000) → Acts (.stL w r k m) s (q [flag])
            ∧ (∀ b : Word, b = c.wbase[(⟨(a - 0x80000) / 0x10000 % 4, by omega⟩ : Fin 4)] → b.getLsbD 0 = true → x.wbuf.length < 4 →
              Acts (.stA w ra m) s (EngineBecomes w.e { x with
                pend := x.pend ++ ptrWrites c m.an p
                wbuf := x.wbuf ++ [(b.toNat / 4096 * 4096 + (a - 0x80000) % 0x10000, ba)] } s)))
        ∧ ((0x20000 ≤ a ∧ a < 0x30000 ∨ 0x31000 ≤ a ∧ a < 0x40000 ∨ 0x41000 ≤ a ∧ a < 0x80000 ∨ 0xC0000 ≤ a) →
            Acts (.stA w ra m) s (q [flag]) ∧ Acts (.stL w r k m) s (q [flag])))
      ∧ (∀ a1 p1 a2 p2, m.an.toNat < 8 → r ≠ 31#5 → c.address m m.an m.an 16 = some (a1, p1) →
        c.address m (m.an + 8#4) m.an 16 = some (a2, p2) → a1 / 16 * 16 < 0x20000 → a2 / 16 * 16 < 0x20000 →
        Acts (.lsD w r m) s
          (Queues w.e ((4, .v r (BitVec.ofNat 128 (leNat (x.dlm.readN (a1 / 16 * 16) 16))))
            :: (1, .dlm (a2 / 16 * 16) (leBytes 16 (c.getV (r + 1#5)).toNat)) :: ptrWrites c m.an p1 ++ ptrWrites c (m.an + 8#4) p2) s)))
  ∧ (
    ∀ (c : EngCtx) (m : MemOp) (size addr : Nat) (p : Word),
      let n := m.an
      let b := (c.cb[(⟨n.toNat % 8, by omega⟩ : Fin 8)]).toNat
      let l := (c.cl[(⟨n.toNat % 8, by omega⟩ : Fin 8)]).toNat
      m.mode = 4#3 → n.toNat < 8 → b + l ≤ 2 ^ 32 → b ≤ (c.getA n).toNat → (c.getA n).toNat < b + l →
      (m.off.toInt * size).natAbs < l → c.address m n n size = some (addr, p) →
      addr = (c.getA n).toNat ∧ b ≤ p.toNat ∧ p.toNat < b + l)

/-- Table 5.10, R159, R161, R162, R179: control words at their end, outside repeats, loops and delay slots.

R159, R161, R162: repeats, delay slots and loops move `PC`: a repeated word runs again until its count is used up; the two words
after a branch execute before the target; a body runs its count of times, bodies that end on one word closing innermost first. -/
def Obligations.ControlWords : Prop :=
  (
    ∀ (w : Issue) (n8 : BitVec 8) (an cond : BitVec 4) (imm : BitVec 24) (bound : BitVec 16) (s : State),
      let x := s.eng[w.e]
      let next := x.stepTo 8#16
      let body := BitVec.ofNat 16 (8 * (imm.toNat / 65536 + 1))
      let count := min (x.ctx.getA an).toNat bound.toNat
      let loop (n : Nat) : Engine := { next with loops := [{ start := x.ctx.pc + 8#16, last := x.ctx.pc + body, left := n }] }
      let branch (t : Option (BitVec 16)) : Engine := { next with delay := some (2, t) }
      let target := x.ctx.pc + BitVec.ofInt 16 (8 * imm.toInt)
      LastSlot w s → Plain x → cond.toNat ≤ 8 →
      Acts (.nop w) s (EngineBecomes w.e next s)
      ∧ Acts (.rpt w n8) s (EngineBecomes w.e { next with rpt := n8.toNat + 1 } s)
      ∧ (count ≠ 0 → Acts (.rptReg w an bound) s (EngineBecomes w.e { next with rpt := count } s))
      ∧ (count = 0 → Acts (.rptReg w an bound) s (EngineBecomes w.e (x.stepTo 16#16) s))
      ∧ Acts (.loop w imm) s (EngineBecomes w.e (loop (imm.toNat % 65536 + 1)) s)
      ∧ (count ≠ 0 → Acts (.loopReg w an imm bound) s (EngineBecomes w.e (loop count) s))
      ∧ (count = 0 → Acts (.loopReg w an imm bound) s (EngineBecomes w.e (x.stepTo (8#16 + body)) s))
      ∧ (x.ctx.cond cond an = some true →
        Acts (.br w cond an imm) s (EngineBecomes w.e (branch (some target)) s)
        ∧ (x.ctx.rstack.length < 4 → Acts (.call w cond an imm) s (EngineBecomes w.e
            { branch (some target) with ctx := { next.ctx with rstack := (x.ctx.pc + 24#16) :: x.ctx.rstack } } s))
        ∧ (4 ≤ x.ctx.rstack.length → Acts (.call w cond an imm) s fun t => ∃ y : Engine, y.ctx = x.ctx ∧
            t = ({ s with eng := upd s.eng w.e fun _ => y }).trap w.e 3)
        ∧ (∀ a as, x.ctx.rstack = a :: as → Acts (.ret w cond an) s (EngineBecomes w.e
            { branch (some a) with ctx := { next.ctx with rstack := as } } s))
        ∧ (x.ctx.rstack = [] → Acts (.ret w cond an) s fun t => ∃ y : Engine, y.ctx = x.ctx ∧
            t = ({ s with eng := upd s.eng w.e fun _ => y }).trap w.e 3))
      ∧ (x.ctx.cond cond an = some false → Acts (.br w cond an imm) s (EngineBecomes w.e (branch none) s)
        ∧ Acts (.call w cond an imm) s (EngineBecomes w.e (branch none) s)
        ∧ Acts (.ret w cond an) s (EngineBecomes w.e (branch none) s)))
  ∧ (
    ∀ (x : Engine) (n : Nat) (t : BitVec 16) (l : LoopRec) (ls : List LoopRec),
      let pc (y : Engine) := y.ctx.pc
      (x.rpt = n + 2 → pc x.advance = pc x ∧ x.advance.rpt = n + 1)
      ∧ (x.rpt ≤ 1 → x.delay = some (2, some t) → pc x.advance = pc x + 8#16 ∧ x.advance.delay = some (1, some t))
      ∧ (x.rpt ≤ 1 → x.delay = some (1, some t) → pc x.advance = t ∧ x.advance.delay = none)
      ∧ (x.rpt ≤ 1 → x.delay = some (1, none) → pc x.advance = pc x + 8#16 ∧ x.advance.delay = none)
      ∧ (x.rpt ≤ 1 → x.delay = none → x.loops = l :: ls →
        (l.last ≠ pc x → pc x.advance = pc x + 8#16 ∧ x.advance.loops = x.loops)
        ∧ (l.last = pc x → 1 < l.left → pc x.advance = l.start ∧ x.advance.loops = { l with left := l.left - 1 } :: ls)
        ∧ (l.last = pc x → l.left ≤ 1 → x.advance = ({ x with rpt := 0, loops := ls } : Engine).advance)))

/-- Table 5.10, R173, R174: `HSTART` queues the transfer of its channel as the channel registers stand and sets `BUSY`; a second start
or a start while busy, and one beyond the haul budget, set their errors and start nothing.

R171 to R174: the haul unit moves the words of its oldest transfer and ends it on its channel; a refused word stops it.

R171, R172: a window load returns once every earlier window store has been written, and ends its word; the oldest buffered store
reaches Crossroads, and a store that found the buffer full takes its place.

The error of a start on a full queue is the model's choice (log 101), and that an end is marked in the context of the release that
started it its reading (log 11). -/
def Obligations.HaulUnit : Prop :=
  (
    ∀ (w : Issue) (c : Fin 3) (s : State) (r : Release) (t : Task), MidWord w s →
      let x := s.eng[w.e]
      let n := (x.ctx.hlen[c]).toNat % 8192
      x.run = some r → x.table[r.rank]? = some t →
      let h := x.ctx.hstat[c]
      let ended (m : Word) := Acts (.hstart w (BitVec.ofNat 2 c.val)) s (EngineBecomes w.e { x with
        ctx := { x.ctx with
          hstat := x.ctx.hstat.set c (((h ||| m) ||| 2#32) &&& ~~~1#32), hset := x.ctx.hset.set c ((x.ctx.hset[c] ||| m) ||| 2#32) } } s)
      let again := r.started / 2 ^ c.val % 2 = 1 ∨ h.getLsbD 0 = true ∨ 128 ≤ x.queue.length
      (again → ended 0x10#32)
      ∧ (¬ again → t.haul < r.haulUsed + n → ended 0x08#32)
      ∧ (¬ again → r.haulUsed + n ≤ t.haul → Acts (.hstart w (BitVec.ofNat 2 c.val)) s (EngineBecomes w.e { x with
          ctx := { x.ctx with hstat := x.ctx.hstat.set c ((h ||| 1#32) &&& ~~~2#32), hset := x.ctx.hset.set c 0#32 }
          run := some { r with haulUsed := r.haulUsed + n, started := r.started ||| 2 ^ c.val }
          queue := x.queue ++ [{ rank := r.rank, chan := some c, src := (x.ctx.hsrc[c]).toNat / 8 * 8,
                                 dst := (x.ctx.hdst[c]).toNat / 8 * 8, words := n, toXr := (x.ctx.hlen[c]).getLsbD 15 }] } s)))
  ∧ (
    ∀ (e : Fin 24) (c : BitVec 16) (k : Fin 3) (s : State) (t : Transfer) (ts : List Transfer),
      let x := s.eng[e]
      let h := x.ctx.hstat[k]
      x.queue = t :: ts → t.chan = some k → x.role ≠ .retired → x.preempted = [] → x.stall = .none →
      s.xr.bad = [] → s.xr.mem.wf = true → x.dlm.wf = true →
      let ends (u : State) (err : Word) := (u.eng[e]).queue = ts
        ∧ (u.eng[e]).ctx = { x.ctx with
            hstat := x.ctx.hstat.set k (((h ||| 2#32) ||| err) &&& ~~~1#32), hset := x.ctx.hset.set k ((x.ctx.hset[k] ||| 2#32) ||| err) }
        ∧ ∀ f, f ≠ e → u.eng[f] = s.eng[f]
      (t.toXr = false → (∀ j, j < t.words → s.xr.permitted e.val (t.src + 8 * j) 8 false = true) → t.dst + 8 * t.words ≤ 0x20000 →
        Acts (.haulTransferComplete e [] [] c) s fun u => ends u 0 ∧ u = { s with eng := u.eng } ∧
          ∀ a, let o := t.src + (a - t.dst)
            (u.eng[e]).dlm.read a = if t.dst ≤ a ∧ a < t.dst + 8 * t.words then (s.heldByte o).getD (s.xr.mem.read (s.xr.phys o))
              else x.dlm.read a)
      ∧ (t.toXr = true → s.xr.retired = none → s.xr.reloc = none → t.src + 8 * t.words ≤ 0x20000 →
        (∀ j, j < t.words → s.xr.permitted e.val (t.dst + 8 * j) 8 true = true) →
        Acts (.haulTransferComplete e [] [] c) s fun u => ends u 0 ∧ u = { s with eng := u.eng, xr := u.xr } ∧
          u.xr = { s.xr with mem := u.xr.mem } ∧ ∀ a, u.xr.mem.read a =
            if t.dst ≤ a ∧ a < t.dst + 8 * t.words then x.dlm.read (t.src + (a - t.dst)) else s.xr.mem.read a)
      ∧ (t.words ≠ 0 → s.xr.permitted e.val (if t.toXr then t.dst else t.src) 8 t.toXr = false →
        Acts (.haulTransferComplete e [] [] c) s fun u => ends u 4#32 ∧ (u.eng[e]).dlm = x.dlm))
  ∧ (
    ∀ (e : Fin 24) (c : Fin 64) (s : State) (l : WinLoad) (off : Nat) (bs : List Byte) (rest : List (Nat × List Byte)),
      let x := s.eng[e]
      let free (u : State) (y : Engine) := u = { s with eng := upd s.eng e fun _ => y }
      s.xr.bad = [] → x.role ≠ .retired → x.halted = false → x.run.isSome = true → x.waiting = [] → x.ctl = .seq → x.rpt = 0 →
      x.delay = none → x.loops = [] → x.pend = [] → x.ctx.hset = Vector.replicate 3 0 →
      (x.wload = some l → x.stall = .load → x.wbuf = [] → l.en = true → s.xr.permitted e.val l.off l.size false = true →
        (∀ r, l.dst = .v r 0 → l.size = 16 → Acts (.windowLoadReturn e c) s fun u => free u { x with
          wload := none, stall := .none
          ctx := { x.ctx with v := x.ctx.v.set r.toNat (BitVec.ofNat 128 (leNat (s.xrBytes l.off 16))), pc := x.ctx.pc + 8#16 } })
        ∧ (∀ r, l.dst = .a r 0 → l.size = 4 → Acts (.windowLoadReturn e c) s fun u => free u { x with
          wload := none, stall := .none
          ctx := { x.ctx with a := x.ctx.a.set r.toNat (BitVec.ofNat 32 (leNat (s.xrBytes l.off 4))), pc := x.ctx.pc + 8#16 } }))
      ∧ (x.wload = some l → x.wbuf ≠ [] → Acts (.windowLoadReturn e c) s fun u => u = s)
      ∧ (x.wbuf = (off, bs) :: rest → s.xr.permitted e.val off bs.length true = true →
        let stored : State := ({ s with eng := upd s.eng e fun _ => { x with wbuf := rest } } : State).xrStore off bs
        (x.stall = .none → Acts (.windowStoreDrain e c) s fun u => u = stored)
        ∧ (x.stall = .sync → rest ≠ [] → Acts (.windowStoreDrain e c) s fun u => u = stored)
        ∧ (x.stall = .sync → rest = [] → Acts (.windowStoreDrain e c) s fun u => u = stored.updEng e fun _ =>
            { x with wbuf := [], stall := .none, ctx := { x.ctx with pc := x.ctx.pc + 8#16 } })
        ∧ (∀ b, x.stall = .store → x.wblocked = some b → x.wload = none → Acts (.windowStoreDrain e c) s fun u =>
            u = stored.updEng e fun _ =>
              { x with wbuf := rest ++ [b], wblocked := none, stall := .none, ctx := { x.ctx with pc := x.ctx.pc + 8#16 } })))

/-- Table 5.10, R166, R176: `HWAIT` and `SYNC` stand still while there is something to wait for; `END` ends the release after six
cycles and queues the checkpoint of the task's state block.

R165 to R169: a trigger of a task that may run starts its release on an idle engine, waits behind a running release of its own or
a higher rank, preempts a lower one at an interruptible point, and is counted when its previous release has not ended. A release that
reaches its deadline is abandoned as a trap, and dropped while it is waiting. -/
def Obligations.TaskRelease : Prop :=
  (
    ∀ (w : Issue) (c : Fin 3) (s : State) (r : Release) (t : Task),
      let x := s.eng[w.e]
      LastSlot w s → Plain x → x.run = some r → x.table[r.rank]? = some t →
      let still (st : Stall) : Engine := { ({ x with stepOne := false } : Engine).cycle1 with stall := st }
      ((x.ctx.hstat[c]).getLsbD 0 = true → Acts (.hwait w (BitVec.ofNat 2 c.val)) s (EngineBecomes w.e (still (.haul c)) s))
      ∧ ((x.ctx.hstat[c]).getLsbD 0 = false → Acts (.hwait w (BitVec.ofNat 2 c.val)) s (EngineBecomes w.e (x.stepTo 8#16) s))
      ∧ (x.wbuf ≠ [] → Acts (.sync w) s (EngineBecomes w.e (still .sync) s))
      ∧ (x.wbuf = [] → Acts (.sync w) s (EngineBecomes w.e (x.stepTo 8#16) s))
      ∧ (x.preempted = [] → Acts (.endRelease w) s fun u => u = { s with eng := u.eng } ∧ (∀ f, f ≠ w.e → u.eng[f] = s.eng[f]) ∧
          let y := u.eng[w.e]
          y.run = none ∧ y.pend = [] ∧ y.stall = .none ∧ y.clmX = x.clmX ∧ y.clmY = x.clmY ∧ y.plm = x.plm ∧ y.table = x.table
          ∧ y.wbuf = x.wbuf ∧ y.pstores = x.pstores ∧ (x.pend = [] → x.ctx.hset = Vector.replicate 3 0 → y.dlm = x.dlm
            ∧ y.ctx = { x.ctx with pc := x.ctx.pc + 8#16 })
          ∧ (t.stateLen = 0 → y.queue = x.queue)
          ∧ (t.stateLen ≠ 0 → x.queue.length < 128 → ∃ q, y.queue = x.queue ++ [q] ∧ q.rank = r.rank ∧ q.chan = none ∧ q.toXr = true
              ∧ q.src = t.dlmBase + t.stateOff ∧ q.words = t.stateLen / 8)))
  ∧ (
    ∀ (e : Fin 24) (rank : Fin 32) (cons : Bool) (s : State) (t : Task),
      let x := s.eng[e]
      x.table[rank.val]? = some t → s.mayRelease t = true → x.role ≠ .retired → x.halted = false →
      let others (u : State) := u = { s with eng := u.eng } ∧ ∀ f, f ≠ e → u.eng[f] = s.eng[f]
      let released (y : Engine) := y.run = some { rank := rank.val, trigTime := s.now } ∧ y.ctx.pc = BitVec.ofNat 16 t.pcEntry
        ∧ y.ctx.getA 12#4 = BitVec.ofNat 32 t.dlmBase
        ∧ y.ctx.getA 13#4 = (if t.slot < 16 then BitVec.ofNat 32 (0x40000 + 0x100 * t.slot) else 0)
        ∧ y.ctx.getA 14#4 = BitVec.ofNat 32 (0x20000 + t.cxBase) ∧ y.ctx.getA 15#4 = BitVec.ofNat 32 (0x28000 + t.cyBase)
        ∧ y.relt = BitVec.ofNat 64 s.now ∧ y.taskid = BitVec.ofNat 32 (rank.val + t.prog % 65536 * 65536) ∧ y.table = x.table
      (x.run = none → x.waiting = [] → x.preempted = [] → Acts (.taskTrigger e rank) s fun u =>
          others u ∧ released u.eng[e] ∧ (u.eng[e]).waiting = [] ∧ (u.eng[e]).ctx.v = x.ctx.v ∧ (u.eng[e]).ctx.acc = x.ctx.acc
            ∧ (u.eng[e]).dlm = x.dlm)
      ∧ (∀ r, x.run = some r → x.open? rank.val = false → x.waiting = [] →
          (r.rank ≤ rank.val → Acts (.taskTrigger e rank) s (EngineBecomes e { x with waiting := [(rank.val, s.now)] } s))
          ∧ (rank.val < r.rank → x.interruptible = false →
              Acts (.taskTrigger e rank) s (EngineBecomes e { x with waiting := [(rank.val, s.now)] } s))
          ∧ (rank.val < r.rank → x.interruptible = true → Acts (.taskTrigger e rank) s fun u =>
              others u ∧ released u.eng[e] ∧ (u.eng[e]).preempted = (r, x.drain.ctx) :: x.preempted ∧ (u.eng[e]).waiting = []))
      ∧ (x.open? rank.val = true → s.mayRaise 0x0B02 e.val = false →
          Acts (.taskTrigger e rank) s (EngineBecomes e { x with overruns := x.overruns + 1 } s))
      ∧ (x.open? rank.val = true → s.mayRaise 0x0B02 e.val = true → Acts (.taskTrigger e rank) s fun u => ∃ v : State,
          v.eng[e] = { x with overruns := x.overruns + 1 } ∧
          u = v.raise { code := 0x0B02, cls := 1, scope := .engine, unit := e.val, detail := e.val })
      ∧ (x.run.map (·.rank) = some rank.val → Acts (.deadlineOverrun e rank cons) s fun u => u = s.trap e 4 cons)
      ∧ (x.run.map (·.rank) ≠ some rank.val → x.open? rank.val = true → Acts (.deadlineOverrun e rank true) s fun u =>
          ∃ v : State, v = s.raise { code := 0x0B01, cls := 1, scope := .engine, unit := e.val, detail := e.val + 0x400, consequential := true }
          ∧ u = v.updEng e fun y => { y with preempted := y.preempted.filter (fun p => p.1.rank != rank.val)
                                             waiting := y.waiting.filter (fun w => w.1 != rank.val) }))

/-! ### Supplies, clocks, resets and boot (chapter 2) -/

/-- R40 to R42: the sequencer raises the stages one after another, powers down after a failed stage and tries again, three times in a
row at most, and lowers the stages in reverse order. `POR_N` and the Tollgate rails together start it. Nothing but its own record
changes.

R41, R43, R49 to R58, Table 2.4: the causes of a warm reset, a main-domain rail failure and the causes of a cold reset; what
each keeps, and the reset-cause record.

That causes of one `TGOSC` cycle are one reset, and which causes that takes in, is the model's reading (log 2); the stage that an LDO
failure records is an operand (log 84). -/
def Obligations.PowerAndResets : Prop :=
  (
    ∀ (s : State) (n : Fin 4),
      let b := s.boot
      let put (x : Boot) (t : State) : Prop := t = { s with boot := x }
      let start (x : Boot) : Boot := { x with seq := .wait 0, pseq := 1, stage := 1, attempts := 0, coldDown := false }
      let fails (t : State) : Prop := t = { s with boot := t.boot } ∧ t.boot.seq = .down ∧ t.boot.pseq = b.pseq ∧ t.boot.pll = false
        ∧ t.boot.attempts = b.attempts + 1 ∧ t.boot.failStage = n.val
        ∧ (b.attempts < 2 → t.boot.rstCause = b.rstCause ∧ t.boot.prior = b.prior)
        ∧ (2 ≤ b.attempts → t.boot.rstCause / 2 % 2 = 1 ∧ t.boot.rstCause / 256 % 8 = n.val
            ∧ t.boot.prior = b.prior ++ [(0x0D03, n.val)])
      (b.seq = .off → (b.tgRails = true → Completes .porNRise s (put (start { b with porN := true })))
          ∧ (b.porN = true → Completes .tgRailReturn s (put (start { b with tgRails := true })))
          ∧ (b.tgRails = false → Completes .porNRise s (put { b with porN := true }))
          ∧ (b.porN = false → Completes .tgRailReturn s (put { b with tgRails := true })))
      ∧ (b.seq = .wait n → Completes (.pgoodRise n true) s (put { b with seq := .settle n })
          ∧ (b.pseq ≠ 0 → Completes (.pgoodRise n false) s fails ∧ Completes .pgoodTimeout s fails))
      ∧ (b.seq = .settle n → (n.val < 3 → Completes .stageSettleExpiry s
            (put { b with seq := .wait (n + 1), pseq := b.pseq ||| BitVec.ofNat 4 (2 ^ (n.val + 1)) }))
          ∧ (n.val = 3 → b.pll = false → Completes .stageSettleExpiry s (put { b with seq := .up, attempts := 0, stage := 3 })))
      ∧ (b.seq = .retry → Completes .seqRetryExpiry s (put { b with seq := .wait 0, pseq := 1 }))
      ∧ (b.seq = .down → b.pseq.toNat = 2 ^ (n.val + 1) - 1 →
          (n.val ≠ 0 → Completes .powerDownStep s (put { b with pseq := BitVec.ofNat 4 (2 ^ n.val - 1) }))
          ∧ (n.val = 0 → b.porN = false ∨ b.tgRails = false → Completes .powerDownStep s (put { b with pseq := 0, seq := .off }))
          ∧ (n.val = 0 → b.porN = true → b.tgRails = true → b.coldDown = true → Completes .powerDownStep s (put (start b)))
          ∧ (n.val = 0 → b.porN = true → b.tgRails = true → b.coldDown = false → Completes .powerDownStep s (put
              { b with pseq := 0, seq := if 3 ≤ b.attempts then .dead else .retry }))))
  ∧ (
    ∀ (s : State) (n : Fin 5) (k : Fin 4) (counts : Vector (BitVec 16) 6),
      let nominal : List Nat := [250, 12000, 6000, 4000, 2000, 1000]
      let out (m : Nat) : Prop := 100 * (counts.toList.getD m 0).toNat < 94 * nominal.getD m 0
        ∨ 106 * nominal.getD m 0 < 100 * (counts.toList.getD m 0).toNat
      let warm (s0 : State) (cause : Nat) (t : State) : Prop := MainReset s0 t ∧ t.boot.warmHeld = true
        ∧ t.boot.rstCause = cause + 65536 * s0.boot.stage ∧ t.boot.seq = s0.boot.seq
        ∧ t.faults.plog.recs = s0.faults.plog.recs.map (fun r => { r with prior := true })
      let cold (t : State) : Prop := (s.boot.inReset = false → t.boot.rstCause = 1 + 65536 * s.boot.stage) ∧ t.boot.rstCount = 0
        ∧ t.boot.coldDown = true ∧ t.boot.inReset = true ∧ t.pending = s.pending ∧ t.cfg = {} ∧ t.host = {}
        ∧ t.axes = Vector.replicate 512 {} ∧ t.xr = {}
        ∧ t.faults = {} ∧ t.tg.cfg = none ∧ t.tg.gen = 0 ∧ t.tg.brk = 0 ∧ t.boot.dirs = s.boot.dirs ∧ t.boot.slots = s.boot.slots
        ∧ t.tg.flash = s.tg.flash ∧ t.boot.rollTp = s.boot.rollTp ∧ t.boot.rollBw = s.boot.rollBw ∧ t.dbg.revoked = s.dbg.revoked
        ∧ t.boot.seq = (if s.boot.pseq = 0 then .off else .down)
      let clock (n : Nat) (t : State) : Prop := ∃ u : State, warm u 8 t ∧ u = { s with boot := u.boot } ∧ u.boot.stage = s.boot.stage
        ∧ t.boot.safePath = true ∧ t.boot.clkFault.getLsbD n = true ∧ t.boot.pll = false
      let tgosc (t : State) : Prop :=
        let u : State := { s with boot := { s.boot with tgoscFault := true } }
        t = if s.boot.inReset = true ∨ s.activeFault 0x0D01 .device 0 = true then u
          else u.raise { code := 0x0D01, cls := 6, scope := .device }
      (s.boot.inReset = false →
        Completes .rstNAssert s (warm s 4) ∧ Completes .tpWdog s (warm s 16)
        ∧ Completes (.warmReset .tpWdog) s (warm s 16) ∧ Completes (.warmReset .clkFault) s (warm s 8)
        ∧ (s.boot.fwReset = true → Completes (.warmReset .fwActivate) s (warm s 32))
        ∧ (2 ≤ s.dbg.level → Completes (.warmReset .debugger) s (warm s 64))
        ∧ Completes (.clockStopDeclared (n.castSucc)) s (clock n.val)
        ∧ (out n.val → (∀ m, m < 6 → m ≠ n.val → ¬ out m) → Completes (.clockCountWindow counts) s (clock n.val))
        ∧ Completes .pllLockLost s (clock 5)
        ∧ (s.boot.seq = .up → s.boot.pseq ≠ 0 → Completes (.mainRailFail k) s fun t => MainReset s t ∧ t.boot.seq = .down
            ∧ t.boot.rstCause = 2 + 256 * k.val + 65536 * s.boot.stage ∧ t.faults.plog = {}))
      ∧ Completes .porNFall s (fun t => cold t ∧ t.boot.porN = false)
      ∧ Completes .tgRailOutOfWindow s (fun t => cold t ∧ t.boot.tgRails = false)
      ∧ ((∀ m, m < 6 → ¬ out m) → Completes (.clockCountWindow counts) s
          (fun t => t = { s with boot := { s.boot with tgoscFault := false } }))
      ∧ ((∀ m, m < 5 → ¬ out m) → out 5 → Completes (.clockCountWindow counts) s tgosc)
      ∧ Completes (.clockStopDeclared 5) s tgosc)

/-- R48, R49, R54, R61 to R67, Table 2.9: the main domain leaves reset when it is powered and the PLL is locked, and no cause holds it;
Turnpike tries the slot on trial once, otherwise the active one, marks a slot that fails and tries the other one, and enters recovery
when none is left.

R19, R73 to R77, Table 2.10: a Byway crash stops only Byway; the third within 60 s is not restarted; a restart loses sessions,
unanswered and timed commands, and leaves what runs as it is.

Which directory copy counts where the spec is silent, and when boot steps without a row are taken, is the model's choice (logs 85, 88). -/
def Obligations.BootAndByway : Prop :=
  (
    ∀ (s : State) (img : List Byte) (f : ImageFacts),
      let b := s.boot
      let leaves (t : State) : Prop :=
        t.boot = { b with inReset := false, clkFault := 0, safePath := false, stage := 4, pll := true, warmHeld := false }
        ∧ (∀ p : Fin 64, t.ports[p] = { s.ports[p] with offReset := false }) ∧ t = { s with boot := t.boot, ports := t.ports }
      let sec := u32 img 8
      let good (byway : Bool) : Prop := imageHeaderOk byway img = true ∧ f.key = true ∧ s.dbg.revoked.getLsbD (u8 img 24) = false
        ∧ f.sig = true ∧ f.hash = true ∧ (if byway then b.rollBw else b.rollTp) ≤ sec
      let body := (img.drop 272).take (u32 img 12)
      let idle : Prop := ∀ q : Fin 16, (s.host.queues[q]).qcfg.getLsbD 15 = false ∧ (s.host.queues[q]).active = false
      (b.inReset = true → b.seq = .up → b.warmHeld = false → Completes .pllLock s leaves)
      ∧ (b.inReset = true → b.seq = .up → b.pll = true → Completes .warmResetRelease s leaves)
      ∧ (b.inReset = false → b.recovery = false → s.dbg.lifecycle ≠ 0x40 →
        (b.slots[b.slot] = none →
          (b.stage = 5 → good false → Completes (.bootImageLoaded false img f) s
            (fun t => t = { s with boot := { b with secTp := sec, stage := 6 } }))
          ∧ (b.stage = 6 → good true → Completes (.bootImageLoaded true img f) s
              (fun t => t = { s with
                xr := (s.xr.write (u32 img 16) body).clearBad (u32 img 16) body.length
                boot := { b with secBw := sec, stage := 7, bwImage := some (u32 img 16, body) } }))
          ∧ (∀ byway, b.stage = (if byway then 6 else 5) → ¬ good byway →
              (b.dir.failed / 2 ^ (1 - b.slot.val) % 2 = 0 → Completes (.bootImageLoaded byway img f) s fun t =>
                t = { s with boot := t.boot } ∧ t.boot.slot.val = 1 - b.slot.val ∧ t.boot.onTrial = false ∧ t.boot.stage = 5
                ∧ t.boot.dir.failed = b.dir.failed ||| 2 ^ b.slot.val ∧ t.boot.dir.active = b.dir.active)
              ∧ (b.dir.failed / 2 ^ (1 - b.slot.val) % 2 = 1 → idle → Completes (.bootImageLoaded byway img f) s fun t =>
                t.boot.recovery = true ∧ t.serving = true ∧ t.boot.dir.failed = b.dir.failed ||| 2 ^ b.slot.val ∧ t.axes = s.axes)))
        ∧ (∀ k, b.stage = 4 → b.dir.trial = some k → b.slots[k] = none → good false → Completes (.bootImageLoaded false img f) s fun t =>
            t = { s with boot := t.boot } ∧ t.boot.slot = k ∧ t.boot.onTrial = true ∧ t.boot.dir.trial = none
            ∧ t.boot.dir.active = b.dir.active ∧ t.boot.stage = 6)
        ∧ (b.stage = 4 → b.dir.trial = none → b.slots[b.dir.active] = none → good false →
          Completes (.bootImageLoaded false img f) s fun t =>
            t = { s with boot := { b with slot := b.dir.active, onTrial := false, secTp := sec, stage := 6 } }))
      ∧ (b.inReset = false → b.prior = [] → idle →
          (b.stage = 9 → b.bywayUp = true → Completes .helloReady s fun t => t.boot = { b with ready := true, stage := 10 }
            ∧ t = { s with boot := t.boot, host := t.host }
            ∧ t.devstat % 2 = 1 ∧ (s.host.devstatSeen % 2 = 0 → t.host.intstat.getLsbD 16 = true))
          ∧ (b.stage = 7 → b.recovery = false → Completes .helloReady s fun t =>
            t.boot = { b with bywayUp := true, ready := true, stage := 10 } ∧ t = { s with boot := t.boot, host := t.host, xr := t.xr }
            ∧ t.xr = { s.xr with regions := t.xr.regions } ∧ (t.xr.regions[36])[0] = 0x008FF00000800007#64
            ∧ ∀ e : Fin 42, e.val < 24 → (t.xr.regions[e])[0] = 0x0097F00000940007#64))
      ∧ (s.tg.st = .selftest → Completes (.tgSelftestDone true) s fun t => t.tg.st = .waitCfg ∧ t.tg.gen = s.tg.gen ∧ t.axes = s.axes
          ∧ t.boot = { b with stage := if b.seq = .off then b.stage else max 2 b.stage }))
  ∧ (
    ∀ (s : State) (rc : Fin 4) (region : Bool) (cause lost : Nat),
      let recent := s.boot.crashes.filter (fun t => decide (s.ticks < t + 24000000000))
      let runs (t : State) : Prop := t.eng = s.eng ∧ t.time = s.time ∧ t.tg = s.tg ∧ t.ports = s.ports ∧ t.can = s.can
        ∧ t.wm = s.wm ∧ t.cfg.params = s.cfg.params ∧ t.cfg.tasks = s.cfg.tasks
      let kept (t : State) : Prop := t.axes = s.axes.map fun a => { a with enable := a.enable.filter fun e => e.phase == .energising }
      let logged (k : Nat) (t : State) : Prop := t.faults.plog = s.faults.plog.add 64
        { code := 0x0C01, cls := 1, scope := .device, unit := 0, time := s.now, detail := k + 65536 * timedUsed s.host }
      let crashed (k : Nat) (t : State) : Prop := runs t ∧ t.axes = s.axes ∧ t.xr = s.xr ∧ t.cfg = s.cfg ∧ t.net = s.net
        ∧ t.serving = s.boot.recovery ∧ logged k t ∧ t.faults = { s.faults with plog := t.faults.plog }
        ∧ (∀ q : Fin 16, (t.host.queues[q]).active = false)
        ∧ t.boot = { s.boot with bywayUp := false, ready := false, crashes := s.ticks :: recent, crash := some (k, timedUsed s.host) }
      let lone : Prop := s.cfg.commit = none ∧ (∀ p : Fin 64, (s.ports[p]).forceBy = none)
      (s.boot.bywayUp = true → recent.length < 2 →
        Completes (.routeCoreWdogExpiry rc) s (crashed 1)
        ∧ Completes (.routeCoreTrap rc region) s (crashed (if region then 3 else 2)))
      ∧ (s.boot.bywayUp = true → 2 ≤ recent.length → lone → Completes (.routeCoreWdogExpiry rc) s fun t => ∃ u : State,
          u.boot.bywayDead = true ∧ u.boot.crash = none ∧ u.boot.recovery = true ∧ runs u ∧ kept u ∧ u.xr = s.xr ∧ logged 1 u
          ∧ t = (u.raise { code := 0x0C02, cls := 6, scope := .device }).startQueues.noteDevstat)
      ∧ (s.boot.crash = some (cause, lost) → lone →
          (∀ q : Fin 16, (s.host.queues[q]).qcfg.getLsbD 15 = false ∧ (s.host.queues[q]).active = false) →
          Completes .bywayRestart s fun t => runs t ∧ kept t ∧ t.faults = s.faults
            ∧ t.host.pcie = none ∧ t.host.qspiSes = none ∧ t.host.leader = none
            ∧ t.host.timed = [] ∧ t.host.groups = [] ∧ t.boot.bywayUp = true ∧ t.boot.ready = (s.boot.stage == 10) ∧ t.boot.crash = none
            ∧ t.boot.onTrial = false ∧ t.boot.quiet = true ∧ t.boot.report = s.boot.report ++ [cause + 65536 * lost]
            ∧ ∀ a, 0x900000 ≤ a → s.xr.retired = none → s.xr.reloc = none →
                (∀ q, s.boot.bwImage = some q → q.1 + q.2.length ≤ 0x800000) → t.xr.mem.read a = s.xr.mem.read a))

/-! ### Host transports and command protocol (chapter 3) -/

/-- R111 to R115, R117, R552, Tables 3.16 to 3.19: the doorbells, enabling and disabling a queue pair, packets held for space, and
coalescing.

R111, R114: the device takes whole packets only, of a high-priority queue before a low-priority one, and stops a queue at a
malformed run; a queue that is stopped or stalled gives nothing.

R112: a reply of at most 60 bytes takes one CQ entry, whose bytes follow its length and are padded with zeros; `PHASE` inverts at
each wrap.

That a completion queue keeps one entry empty is the model's choice (log 9). -/
def Obligations.QueuePairs : Prop :=
  (
    ∀ (s : State) (q : Fin 16) (v : Word) (tail head : BitVec 16) (entries : List RingEntry) (o : OutPkt) (rest : List OutPkt),
      let k := s.host.queues[q]
      let becomes (x : Queue) (t : State) : Prop := t = { s with host := { s.host with queues := s.host.queues.set q x } }
      let error (x : Queue) (t : State) : Prop :=
        t = (({ s with host := { s.host with queues := s.host.queues.set q { x with stopped := true } } } : State)).setInt 18 31
      let w := (v &&& 0x0FFFBFFF#32) ||| 0x8000#32
      let sq := w.toNat % 16
      let cq := w.toNat / 16 % 16
      let good := 4 ≤ sq ∧ sq ≤ 12 ∧ 7 ≤ cq ∧ cq ≤ 12 ∧ w.toNat / 256 % 32 ≤ 30 ∧ k.sqBase.toNat % 4096 = 0 ∧ k.cqBase.toNat % 4096 = 0
      let size := 2 ^ k.smpSqSz
      (k.qcfg.getLsbD 15 = false → k.held = [] → good → Acts (.qcfgEnSet q v) s (becomes
        { k with
          qcfg := w, smpSq := k.sqBase, smpCq := k.cqBase, smpSqSz := sq, smpCqSz := cq, sqTail := 0, sqHead := 0, cqHead := 0
          cqTail := 0, phase := true, sq := [], cq := [], held := [], unsignalled := 0, cqStall := false, stopped := false
          active := s.boot.ready || s.boot.recovery }))
      ∧ (k.qcfg.getLsbD 15 = false → ¬ good → Acts (.qcfgEnSet q v) s (error { k with qcfg := w, cfgErr := true }))
      ∧ Acts (.qcfgEnClear q v) s (fun t => ∃ c : Word, c.getLsbD 15 = false ∧ becomes
          { k with qcfg := c, active := false, held := k.held.filter (·.event), sq := [], cqStall := false, unsignalled := 0
                   gen := if k.qcfg.getLsbD 15 then k.gen + 1 else k.gen } t)
      ∧ (k.qcfg.getLsbD 15 = true → k.stopped = false →
        (size ≤ tail.toNat → Acts (.sqDoorbell q tail entries false) s (error { k with sqTail := tail.toNat, frameErr := true }))
        ∧ (tail.toNat < size →
          let taken : Queue := { k with sqTail := tail.toNat, sq := k.sq ++ entries.take ((tail.toNat + size - k.sqTail) % size) }
          Acts (.sqDoorbell q tail entries true) s (error { taken with dmaErr := true })
          ∧ Acts (.sqDoorbell q tail entries false) s (fun t =>
              t = (({ s with host := { s.host with queues := s.host.queues.set q taken } } : State)).fetchAll)))
      ∧ Acts (.cqDoorbell q head) s (becomes { k with
          cqHead := head.toNat, cq := k.cq.drop ((head.toNat + 2 ^ k.smpCqSz - k.cqHead) % 2 ^ k.smpCqSz) })
      ∧ (k.held = o :: rest → k.active = true → o.entries ≤ 2 ^ k.smpCqSz - 1 - k.cq.length → rest ≠ [] →
          Acts (.heldPacketWrite q) s fun t => ∃ u, becomes { k.write o with held := rest, cqStall := true } u ∧ t = u.coalesce q)
      ∧ (k.held = [o] → k.active = true → o.entries ≤ 2 ^ k.smpCqSz - 1 - k.cq.length → Acts (.heldPacketWrite q) s fun t =>
          ∃ u, becomes { k.write o with held := [], cqStall := false } u ∧ t = (u.coalesce q).fetchAll)
      ∧ (k.unsignalled ≠ 0 → k.qcfg.toNat / 2 ^ 20 % 256 ≠ 0 → Acts (.coalTimeExpiry q) s fun t =>
          ∃ u, becomes { k with unsignalled := 0 } u ∧ t = u.setInt (intBit q.val) ⟨k.qcfg.toNat / 256 % 32, by omega⟩))
  ∧ (
    ∀ (s : State) (q : Fin 16) (e : RingEntry),
      let k := s.host.queues[q]
      let data := e.data.take e.fragLen.toNat
      k.active = true → k.stopped = false → k.cqStall = false → s.boot.ready = true → k.sq = [e] → 4 ≤ k.smpSqSz →
      e.fragLen.toNat ≤ 60 → e.data.length = 60 → (e.ctl &&& 0xF9#8) = 0 →
      (∀ j : Fin 16, j ≠ q → (s.host.queues[j]).active = false) →
      (e.ctl = 6#8 → 16 ≤ e.fragLen.toNat → ∃ u : State, s.fetchOne = some (u.receiveOrWait (.pcie q) data) ∧ (u.host.queues[q]).sq = []
          ∧ (u.host.queues[q]).sqHead = (k.sqHead + 1) % 2 ^ k.smpSqSz ∧ u.axes = s.axes)
      ∧ (e.ctl = 2#8 → e.fragLen = 60#16 → s.fetchOne = none)
      ∧ (e.ctl.getLsbD 1 = false ∨ e.fragLen.toNat = 0 ∨ (e.ctl = 6#8 ∧ e.fragLen.toNat < 16) → ∃ u : State, s.fetchOne = some u
          ∧ (u.host.queues[q]).stopped = true ∧ (u.host.queues[q]).frameErr = true ∧ u.host.intstat.getLsbD 18 = true
          ∧ u.host.pcie = s.host.pcie))
  ∧ (
    ∀ (k : Queue) (o : OutPkt), o.size ≤ 60 → 7 ≤ k.smpCqSz → k.cqTail < 2 ^ k.smpCqSz →
      ∃ e : RingEntry, (k.write o).cq = k.cq ++ [e] ∧ e.ctl.toNat = (if k.phase then 7 else 6) ∧ e.fragLen.toNat = o.size
        ∧ e.data.take o.size = o.bytes ∧ e.data.drop o.size = List.replicate (60 - o.size) 0#8 ∧ o.bytes.length = o.size
        ∧ (k.write o).cqTail = (k.cqTail + 1) % 2 ^ k.smpCqSz
        ∧ ((k.write o).phase = k.phase ↔ k.cqTail + 1 < 2 ^ k.smpCqSz) ∧ (k.write o).unsignalled = k.unsignalled + 1)

/-- R11, R110, R117 to R119: the time snapshot and its live counter, the endpoint's resets, and writes of the registers that have no
row of their own.

R110, R117: a status bit that goes from 0 to 1 with its mask bit set and MSI-X enabled sends its vector once, or notes it as pending
while the vector is masked; a bit that is already set sends nothing.

R121 to R124, Tables 3.23, 3.24: the QSPI slave. A written packet of the right size passes on to the checks of Table 3.3; a read
removes the next packet only when all of it has been clocked; `STATUS` clears `DROP`.

The receive buffer's space and the masks of the MSI-X table follow the model's choices (logs 17, 36). -/
def Obligations.EndpointAndQspi : Prop :=
  (
    ∀ (s : State) (up : Bool) (q : Fin 16) (m : Fin 42) (k : Fin 16) (off : BitVec 16) (size : BitVec 4) (v : Word) (j : Fin 128),
      let h := s.host
      let put (x : HostIf) (t : State) : Prop := t = { s with host := x }
      let region (f : BitVec 64 → BitVec 64) (t : State) : Prop :=
        t = { s with xr := { s.xr with regions := s.xr.regions.set m ((s.xr.regions[m]).set k (f (s.xr.regions[m])[k])) } }
      Acts .tsctlTrig s (fun t => ∃ u : State, t = u.setInt 19 31 ∧ u = { s with host := { h with
          tsDone := true, tsSeq := (h.tsSeq + 1) % 256, tsNs := s.time.ns, tsSec := s.time.sec, tsFrac := s.time.frac
          tsServo := s.time.servo.code } })
      ∧ Acts .tlNsRead s (put { h with tlNs := s.time.ns, tlSec := s.time.sec, tlFrac := s.time.frac })
      ∧ Acts (.pcieLinkReset up) s (fun t => t.host.pcie = none ∧ t.host.intmask = 0 ∧ t.host.pcieUp = up
          ∧ t.host.intstat = 0 ∧ t.host.msixPba = 0 ∧ (∀ j : Fin 16, (t.host.queues[j]).active = false
            ∧ (t.host.queues[j]).held.all (·.event) = true ∧ (t.host.queues[j]).qcfg.getLsbD 15 = false)
            ∧ (h.pcie = none → t.host.qspiSes = h.qspiSes) ∧ t.boot = s.boot)
      ∧ (off = 0x28#16 → Acts (.registerWrite .bar0 off 4#4 v) s (put { h with scratch := v }))
      ∧ (off = 0x2000#16 → Acts (.registerWrite .bar0 off 4#4 v) s (put { h with intstat := h.intstat &&& ~~~v }))
      ∧ (off = 0x2004#16 → Acts (.registerWrite .bar0 off 4#4 v) s (put { h with intmask := v &&& 0xFFFFF#32 }))
      ∧ (off.toNat = 0x11C + 32 * q.val → Acts (.registerWrite .bar0 off 4#4 v) s fun t => ∃ x : Queue, put { h with queues := h.queues.set q x } t ∧
          x = { h.queues[q] with
                frameErr := (h.queues[q]).frameErr && !v.getLsbD 1, dmaErr := (h.queues[q]).dmaErr && !v.getLsbD 2
                cfgErr := (h.queues[q]).cfgErr && !v.getLsbD 3 })
      ∧ (0x3000 ≤ off.toNat ∨ off.toNat < 0x28 ∨ size ≠ 4#4 ∨ off.toNat % 4 ≠ 0 →
          Acts (.registerWrite .bar0 off size v) s (fun t => t = s) ∧ (size.toNat ≠ 4 ∨ off.toNat % 4 ≠ 0 →
            s.bar0Read off.toNat size.toNat = 0xFFFFFFFF))
      ∧ (6 ≤ s.boot.stage ∨ s.boot.recovery = true → Acts (.registerWrite .msixControl off size v) s
          (put { h with msixEnabled := v.getLsbD 15, msixMask := v.getLsbD 14 }.sendPending))
      ∧ (s.boot.stage < 6 → s.boot.recovery = false → Acts (.registerWrite .msixControl off size v) s (fun t => t = s))
      ∧ (off.toNat / 4 = j.val → Acts (.registerWrite .bar2 off size v) s (put { h with msixTable := h.msixTable.set j v }.sendPending))
      ∧ Acts (.registerWrite (.region m k false) off size v) s (region fun r => r.extractLsb' 32 32 ++ (v &&& 0xFFFFF007#32))
      ∧ Acts (.registerWrite (.region m k true) off size v) s (region fun r => (v &&& 0xFFFFF000#32) ++ r.extractLsb' 0 32))
  ∧ (
    ∀ (s : State) (b vec : Fin 32),
      let t := s.setInt b vec
      let m : Word := 1#32 <<< b.val
      let masked := s.host.msixMask || (s.host.msixTable[(⟨4 * vec.val + 3, by omega⟩ : Fin 128)]).getLsbD 0
      let sends := s.host.intstat &&& m = 0 ∧ s.host.msixEnabled = true ∧ s.host.intmask &&& m ≠ 0
      t.host.intstat = s.host.intstat ||| m
      ∧ t = { s with host := { s.host with intstat := t.host.intstat, msix := t.host.msix, msixPba := t.host.msixPba } }
      ∧ (sends → masked = false → t.host.msix = s.host.msix.set vec (s.host.msix[vec] + 1) ∧ t.host.msixPba = s.host.msixPba)
      ∧ (sends → masked = true → t.host.msix = s.host.msix ∧ t.host.msixPba = s.host.msixPba ||| 1#32 <<< vec.val)
      ∧ (¬ sends → t.host.msix = s.host.msix ∧ t.host.msixPba = s.host.msixPba))
  ∧ (
    ∀ (s : State) (b : List Byte) (n : BitVec 16) (o : OutPkt) (rest : List OutPkt),
      let q := s.host.qspi
      let put (x : Qspi) (t : State) : Prop := t = { s with host := { s.host with qspi := x } }
      let shown (o : OutPkt) := o.bytes.take n.toNat ++ List.replicate (n.toNat - o.size) 0#8
      let ready := s.boot.ready = true ∨ s.boot.recovery = true
      (ready → 20 ≤ b.length → b.length = 20 + u16 b 8 → b.length ≤ s.rxFree →
        (s.blocked .qspi = false → Acts (.qspiWrite b) s fun t => t = s.receive .qspi b)
        ∧ (s.blocked .qspi = true → Acts (.qspiWrite b) s fun t =>
            t = { s with host := { s.host with behind := s.host.behind ++ [.bytes .qspi b] } }))
      ∧ (s.host.behind = [] → s.rxFree = 16384)
      ∧ (¬ ready ∨ b.length < 20 ∨ b.length ≠ 20 + u16 b 8 ∨ s.rxFree < b.length → Acts (.qspiWrite b) s (put { q with drop := true }))
      ∧ (q.tx = o :: rest → (o.size ≤ n.toNat → Acts (.qspiRead n) s (put { q with data := shown o, tx := rest, last := some o }))
          ∧ (n.toNat < o.size → Acts (.qspiRead n) s (put { q with data := shown o })))
      ∧ (q.tx = [] → Acts (.qspiRead n) s (put { q with data := List.replicate n.toNat 0#8 }))
      ∧ (q.last = some o → Acts (.qspiReadAgain n) s (put { q with data := shown o }))
      ∧ Acts .qspiStatus s (fun t => put { q with drop := false, data := t.host.qspi.data } t ∧ t.host.qspi.data.length = 8
          ∧ (let w := u32 t.host.qspi.data 0
             let next := (q.tx.head?.map OutPkt.size).getD 0
             next < 8192 → w % 65536 = s.rxFree ∧ w / 65536 % 8192 = next ∧ (w / 2 ^ 29 % 2 = 1 ↔ ready)
               ∧ (w / 2 ^ 30 % 2 = 1 ↔ q.drop = true) ∧ (w / 2 ^ 31 = 1 ↔ s.boot.recovery = true))
          ∧ u32 t.host.qspi.data 4 = (crc32c (t.host.qspi.data.take 4)).toNat)
      ∧ ∀ c : Byte, c ≠ 0x10 → c ≠ 0x20 → c ≠ 0x21 → c ≠ 0x30 → Acts (.qspiUnknownCommand c) s (put { q with drop := true }))

/-- R79: the check value of the CRC.

R81, Table 3.3: the checks of a received packet in their order, each with its status; a packet that fails ends an open group of its
queue and changes nothing else. One that passes steps 1 to 5 restarts the timeout of its session (R105).

The order of the flag rules among themselves is the model's choice (log 93). -/
def Obligations.PacketChecks : Prop :=
  (
    crc32c [0x31#8, 0x32#8, 0x33#8, 0x34#8, 0x35#8, 0x36#8, 0x37#8, 0x38#8, 0x39#8] = 0xE3069283#32)
  ∧ (
    ∀ (s : State) (src : Src) (b : List Byte),
      let crc := s.packetCrc src b
      let p := parsePacket src b crc
      let len := u16 b 8
      let ver := p.version.toNat
      let k := s.keepAlive src
      let refused (st : Status) (det : Nat) : Prop := s.receive src b = ((s.abortGroup src 0x0004).refuse p st det).noteDevstat
      let passed (st : Status) (det : Nat) : Prop := s.receive src b = ((k.abortGroup src 0x0004).refuse p st det).noteDevstat
      let magic := u16 b 0 = 0x5358
      let framed := b.length = 16 + len + (if crc then 4 else 0)
      let sound := crc = false ∨ (crc32c (b.take (16 + len))).toNat = u32 b (16 + len)
      (¬ magic → refused .badMagic 0)
      ∧ (magic → ¬ framed → refused .badLength 0x0003)
      ∧ (magic → framed → ¬ sound → refused .badCrc 0)
      ∧ (magic → framed → sound → s.session src = none → ¬ (1 ≤ ver ∧ ver ≤ 3) → refused .badVersion 0x0103)
      ∧ (∀ x, magic → framed → sound → s.session src = some x → ver ≠ x.version → p.opcode.toNat ≠ 1 → refused .badVersion x.version)
      ∧ (magic → framed → sound → (s.session src = none ∧ 1 ≤ ver ∧ ver ≤ 3 ∨ ∃ x, s.session src = some x ∧ ver = x.version) →
        (len % 4 ≠ 0 → refused .badLength 0x0001)
        ∧ (len % 4 = 0 → (if ver = 1 then 1020 else 4080) < len → refused .badLength 0x0002)
        ∧ (len % 4 = 0 → len ≤ (if ver = 1 then 1020 else 4080) →
          (16 ≤ p.flags.toNat ∨ (p.flags.getLsbD 3 = true ∧ p.flags.getLsbD 1 = false) → passed .range 0x0001)
          ∧ (p.flags = 0 → p.path = 0 →
            (s.session src = none → p.opcode.toNat ≠ 1 → p.opcode.toNat ≠ 3 → p.opcode.toNat ≠ 4 → passed .noSession 0)
            ∧ (s.session src ≠ none ∨ p.opcode.toNat = 1 ∨ p.opcode.toNat = 3 ∨ p.opcode.toNat = 4 →
                s.receive src b = (k.arrive p).noteDevstat)))))

/-- R82, R83, R85: the reply to a packet. A success without fields is answered only on `ACKREQ`, a failure and a reply with fields
always; the reply repeats tag, axis and path; a reply that would be too long is refused instead.

R84, R104: the completion of an accepted command goes to its session, if that is still the one open, frees the tag, and in version
3 carries the time of effect with `DONE`.

R87, R88: an event goes to a session granted `EVENTS`, numbered for it, with the count of events discarded before it; beyond 1,024
undelivered ones it is discarded and counted. -/
def Obligations.RepliesAndEvents : Prop :=
  (
    ∀ (s u : State) (p : Packet) (x : Session) (det : Nat) (body : List Byte) (st : Status),
      u.session p.src = some x → 1 ≤ x.version → x.version ≤ 3 → (∀ i : Fin 512, (u.axes[i]).dropNow = false) →
      let limit := if x.version = 1 then 1020 else 4080
      let out (pay : List Byte) : OutPkt :=
        { event := false, version := x.version, opcode := p.opcode.toNat % 0x8000 + 0x8000, tag := p.tag, axis := p.axis
          path := p.path, crc := p.crc, payload := pay }
      let fits := 4 + body.length ≤ limit
      let answer := u.emit p.src (out (leBytes 2 st.code ++ leBytes 2 det ++ body))
      let r : HRes := { st := st, det := det, body := body, s := u }
      let ack := p.flags.getLsbD 0 = true
      (st = .ok → (ack ∨ body ≠ [] ∨ p.opcode = 0x0002#16) → fits → s.replyWith p r false = answer)
      ∧ (st = .ok → ¬ ack → body = [] → p.opcode ≠ 0x0002#16 → s.replyWith p r false = u)
      ∧ (st = .accepted → fits → (ack → s.replyWith p r false = answer) ∧ (¬ ack → s.replyWith p r false = u)
          ∧ s.replyWith p r true = u)
      ∧ (st ≠ .ok → st ≠ .accepted → fits → ∀ due, s.replyWith p r due = answer)
      ∧ (body ≠ [] → st = .ok → ¬ fits → s.replyWith p r false = u.emit p.src (out (leBytes 2 0x12 ++ leBytes 2 5))))
  ∧ (
    ∀ (s : State) (r : CmdRef) (x : Session) (st : Status) (det effect : Nat),
      s.session r.src = some x →
      (x.sid ≠ r.sid → s.complete r st det effect = s)
      ∧ (x.sid = r.sid → ∃ u, u = s.setSession r.src (some { x with awaiting := x.awaiting.erase r.tag }) ∧
          (s.owed r = false → s.complete r st det effect = u) ∧
          (s.owed r = true → s.complete r st det effect = u.emit r.src
            { event := false, version := x.version, opcode := r.opcode + 0x8000, tag := r.tag, axis := r.axis, path := r.path
              crc := u.crcUse r.src
              payload := leBytes 2 st.code ++ leBytes 2 det ++ (if st = .done ∧ r.version = 3 then leBytes 8 effect else []) })))
  ∧ (
    ∀ (s : State) (x : Session) (opcode axis : Nat) (body : List Byte), s.session .qspi = some x →
      let held := s.host.qspi.tx
      let pending := (held.filter (·.event)).length
      let t := s.eventTo .qspi opcode axis body
      (x.features % 2 = 0 → t = s)
      ∧ (x.features % 2 = 1 → 1024 ≤ pending → t.host.qspi = s.host.qspi ∧
          t.session .qspi = some { x with evDiscarded := min (x.evDiscarded + 1) 0xFFFF })
      ∧ (x.features % 2 = 1 → held = [] → t.session .qspi = some { x with evSeq := (x.evSeq + 1) % 65536, evDiscarded := 0 } ∧
          t.host.qspi.tx = [{ event := true, version := x.version, opcode := opcode, tag := 0, axis := BitVec.ofNat 16 axis, path := 0
                              crc := true, payload := leBytes 2 x.evSeq ++ leBytes 2 x.evDiscarded ++ body }]))

/-- R33, R48, R81, R86: the packet of each host-opcode row has passed the transport's checks and meets those of the executing device; it
waits behind a synchronous reply of its queue, and while the main domain is in reset there is no one to take it.

R19, R64, R81, R85, R99, R551: what steps 9 to 12 refuse: nothing is served while neither Byway nor Turnpike answers; an observer,
a foreign leader session, a wrong header axis and a tag in use each get their status, and nothing else changes. -/
def Obligations.PacketArrival : Prop :=
  (
    ∀ (c : Instr) (p : Packet) (n : Nat) (s : State), rowOf c = some (p, n) →
      let k := s.keepAlive p.src
      (s.boot.inReset = true → exec c s = .next s)
      ∧ (opOf n).isSome = true
      ∧ (s.boot.inReset = false →
        (s.blocked p.src = false → exec c s = .next ((k.arrive (asOp p n)).noteDevstat))
        ∧ (s.blocked p.src = true → exec c s = .next { k with host := { k.host with behind := k.host.behind ++ [.packet (asOp p n)] } })
        ∧ (Served p n k → ∀ op, opOf n = some op → exec c s = .next (let r := op none (asOp p n) k
            if r.st = .accepted ∧ r.later = false then (k.replyWith (asOp p n) { r with s := r.s.await (asOp p n) } false).noteDevstat
            else (k.replyWith (asOp p n) r false).noteDevstat))))
  ∧ (
    ∀ (c : Instr) (p : Packet) (n : Nat) (s : State), rowOf c = some (p, n) → p.flags = 0 →
      s.host.groups = [] → s.host.fwdGroups = [] → (∀ i : Fin 512, (s.axes[i]).dropNow = false) → s.blocked p.src = false →
      s.boot.inReset = false →
      let q := asOp p n
      let k := s.keepAlive p.src
      let refused (st : Status) (det : Nat) : Prop := exec c s = .next ((k.refuse q st det).noteDevstat)
      (s.serving = false → exec c s = .next k.noteDevstat)
      ∧ (s.serving = true → s.boot.recovery = true → s.boot.bywayDead = false →
          ¬ (n = 1 ∨ n = 4 ∨ 0x0A01 ≤ n ∧ n ≤ 0x0A04) → refused .state 0x00FF)
      ∧ (s.serving = true → s.boot.recovery = false → ∀ x, s.session p.src = some x →
        (x.control = false → observerOps.contains n = false → refused .denied 1)
        ∧ (x.control = true → p.src ≠ .leader → axisOk n p.axis.toNat = false → refused .badTarget 0)
        ∧ (x.control = true → p.src ≠ .leader → axisOk n p.axis.toNat = true → n ≠ 1 → x.awaiting.contains p.tag = true →
            refused .busy 1)))

/-- R90 to R92: a group acts as a whole at one instant, or none of its packets acts; it runs when its last packet arrives, and ends
unrun when that packet stays away. That each packet is judged on what those before it leave is the model's reading (log 90), and
when the next axis-control cycle starts is a free value (log 16).

R94 to R97: a timed command waits for its tag, at most 3,600 s and with at most 4,096 others; when the tag has come it acts with T
equal to the tag, the earliest tag first. -/
def Obligations.GroupsAndTimed : Prop :=
  (
    ∀ (s : State) (p : Packet) (src : Src) (ps : List Packet) (t0 : Instant),
      let q : Packet := { p with flags := p.flags ||| 10#8 }
      let others := s.host.groups.filter (fun g => g.1 != p.src)
      let k := s.keepAlive p.src
      let closed : State := { k with host := { k.host with groups := others } }
      let steps := s.groupSteps t0 ps
      (s.serving = true → s.blocked p.src = false → (opOf p.opcode.toNat).isSome = true →
        s.host.groups.find? (fun g => g.1 == p.src) = some (p.src, { packets := ps }) → ps.length < 64 →
        (∀ r ∈ ps ++ [q], s.check10 r = .ok ()) → (∀ r, (ps ++ [q]).head? = some r → r.flags.getLsbD 2 = false) →
        Acts (.groupEnd p) s fun t =>
          t = (closed.runGroup (ps ++ [q]) (some (s.now + Config.axisCycleWait s.now, false))).noteDevstat)
      ∧ (∀ g, s.host.groups.find? (fun g => g.1 == src) = some g → Acts (.groupTimeout src) s fun t => ∃ u : State,
          u = { s with host := { s.host with groups := s.host.groups.filter (fun g => g.1 != src)
                                             fwdGroups := s.host.fwdGroups.filter (fun g => g.1 != src) } }
          ∧ t = g.2.packets.foldl (fun s r => s.refuse r .aborted 0x0002) u)
      ∧ ((∀ r ∈ steps.2, r.2.st.good = true) →
          s.runGroup ps t0 = (steps.2.foldl (fun v r => v.answer s r.1 r.2 (isDue t0)) steps.1).settle)
      ∧ ((∃ r ∈ steps.2, r.2.st.good = false) → s.runGroup ps t0 = { s with host := (s.runGroup ps t0).host }
          ∧ s.runGroup ps t0 = steps.2.foldl (fun u r =>
              if r.2.st.good then u.refuse r.1 .aborted 0x0004 else u.refuse r.1 r.2.st r.2.det) s)
      ∧ steps.2.map (·.1) = ps
      ∧ (∀ r rs, ps = r :: rs → (s.step12 r t0).st.good = true → steps.1 = ((s.step12 r t0).s.groupSteps t0 rs).1
          ∧ steps.2 = (r, s.step12 r t0) :: ((s.step12 r t0).s.groupSteps t0 rs).2))
  ∧ (
    ∀ (s : State) (p : Packet) (x : TimedItem) (r : Packet),
      let tag := u64 p.payload 0
      let arrives := s.serving = true ∧ (opOf p.opcode.toNat).isSome = true ∧ p.flags.getLsbD 1 = false ∧ p.flags.getLsbD 2 = true
        ∧ s.host.groups = [] ∧ s.host.fwdGroups = [] ∧ s.check10 p = .ok () ∧ s.tagUsed p = false
      (arrives → tag < s.now → s.arrive p = s.refuse p .range 0x0007)
      ∧ (arrives → s.now + 3600000000000 < tag → s.arrive p = s.refuse p .range 0x0008)
      ∧ (arrives → s.now ≤ tag → tag ≤ s.now + 3600000000000 → 4096 ≤ timedUsed s.host → s.arrive p = s.refuse p .queueFull 0x0002)
      ∧ (arrives → s.now ≤ tag → tag ≤ s.now + 3600000000000 → timedUsed s.host < 4096 → ∃ u : State,
          u.host.timed = s.host.timed ++ [{ due := tag, order := s.host.timedOrder, sid := ((s.session p.src).map (·.sid)).getD 0
                                            gen := s.host.genOf [p], packets := [p] }]
          ∧ u = { s with host := { s.host with timed := u.host.timed, timedOrder := s.host.timedOrder + 1 } }
          ∧ s.arrive p = if p.flags.getLsbD 0 then u.sendReply p (u.replyVersion p) .accepted 0 [] else u)
      ∧ (x ∈ s.host.timed → (∀ y ∈ s.host.timed, y ≠ x → x.due < y.due ∨ (x.due = y.due ∧ x.order < y.order)) →
        (s.now < x.due → Acts .timedTagDue s fun t => t = s)
        ∧ (x.due ≤ s.now → s.serving = true → x.packets = [r] →
            let taken : State := { s with host := { s.host with timed := s.host.timed.erase x } }
            ((∀ q, r.src = .pcie q → x.gen = (s.host.queues[q]).gen) → Acts .timedTagDue s fun t =>
              t = taken.run1 r (some (x.due, true)))
            ∧ (∀ q, r.src = .pcie q → x.gen ≠ (s.host.queues[q]).gen → Acts .timedTagDue s fun t =>
              let k := s.host.queues[q]
              let acts := (taken.updQueue q fun y => { y with gen := x.gen, active := false }).run1 r (some (x.due, true))
              t = (acts.updQueue q fun y => { y with gen := k.gen, active := k.active }).flushHeld q))))

/-- R33 to R35, R64, R85, R100, R131, R442: a packet with a path goes on to the member of its lowest nibble with the path shifted, and a
reply of that member comes back to the command that awaits it with the member shifted back in; a member that is not there is
`BAD_TARGET` with the nibbles consumed.

The path on a forwarding device's own refusal is the model's choice (log 92). -/
def Obligations.Forwarding : Prop :=
  ∀ (s : State) (p : Packet) (m : Fin 15) (f : Fwd) (x : Session),
    s.serving = true → s.host.groups = [] → s.host.fwdGroups = [] → p.flags.getLsbD 1 = false →
    let n := p.path.toNat % 16
    let k := s.keepAlive p.src
    let refused (st : Status) (det : Nat) : Prop := Acts (.packetForward p) s fun t => t = (k.refuse p st det).noteDevstat
    let took (f : Fwd) (l : List Fwd) : List Fwd := l.map fun g => if g = f then { g with accepted := true } else g
    (p.path ≠ 0 → s.blocked p.src = false →
      (p.opcode.toNat ∈ [0x0001, 0x0002, 0x0101, 0x0104, 0x0105] → refused .badTarget 0)
      ∧ (p.opcode.toNat ∉ [0x0001, 0x0002, 0x0101, 0x0104, 0x0105] → s.boot.recovery = true → recoveryOps.contains p.opcode.toNat = false →
          refused .state 0x00FF)
      ∧ (p.opcode.toNat ∉ [0x0001, 0x0002, 0x0101, 0x0104, 0x0105] → s.boot.recovery = false →
        (∀ y, s.member? n = some y → y.st = .member → y.lo ≤ p.version.toNat → p.version.toNat ≤ y.hi →
          (s.tagUsed p = true → refused .busy 1)
          ∧ (s.tagUsed p = false → Acts (.packetForward p) s fun t => ∃ u : State, t = u.noteDevstat
            ∧ u = { k with net := { k.net with sent := u.net.sent, fwd := u.net.fwd } }
            ∧ u.net.sent = s.net.sent ++ [(n, { p with path := p.path >>> 4 })]
            ∧ u.net.fwd = s.net.fwd.filter (fun f => !(f.member == n && f.ref.sid == (s.refOf p).sid && f.ref.tag == p.tag))
                ++ [{ member := n, ref := s.refOf p }]))
        ∧ (s.member? n = none → refused .badTarget (if p.src = .leader then Config.junctionLevel + 1 else 1))))
    ∧ (p.path ≠ 0 → s.blocked p.src = true → Acts (.packetForward p) s fun t =>
        t = { k with host := { k.host with behind := k.host.behind ++ [.packet p] } })
    ∧ (p.opcode.toNat < 0xE000 → f ∈ s.net.fwd → (∀ g ∈ s.net.fwd, g.member = m.val + 1 → g.ref.tag = p.tag → g = f) →
        f.member = m.val + 1 → f.ref.tag = p.tag → f.ref.opcode % 32768 + 32768 = p.opcode.toNat →
        s.session f.ref.src = some x → x.sid = f.ref.sid → s.owed f.ref = true → Acts (.replyRelay m p) s fun t => ∃ u : State,
          u = { s with net := { s.net with fwd := if u16 p.payload 0 = 1 then took f s.net.fwd else s.net.fwd.erase f } }
          ∧ t = u.emit f.ref.src
            { event := false, version := p.version.toNat, opcode := p.opcode.toNat, tag := p.tag, axis := p.axis
              path := (p.path <<< 4) ||| BitVec.ofNat 32 (m.val + 1), crc := u.crcUse f.ref.src, payload := p.payload })

/-- R98 to R106, Tables 3.6, 3.10: sessions open with `HELLO`, end with `BYE` or when their timeout expires, and `PING` and `DEVINFO`
are answered. The timeout runs from the last packet that passed steps 1 to 5, and the reaction of a lost session goes to the members
of the junction too.

Identity values are constants of the configuration (log 7); when a restart is reported is the model's choice (log 87). -/
def Obligations.Sessions : Prop :=
  ∀ (s : State) (p : Packet) (src : Src) (x : Session),
    let a := (asOp p 1).args
    let ver := min (u8 a 1) 3
    let other := s.controlElsewhere p.src
    (Served p 0x0001 s → s.boot.report = [] → a.length = 16 → u8 a 2 ≤ 2 → u8 a 3 = 0 → u32 a 4 < 32 → 1 ≤ u8 a 0 → u8 a 0 ≤ u8 a 1 →
      u8 a 0 ≤ 3 → u16 a 10 ≤ 60000 → u16 a 8 = 0 ∨ (u16 a 8 ≤ 15 ∧ ∃ q, p.src = .pcie q) → ¬ (u8 a 2 = 1 ∧ other = true) →
      Sends (.hello p) p s fun t => ∃ y, t.session p.src = some y ∧ y.sid = s.host.lastSid % 65535 + 1 ∧ y.version = ver
        ∧ (y.control = true ↔ u8 a 2 = 1 ∨ (u8 a 2 = 2 ∧ other = false)) ∧ y.tmoMs = u16 a 10 ∧ y.hostId = u32 a 12
        ∧ y.evq.val = u16 a 8 ∧ y.seen = s.ticks ∧ t.boot = { s.boot with quiet := false }
        ∧ y.evSeq = 0 ∧ y.evDiscarded = 0 ∧ y.awaiting = [] ∧ (ver = 1 → y.features < 8)
        ∧ (∀ k, k < 3 ∨ 1 < ver → u32 a 4 / 2 ^ k % 2 = 1 → y.features / 2 ^ k % 2 = 1))
    ∧ (Served p 0x0001 s → a.length = 16 → u8 a 2 = 1 → u8 a 3 = 0 → u32 a 4 < 32 → 1 ≤ u8 a 0 → u8 a 0 ≤ u8 a 1 →
      u8 a 0 ≤ 3 → u16 a 10 ≤ 60000 → u16 a 8 = 0 → other = true → Sends (.hello p) p s (Refused p 0x0001 s .denied 2))
    ∧ (Served p 0x0001 s → a.length = 16 → u8 a 2 ≤ 2 → u8 a 3 = 0 → u32 a 4 < 32 → 3 < u8 a 0 → u8 a 0 ≤ u8 a 1 →
      Sends (.hello p) p s (Refused p 0x0001 s .badVersion 0x0103))
    ∧ (Served p 0x0002 s → a = [] → Sends (.bye p) p s (Ok p 0x0002 s (s.endSession p.src false)))
    ∧ (Served p 0x0003 s → a.length ≤ 64 → Sends (.ping p) p s (Tells p 0x0003 s (leBytes 8 s.now ++ a)))
    ∧ (Served p 0x0004 s → a = [] → Sends (.devinfo p) p s fun t => ∃ d, Tells p 0x0004 s d t ∧ d.length = 36
        ∧ u16 d 0 = 0x1F3A ∧ u16 d 2 = 0x5120 ∧ u32 d 4 = 0x25120C35 ∧ u8 d 8 = 0xB1 ∧ u8 d 10 = 1 ∧ u8 d 11 = 3 ∧ u8 d 28 = 6
        ∧ u8 d 29 = s.boot.slot.val + (if s.boot.onTrial then 128 else 0))
    ∧ (s.session src = some x →
        let tmo := if x.tmoMs = 0 then s.dv P.dvSesstmo else x.tmoMs
        (tmo = 0 ∨ s.ticks < x.seen + tmo * 400000 → Acts (.sessionTimeout src) s fun t => t = s)
        ∧ (tmo ≠ 0 → x.seen + tmo * 400000 ≤ s.ticks → Acts (.sessionTimeout src) s fun t => ∃ u : State,
            u.session src = none ∧ u.host.timed = s.host.timed.filter (fun y => y.sid != x.sid)
            ∧ (s.cfg.commit = none → u.eng = s.eng ∧ u.cfg.params = s.cfg.params) ∧ t.session src = none
            ∧ (x.control = false → t = u.noteDevstat)
            ∧ (x.control = true → ∃ v : State, v = u.raise
                  { code := 0x0C03, cls := u.dv P.dvSessloss, scope := .device, detail := x.sid, hostId := x.hostId }
                ∧ t = ({ v with net := { v.net with
                      lossSent := v.net.lossSent ++ u.inCommit.map fun m => (m.val + 1, u.dv P.dvSessloss) } } : State).noteDevstat)))

/-- R125 to R127, R131, R133: `PARAM_SET` and `CFG_SET` act on all their records or on none and refuse with the first failing record;
`PARAM_GET` and `CFG_GET` change nothing.

R126, R127: judging the records of a `PARAM_SET` leaves each named parameter at the value of the last record that names it, each
other one as it was, and touches nothing but the parameter store; every value lies in its range, is as wide as its parameter, and
belongs to a parameter that may change live. A written value of a bound axis or of a port in use waits for its unit.

That a record is judged against the values earlier records leave is an inference (log 52). -/
def Obligations.ParameterCommands : Prop :=
  (
    ∀ (s : State) (p : Packet) (rs : List PRec) (d : Draft) (u : State) (e : Status × Nat),
      let a (n : Nat) := (asOp p n).args
      let ax := p.axis.toNat
      (Served p 0x0302 s → reqRecs false (a 0x0302) (rsvZero (a 0x0302) 2 2) = .ok rs →
        (s.written.judgeRecs .set ax 1 rs = .error e → Sends (.paramSet p) p s (Refused p 0x0302 s e.1 e.2))
        ∧ (s.written.judgeRecs .set ax 1 rs = .ok u →
            Sends (.paramSet p) p s (Ok p 0x0302 s (rs.foldl (fun s r => s.writeRec ax r) s))))
      ∧ (Served p 0x0301 s → reqRecs true (a 0x0301) (rsvZero (a 0x0301) 2 2) = .ok rs →
        (s.judgeRecs .get ax 1 rs = .error e → Sends (.paramGet p) p s (Refused p 0x0301 s e.1 e.2))
        ∧ (s.judgeRecs .get ax 1 rs = .ok u → Sends (.paramGet p) p s (Tells p 0x0301 s (recsReply rs ax s.paramValue))))
      ∧ (Served p 0x0102 s → reqRecs false (a 0x0102) (rsvZero (a 0x0102) 2 2) = .ok rs →
        (s.cfg.draft = none → Sends (.cfgSet p) p s (Refused p 0x0102 s .noDraft 0))
        ∧ (s.cfg.draft = some d → s.cfg.commit.isSome = true → Sends (.cfgSet p) p s (Refused p 0x0102 s .busy 0x0101))
        ∧ (s.cfg.draft = some d → s.cfg.commit = none → (s.draftView d).judgeRecs .draft ax 1 rs = .error e →
            Sends (.cfgSet p) p s (Refused p 0x0102 s e.1 e.2))
        ∧ (s.cfg.draft = some d → s.cfg.commit = none → (s.draftView d).judgeRecs .draft ax 1 rs = .ok u →
            Sends (.cfgSet p) p s fun t => ∃ vs, Ok p 0x0102 s { s with cfg := { s.cfg with draft := some { d with values := vs } } } t
              ∧ ∀ r, rs = [r] → ∀ f x i, r.names ax = .ok (f, x, i) → assocGet? vs (pkey f i r.idx) = some r.value))
      ∧ (Served p 0x0103 s → reqRecs true (a 0x0103) (decide (u8 (a 0x0103) 2 ≤ 1) && rsvZero (a 0x0103) 3 1) = .ok rs →
        (u8 (a 0x0103) 2 = 0 → s.cfg.draft = none → Sends (.cfgGet p) p s (Refused p 0x0103 s .noDraft 0))
        ∧ (u8 (a 0x0103) 2 = 1 → s.judgeRecs .get ax 1 rs = .ok u →
            Sends (.cfgGet p) p s (Tells p 0x0103 s (recsReply rs ax s.paramValue)))
        ∧ (u8 (a 0x0103) 2 = 0 → s.cfg.draft = some d → s.judgeRecs .get ax 1 rs = .ok u →
            Sends (.cfgGet p) p s fun t => ∃ body, Tells p 0x0103 s body t ∧ u16 body 0 = rs.length)))
  ∧ (
    ∀ (s u : State) (ax k : Nat) (rs : List PRec), assocSorted s.cfg.params = true → s.judgeRecs .set ax k rs = .ok u →
      let value (w : State) (f : PFam) (x : PDef) (i idx : Nat) := (assocGet? w.cfg.params (pkey f i idx)).getD (x.dfltAt idx)
      let naming (f : PFam) (i idx : Nat) (r : PRec) : Bool := match r.names ax with
        | .ok (g, _, j) => g == f && j == i && r.idx == idx
        | .error _ => false
      u = { s with cfg := { s.cfg with params := u.cfg.params } } ∧ assocSorted u.cfg.params = true
      ∧ (∀ r ∈ rs, ∃ f x i, r.names ax = .ok (f, x, i) ∧ x.chg = .live ∧ r.vlen = x.width ∧ x.range.ok r.value = true ∧ f ≠ .sf)
      ∧ (∀ f x i idx, findParam f idx = some x → i < f.instances →
          value u f x i idx = match rs.reverse.find? (naming f i idx) with
            | some r => r.value
            | none => value s f x i idx))
  ∧ (
    ∀ (s : State) (ax i : Nat) (r : PRec) (f : PFam) (x : PDef), r.names ax = .ok (f, x, i) →
      let t := s.writeRec ax r
      let late : Prop := t.cfg = { s.cfg with late := assocSet s.cfg.late (pkey f i r.idx) r.value }
      let now : Prop := t.cfg = { s.cfg with params := storeParam s.cfg.params x i r.idx r.value }
      (∀ q : Fin 64, f = .pt → q.val = i → (s.pt P.ptKind q ≠ 0 → late) ∧ (s.pt P.ptKind q = 0 → now))
      ∧ (∀ j : Fin 512, f = .ax → j.val = i → (s.bound j = true → (s.axes[j]).st ≠ .retired → late) ∧ (s.bound j = false → now))
      ∧ (f = .dv → now) ∧ t.xr = s.xr ∧ t.eng = s.eng ∧ t.host = s.host ∧ t.ports = s.ports)

/-! ### Configuration (chapter 4) -/

/-- R131 to R134, R141, Tables 4.1, 4.2, 4.8, 4.9: the draft commands on a device without members: their refusals, what each changes,
and what `CFG_EXPLAIN` shows. -/
def Obligations.DraftCommands : Prop :=
  ∀ (s : State) (p : Packet) (d : Draft) (k : Commit) (flag : Bool) (what source first count : Nat),
    let a (n : Nat) := (asOp p n).args
    let put (c : Cfg) : State := { s with cfg := c }
    let fl := leBytes 4 (if flag then 1 else 0)
    s.inCommit = [] →
    (Served p 0x0101 s → a 0x0101 = fl →
      (s.cfg.draft = some d → Sends (.cfgBegin p) p s (Refused p 0x0101 s .draftConflict 0x0102))
      ∧ (s.cfg.draft = none → Sends (.cfgBegin p) p s (Replied p 0x0101 s .ok 0 (leBytes 4 s.cfg.cfggen) (put
          { s.cfg with draft := some { src := p.src, sid := (s.refOf p).sid, baseGen := s.cfg.cfggen, empty := flag } }))))
    ∧ (Served p 0x0104 s → a 0x0104 = fl →
      (s.cfg.draft = none → Sends (.cfgCommit p) p s (Refused p 0x0104 s .noDraft 0))
      ∧ (s.cfg.draft = some d → s.cfg.commit = some k → Sends (.cfgCommit p) p s (Refused p 0x0104 s .busy 0x0101))
      ∧ (s.cfg.draft = some d → s.cfg.commit = none → Sends (.cfgCommit p) p s fun t => ∃ x : Commit,
          Accepted p 0x0104 s (put { s.cfg with commit := some x }) t
          ∧ x = { phase := .analysis, checkOnly := flag, ref := s.refOf (asOp p 0x0104), pinned := x.pinned
                  retired0 := s.faults.enginesRetired, asMember := p.src == .leader }
          ∧ ∀ i : Fin 512, (∃ n, (i.val, n) ∈ x.pinned) ↔
              ((s.axes[i]).st = .enabledIdle ∨ (s.axes[i]).st = .moving ∨ (s.axes[i]).st = .homing ∨ (s.axes[i]).st = .stopping)))
    ∧ (Served p 0x0105 s → a 0x0105 = [] →
      (s.cfg.draft = none → Sends (.cfgAbort p) p s (Refused p 0x0105 s .noDraft 0))
      ∧ (s.cfg.draft = some d → s.cfg.commit = none → Sends (.cfgAbort p) p s (Ok p 0x0105 s (put { s.cfg with draft := none })))
      ∧ (s.cfg.draft = some d → s.cfg.commit = some k → k.phase = .analysis → Sends (.cfgAbort p) p s (Ok p 0x0105 s
          ((put { s.cfg with draft := none, commit := none }).complete k.ref .aborted 0x0101 s.now).releaseEnables))
      ∧ (s.cfg.draft = some d → s.cfg.commit = some k → k.phase ≠ .analysis →
          Sends (.cfgAbort p) p s (Refused p 0x0105 s .busy 0x0101)))
    ∧ (Served p 0x0106 s → a 0x0106 = leBytes 1 what ++ leBytes 1 source ++ leBytes 2 first ++ leBytes 2 count ++ leBytes 2 0 →
      what ≤ 2 → source ≤ 1 → first < 65536 → 1 ≤ count → count ≤ (if s.versionOf p = 1 then 42 else 169) →
      Sends (.cfgExplain p) p s fun t => ∃ (total : Nat) (es : List (List Byte)),
        Tells p 0x0106 s (leBytes 2 total ++ leBytes 2 es.length ++ leBytes 1 what ++ leBytes 1 source ++ leBytes 2 0 ++ es.flatten) t
        ∧ es.length = min count (total - first) ∧ (∀ e ∈ es, e.length = 24)
        ∧ (source = 0 → s.cfg.analysed = false → total = 0)
        ∧ (source = 0 → s.cfg.analysed = true → what = 0 → total = s.cfg.refusals.length ∧ ∀ n < es.length, ∀ (r : RefusalEntry),
            s.cfg.refusals[first + n]? = some r → r.reason < 65536 → r.axis < 65536 → r.path < 2 ^ 32 → r.a < 2 ^ 32 → r.b < 2 ^ 32 →
            let e := es.getD n []
            u16 e 0 = r.reason ∧ u16 e 2 = r.axis ∧ u32 e 8 = r.path ∧ u32 e 12 = r.a ∧ u32 e 16 = r.b)
        ∧ (source = 1 → (what = 0 → total = 0) ∧ (what = 1 → total = s.cfg.tasks.length))
        ∧ ((source = 1 ∨ s.cfg.analysed = true) → what = 2 → total = 24))

/-- R134, R141 to R143, R445: the end of analysis and of loading, the go signal, a member that does not report, and the comparison
of `DV.CFGGEN`. A commit that ends leaves its draft open while the session lasts.

R132, R143, R145: at S every engine takes its new dispatch table and its role; the draft's values come into force, live parameters
that it did not write keep theirs, and the generation counts up. A member without the go signal keeps its configuration. -/
def Obligations.CommitAndSwitchOver : Prop :=
  (
    ∀ (s : State) (k : Commit) (d : Draft) (j : JunctionFacts) (m : Fin 15) (places : List TaskAddr) (g : BitVec 64)
      (differ : BitVec 15) (x : Session),
      s.cfg.commit = some k → s.cfg.draft = some d →
      let pl := s.analyse (s.draftView d) k j
      let goesOn (y : Commit) (t : State) : Prop := t = { s with cfg := { s.cfg with commit := some y } }
      let reported (pl : Placing) : State := { s with cfg := { s.cfg with
        analysed := true, refusals := pl.refusals, lastTasks := pl.tasks, lastRoles := pl.roles } }
      (k.phase = .analysis →
        (∀ r rs, pl.refusals = r :: rs →
          Acts (.commitAnalysisComplete j) s fun t => t = (reported pl).endCommit k .admitRefused r.reason)
        ∧ (pl.refusals = [] → k.checkOnly = true →
          Acts (.commitAnalysisComplete j) s fun t => t = (reported pl).endCommit k .done 0)
        ∧ (pl.refusals = [] → k.checkOnly = false →
          Acts (.commitAnalysisComplete j) s (goesOn { k with
            phase := .loading, tasks := pl.tasks, roles := pl.roles
            images := j.images.map fun x => (x.1.val + 1, x.2.1.toNat, x.2.2.toNat) })))
      ∧ (k.phase = .loading → Acts (.commitLoadingComplete places) s fun t => ∃ y : Commit,
          t.cfg = { s.cfg with commit := some y } ∧ t = { s with cfg := t.cfg, eng := t.eng, net := t.net } ∧ y.phase = .waiting
          ∧ t.net = (if k.asMember then s.net else { s.net with goSent := s.net.goSent ++ s.inCommit.map fun m => (m.val + 1, y.s) })
          ∧ y.go = !k.asMember ∧ (k.asMember = false → y.s % 1000000 = 0 ∧ s.now + 10000000 ≤ y.s ∧ y.s < s.now + 11000000)
          ∧ y.tasks.length = k.tasks.length ∧ y.tasks.filter (·.pinned) = k.tasks.filter (·.pinned)
          ∧ ∀ e : Fin 24, (∀ u ∈ k.tasks, u.engine = e.val → u.pinned = true) → (s.eng[e]).plm.wf = true → (s.eng[e]).clmX.wf = true →
              (s.eng[e]).clmY.wf = true → (s.eng[e]).dlm.wf = true → t.eng[e] = s.eng[e])
      ∧ (k.phase = .waiting → k.asMember = true →
          Acts (.goSignal (some g)) s (goesOn { k with go := true, s := g.toNat })
          ∧ Acts (.goSignal none) s (fun t => t = s.endCommit k .aborted 0x0101))
      ∧ (k.asMember = false → (s.net.members[m]).st = .member →
          (k.phase = .analysis → m.val + 1 ∉ k.unreached →
            Acts (.memberUnreachable m) s (goesOn { k with unreached := k.unreached ++ [m.val + 1] }))
          ∧ (k.phase = .loading ∨ k.phase = .waiting → Acts (.memberUnreachable m) s fun t => ∃ r : RefusalEntry,
              r.reason = 0x0032 ∧ r.axis = 0xFFFF ∧ r.path = m.val + 1 ∧ r.a = 0 ∧ r.b = 0
              ∧ t = (reported { tasks := k.tasks, roles := k.roles, refusals := [r] }).endCommit k .admitRefused 0x0032))
      ∧ (k.phase = .comparing →
          (differ = 0 → Acts (.cfggenCompare differ) s fun t => t = s.endCommit k .done 0)
          ∧ (differ.getLsbD m.val = true → (s.net.members[m]).st = .member → (∀ n : Fin 15, n < m → differ.getLsbD n.val = false) →
            Acts (.cfggenCompare differ) s fun t => ∃ u : State, u.net.split = true ∧ u.cfg = s.cfg ∧ u.axes = s.axes
              ∧ t = (u.raiseAxes (allAxes.filter s.bound) 0x0809 3 (m.val + 1)).endCommit k .aborted 0x0102))
      ∧ (∀ st det, s.session d.src = some x → x.sid = d.sid →
          (s.endCommit k st det).cfg = { s.cfg with commit := none } ∧ (s.endCommit k st det).time = s.time
          ∧ (s.endCommit k st det).eng = s.eng))
  ∧ (
    ∀ (s : State) (k : Commit) (d : Draft) (owned : List (Fin 512)) (publish : List (Fin 512 × BitVec 32)),
      s.cfg.commit = some k → s.cfg.draft = some d → k.phase = .waiting → (∀ e : Fin 24, (s.eng[e]).migrateTo = none) →
      let bare (e : Fin 24) : Bool := (s.eng[e]).role != .retired && k.tasks.all fun x => x.engine != e.val
      (k.go = false → Acts (.switchOver owned publish) s fun t =>
        t = ({ s with cfg := { s.cfg with draft := none } } : State).endCommit k .aborted 0x0102)
      ∧ (k.go = true → Acts (.switchOver owned publish) s fun t => ∃ u : State,
        (k.asMember = true ∨ s.inCommit = [] → t = u.endCommit k .done 0)
        ∧ (k.asMember = false → s.inCommit ≠ [] →
            t = { u with cfg := { u.cfg with commit := some { k with phase := .comparing } } })
        ∧ u.cfg.cfggen = (s.cfg.cfggen + 1) % 2 ^ 32 ∧ u.cfg.committed = true ∧ u.cfg.draft = none ∧ u.cfg.commit = s.cfg.commit
        ∧ u.time = s.time ∧ u.boot = s.boot ∧ u.dbg = s.dbg ∧ u.pending = s.pending
        ∧ (∀ e : Fin 24, (u.eng[e]).table = u.cfg.tasks.filter (fun x => x.engine == e.val)
            ∧ (u.eng[e]).role = (if (s.eng[e]).role = .retired then .retired
                else if bare e ∧ (allEngines.filter fun f => decide (e < f) && bare f).length < (s.draftView d).dv P.dvHscount then .shoulder
                else .service))
        ∧ ∀ (x : PDef) (f : PFam) (i idx : Nat), findParam f idx = some x → i < f.instances → (f ≠ .ax ∨ idx ≠ P.axCrev.idx) →
            (assocGet? u.cfg.params (pkey f i idx)) = assocGet? (s.draftView d).cfg.params (pkey f i idx))
      ∧ (∀ (x : PDef) (f : PFam) (i idx : Nat), findParam f idx = some x → i < f.instances →
          let value (w : State) := (assocGet? w.cfg.params (pkey f i idx)).getD (x.dfltAt idx)
          ((∀ kv ∈ d.values, kv.1 ≠ pkey f i idx) →
            value (s.draftView d) = if x.chg ≠ .live ∧ d.empty = true then x.dfltAt idx else value s.written)
          ∧ (∀ v before, d.values = before ++ [(pkey f i idx, v)] → assocSorted s.cfg.params = true → value (s.draftView d) = v)))

/-- R301, R359, Tables 9.4 to 9.6: the chunks of a table load follow one another from the first entry; a load that is complete is
accepted and, at `TABLE_ACTIVATE`, becomes the table in use and completes; what a chunk is refused for. -/
def Obligations.TableLoads : Prop :=
  ∀ (s : State) (p : Packet) (table total : Nat) (data got : List Byte) (i : Fin 512) (l : TableLoad),
    let first := got.length / 8
    let others := s.tables.loads.filter fun x => x.ref.isSome || x.axis != i.val
    let put (x : TableLoad) : State := { s with tables := { s.tables with loads := others ++ [x] } }
    let r := s.refOf (asOp p 0x0303)
    let chunk (ref : Option CmdRef) : TableLoad :=
      { table := table, axis := i.val, cam := 0, total := total, data := got ++ data, src := p.src, sid := r.sid, ref := ref }
    let opened (x : TableLoad) := x.ref = none ∧ x.axis = i.val
    (Served p 0x0303 s → p.axis.toNat = i.val →
      (asOp p 0x0303).args = leBytes 1 table ++ leBytes 1 0 ++ leBytes 2 0 ++ leBytes 4 first ++ leBytes 4 total ++ data →
      table ≤ 1 → s.isLocal i = true → 4 ≤ data.length → total < 2 ^ 32 → first < 2 ^ 32 → got.length % 8 = 0 →
      ((s.axes[i]).st = .retired → Sends (.tableLoad p) p s (Refused p 0x0303 s .retired 0))
      ∧ ((s.axes[i]).st ≠ .retired → s.ax (if table = 0 then P.axFricen else P.axCogen) i = 0 →
          Sends (.tableLoad p) p s (Refused p 0x0303 s .state 0x0102))
      ∧ ((s.axes[i]).st ≠ .retired → s.ax (if table = 0 then P.axFricen else P.axCogen) i ≠ 0 →
        (∀ x ∈ s.tables.loads, x.axis = i.val → x.ref = none) →
        (got ≠ [] → (∀ x ∈ s.tables.loads, ¬ opened x) → Sends (.tableLoad p) p s (Refused p 0x0303 s .range 0x0101))
        ∧ (got = [] ∨ (∃ x ∈ s.tables.loads, opened x ∧ (∀ y ∈ s.tables.loads, opened y → y = x) ∧ x.table = table ∧ x.cam = 0
              ∧ x.data = got ∧ x.total = total) →
            (total < 2 ∨ s.ax P.axTblcap i < total ∨ data.length % 8 ≠ 0 →
              Sends (.tableLoad p) p s (Refused p 0x0303 s .range 0x0102))
            ∧ (2 ≤ total → total ≤ s.ax P.axTblcap i → data.length % 8 = 0 →
              (8 * total < got.length + data.length → Sends (.tableLoad p) p s (Refused p 0x0303 s .range 0x0103))
              ∧ ((∃ n, n < data.length / 4 ∧ fpFinite (fp data (4 * n)) = false) → got.length + data.length ≤ 8 * total →
                  Sends (.tableLoad p) p s (Refused p 0x0303 s .range 0x0104))
              ∧ ((∀ n, n < data.length / 4 → fpFinite (fp data (4 * n)) = true) →
                (got.length + data.length < 8 * total → Sends (.tableLoad p) p s (Ok p 0x0303 s (put (chunk none))))
                ∧ (got.length + data.length = 8 * total →
                    Sends (.tableLoad p) p s (Accepted p 0x0303 s (put (chunk (some r))))))))))
    ∧ (Served p 0x0303 s → p.axis = 0xFFFF#16 → ∀ cam : Fin 64,
      (asOp p 0x0303).args = leBytes 1 3 ++ leBytes 1 0 ++ leBytes 2 cam.val ++ leBytes 4 first ++ leBytes 4 total ++ data →
      4 ≤ data.length → (∃ n : Fin 512, (s.axes[n]).prof.source = .cam ∧ ((s.axes[n]).coord.cam.map (·.cam)) = some cam) →
      Sends (.tableLoad p) p s (Refused p 0x0303 s .state 0x000D))
    ∧ (∀ before rest ref, s.tables.loads = before ++ l :: rest → (∀ x ∈ before, x.ref = none) → l.ref = some ref → l ∉ before →
      Acts .tableActivate s fun t => ∃ u : State, t = u.complete ref .done 0 s.now
        ∧ u = { s with tables := u.tables } ∧ u.tables.loads = before ++ rest
        ∧ (l.table = 0 → u.tables = { s.tables with loads := u.tables.loads, fric := u.tables.fric }
            ∧ assocGet? u.tables.fric l.axis = some l.data)
        ∧ (l.table = 1 → u.tables = { s.tables with loads := u.tables.loads, cog := u.tables.cog }
            ∧ assocGet? u.tables.cog l.axis = some l.data)
        ∧ (l.table = 2 → u.tables = { s.tables with loads := u.tables.loads, group := u.tables.group }
            ∧ assocGet? u.tables.group l.axis = some l.data)
        ∧ (l.table = 3 → u.tables = { s.tables with loads := u.tables.loads, cams := u.tables.cams }
            ∧ assocGet? u.tables.cams l.cam = some l.data))

/-- R137, R138, R170: the tasks of an engine in priority order; C′ and B of each; the response time of a task that passes is the least
value that its own execution, its blocking and the demand of the tasks before it add up to; a task that fails has no such value within
its deadline. -/
def Obligations.ResponseTimes : Prop :=
  ∀ (m n : Nat) (l : List Cand) (a : Rta), (rta m l)[n]? = some a →
    let rs := rta m l
    let demand (r : Nat) : Nat := a.c + a.b + ((rs.take n).map fun h => ceilDiv (r + h.x.j) h.x.t.tCyc * h.c).sum
    (rs.map (·.x)).Perm l
    ∧ (∀ h ∈ rs.take n, a.x.before h.x = false)
    ∧ a.c = ceilDiv ((a.x.t.c + a.x.t.w * 48 * (haulWords l - a.x.t.haul)) * (100 + m)) 100
    ∧ (∀ h ∈ rs.drop (n + 1), h.x.t.h ≤ a.b) ∧ (a.b = 0 ∨ ∃ h ∈ rs.drop (n + 1), a.b = h.x.t.h)
    ∧ (a.r ≤ a.x.t.dCyc → a.r = demand a.r ∧ ∀ r, a.c + a.b ≤ r → r < a.r → r < demand r)
    ∧ (a.x.t.dCyc < a.r → ∀ r, r = demand r → a.x.t.dCyc < r)

/-! ### Current and position control (chapters 6 and 9) -/

/-- R182, R192, R199, R202 to R205, R209 to R211: a release of program 0x0001 on an enabled servo axis with an absolute angle source,
without compensation tables, whose last write was applied and whose voltage is within its limit: the observer, the law and the duties
stored. It changes nothing else but the loop's own records and the engine's stores and queue.

Sine, cosine and square roots are those of the configuration (log 21). -/
def Obligations.CurrentLaw : Prop :=
  ∀ (s : State) (i : Fin 512) (p : Fin 64) (e : Fin 24) (n : Nat),
    let a := s.axes[i]
    let c := a.cur
    let k := a.coef
    let tT := s.tcS i
    let r (n : Nat) : Rat := fpVal n
    -- the angle and speed of the sampled extremum, the measured currents, the mean voltage of the interval before
    let om := s.omegaE i (s.recVel p)
    let th := s.baseAngle i p om + s.axF P.axAngleoff i
    let ia := s.recAmps i p 0
    let ib := s.recAmps i p 1
    let iBeta := (ia + 2 * ib) / ratSqrt 3
    let iMeas : Rat × Rat := (ia * Config.cos th + iBeta * Config.sin th, iBeta * Config.cos th - ia * Config.sin th)
    let tau := ratClamp 0 tT (((s.recPair p 0x090 : Nat) + mkRat ((s.recWord p 0x098).toNat / 65536) 65536 - (s.recPair p 0x088 : Nat)) / 1000000000)
    let mean (x y : Rat) : Rat := (tau * x + (tT - tau) * y) / tT
    let vA := mean c.v2.1 c.v1.1
    let vB := mean c.v2.2 c.v1.2
    let ph := c.theta + om * tT / 2
    let vMean : Rat × Rat := (vA * Config.cos ph + vB * Config.sin ph, vB * Config.cos ph - vA * Config.sin ph)
    -- one axis of the frame: observer, then law
    let zo := Config.exp (-(2 * Config.pi * r k.obsbw * tT))
    let pole := Config.exp (-(2 * Config.pi * r k.curbw * tT))
    let axis (l iHat eHat sI u0 cc m v ref : Rat) : Rat × Rat × Rat × Rat :=
      let phi := Config.exp (-(r k.rs * tT / l))
      let gam := (1 - phi) / r k.rs
      let half := Config.exp (-(r k.rs * (tT / 2) / l))
      let bHalf := (1 - half) / r k.rs
      let f := 2 * tau / tT
      let g := (2 * tau - tT) / tT
      let alpha := if 2 * tau ≤ tT then 1 + f * (half - 1) else half + g * (phi - half)
      let beta := if 2 * tau ≤ tT then f * bHalf else bHalf + g * (gam - bHalf)
      let iBar := phi * iHat + gam * (v - cc - eHat)
      let nu := m - iBar
      let i1 := fp32 (iBar + (1 - zo * zo / phi) * nu)
      let e1 := fp32 (eHat + -((1 - zo) * (1 - zo) / gam) * nu)
      let s1 := fp32 (sI + (ref - i1))
      let iApp := alpha * i1 + beta * (u0 - e1)
      let iTgt := iApp + (1 - pole) * (ref - iApp) + r k.curint * tT * s1
      (i1, e1, s1, fp32 (e1 + (iTgt - phi * iApp) / gam))
    let iq := fp32 (ratClamp (-c.lNeg) c.lPos (c.u + fp32 (s.axF P.axCompscale i * 0)))
    let d := axis (r k.ld) c.iD c.eD c.sD c.uD c.cD iMeas.1 vMean.1 0
    let q := axis (r k.lq) c.iQ c.eQ c.sQ c.uQ c.cQ iMeas.2 vMean.2 iq
    -- the output voltage at the angle at which it acts
    let ch : Rat × Rat := (-(om * r k.lq * q.1), om * (r k.ld * d.1 + r k.psim))
    let vD := d.2.2.2 + ch.1
    let vQ := q.2.2.2 + ch.2
    let vdc := s.vdc i p
    let lim := s.modLim p
    let out := th + om * (tau + tT / 2)
    let v : Rat × Rat := (fp32 (vD * Config.cos out - vQ * Config.sin out), fp32 (vD * Config.sin out + vQ * Config.cos out))
    -- centred space-vector modulation
    let vb := -v.1 / 2 + ratSqrt 3 / 2 * v.2
    let vc := -v.1 / 2 - ratSqrt 3 / 2 * v.2
    let v0 := -(ratMax v.1 (ratMax vb vc) + ratMin v.1 (ratMin vb vc)) / 2
    let dead (x : Rat) : Rat := if s.ax P.axDtcomp i = 1 ∧ s.period p ≠ 0 then
      ratClamp (-1) 1 (x / (mkRat 1 50 * s.axF P.axIscale i)) * (s.pt P.ptDeadtime p : Rat) / (s.period p : Rat) else 0
    let onTime (x ix : Rat) : Word := BitVec.ofNat 32
      (roundAway (ratClamp ((1 - lim) / 2) ((1 + lim) / 2) (mkRat 1 2 + (x + v0) / vdc + dead ix) * ((32 * s.period p : Nat) : Rat))).toNat
    let words : List Word := [onTime v.1 ia, onTime vb ib, onTime vc (-ia - ib), BitVec.ofNat 32 (2 ^ 30)]
    let trip := s.axF P.axImaxtrip i
    -- a release that is not the program's own does nothing
    (s.portOf i = none ∨ s.isServo i = false ∨ s.ax P.axCurprog i ≠ 0 ∨ s.releases i 0 = false →
      Acts (.currentLoopRelease i) s fun t => t = s)
    -- the axis is enabled, on program 0x0001, with an absolute source and no table; nothing is late and nothing trips
    ∧ (s.portOf i = some p → s.isServo i = true → s.ax P.axCurprog i = 0 → s.releases i 0 = true → s.lawOn i = true →
    s.recStuck p 0 = false → s.recStuck p 1 = false → 1 ≤ s.ax P.axSdfltcnt i →
    s.axF P.axLosinnov i = 0 → s.axF P.axLosangle i = 0 →
    s.ax P.axAnglesrc i = 0 → s.ax P.axAngleinit i = 0 → s.ax P.axFricen i = 0 → s.ax P.axCogen i = 0 → s.brakeCurrent i = none →
    c.angleCoarse = false → c.alignStep = 0 → c.restored = false → c.intHold = false → c.lawOff = false →
    (s.curRef i).seq = c.mboxSeq → a.pos.curSeq = c.mboxSeq → s.overdue i a.pos.curSince (s.tp i) = false → s.recPair p 0x088 < s.recPair p 0x090 →
    ratAbs ia ≤ trip → ratAbs ib ≤ trip → ratAbs (-ia - ib) ≤ trip → vD * vD + vQ * vQ ≤ lim * lim * (vdc * vdc / 3) →
    s.ownerOf p = some e → (s.eng[e]).portSlot p = some n →
    Acts (.currentLoopRelease i) s fun t =>
      t = { s with axes := t.axes, eng := t.eng } ∧ (∀ j : Fin 512, j ≠ i → t.axes[j] = s.axes[j])
      ∧ (∃ x y : CurLoop, ∃ z : PosLoop, t.axes[i] = { a with cur := x, curOld := y, pos := z } ∧ z = { a.pos with staleCur := false }
        ∧ y = c ∧ (x.iD, x.eD, x.sD, x.uD) = d ∧ (x.iQ, x.eQ, x.sQ, x.uQ) = q ∧ x.v1 = v ∧ x.v2 = c.v1 ∧ x.theta = th ∧ x.omega = om
        ∧ x.cD = fp32 ch.1 ∧ x.cQ = fp32 ch.2 ∧ x.voltLimited = false ∧ x.intHold = false ∧ x.repeat_ = false
        ∧ x.smp = s.sampleCount p ∧ x.thetaW = c.thetaW ∧ x.ioffA = c.ioffA ∧ x.ioffB = c.ioffB
        ∧ x.satA = 0 ∧ x.satB = 0 ∧ x.staleCnt = min 65535 (c.staleCnt + 1))
      ∧ (t.eng[e]).pstores = (s.eng[e]).pstores ++ [(256 * n, words.flatMap fun w => leBytes 4 w.toNat)])

/-- R20, R281, R282, R284, R285, R289, R290, R302: a release of program 0x0003 on a moving axis with feedback, outside its limits'
reach: observer, law, thermal state and the current mailbox; a release that is not due does nothing; on a stepper axis without an encoder, the microstep position is passed on
with `LAW_OFF`. A group task whose members are not all under the law starts from rest. -/
def Obligations.PositionLaw : Prop :=
  ∀ (s : State) (i : Fin 512) (p : Fin 64),
    let a := s.axes[i]
    let x := a.pos
    let k := a.coef
    let r (n : Nat) : Rat := fpVal n
    let tT := s.tpS i
    let dl := s.deltaS i
    let ka := r k.kacc
    let sp := s.setpoint i
    let vSp := ofVel64 sp.v
    let aSp := ofVel64 sp.a
    let pk := ofPos64 (s.recPos p)
    -- observer
    let zo := Config.exp (-(2 * Config.pi * r k.posobsbw * tT))
    let b := 1 - zo
    let pBar := ofPos64 x.pHat + tT * x.vHat + tT * tT / 2 * x.aHat
      + ka * (x.u2 * (dl * tT - dl * dl / 2) + x.u1 * (tT - dl) * (tT - dl) / 2)
    let vBar := x.vHat + tT * x.aHat + ka * (x.u2 * dl + x.u1 * (tT - dl))
    let nu := fp32 (pk - pBar)
    let aMax := mkRat 3 2 * ka * ratMax (s.axF P.axIlimpos i) (s.axF P.axIlimneg i)
    let pHat := toPos64 (pBar + (1 - zo * zo * zo) * nu)
    let vHat := fp32 (vBar + (3 * b * b - mkRat 3 2 * b * b * b) / tT * nu)
    let aHat := fp32 (ratClamp (-aMax) aMax (x.aHat + b * b * b / (tT * tT) * nu))
    -- law
    let w := 2 * Config.pi * r k.posbw
    let aPrev := ka * x.u1 + aHat
    let pA := ofPos64 pHat + vHat * dl + aPrev * dl * dl / 2
    let vA := vHat + aPrev * dl
    let at_ (t : Rat) : Rat × Rat :=
      let dt := (t - (sp.tSet : Rat)) / 1000000000
      (ofPos64 sp.p + vSp * dt + aSp * dt * dt / 2, vSp + aSp * dt)
    let tk : Rat := (s.recPair p 0x080 : Nat)
    let ref := at_ (tk + dl * 1000000000)
    let e := fp32 (ofPos64 (toPos64 ref.1) - pA)
    let s1 := if s.ax P.axIntmove i = 1 then fp32 (x.s + e * tT) else x.s
    let aCmd := r k.aff * aSp + 2 * w * (r k.vff * ref.2 - vA) + w * w * e + r k.posint * w * w * s1 - aHat
    let u := fp32 (aCmd / ka)
    let lp := s.axF P.axIlimpos i
    let ln := s.axF P.axIlimneg i
    let q := x.u1 / s.axF P.axIrated i
    let theta := fp32 (x.theta + tT / s.axF P.axI2ttau i * (q * q - x.theta))
    let f (v : Rat) := leBytes 4 (ratToFp v).toNat
    let box (u l1 l2 v : Rat) (pr : Int) (off : Nat) : List Byte := f u ++ f l1 ++ f l2 ++ f v ++ leInt 8 pr
      ++ leBytes 2 ((s.sampleCount p + x.m) % 65536) ++ leBytes 2 off ++ List.replicate 4 0#8
    let sent (bs : List Byte) : Xr := s.xr.mboxWrite (0x940000 + 0x200 * i.val + 0x70) 32 bs
    let only (t : State) : Prop := t = { s with axes := t.axes, eng := t.eng, xr := t.xr } ∧ ∀ j : Fin 512, j ≠ i → t.axes[j] = s.axes[j]
    (s.portOf i = none ∨ s.releases i 1 = false ∨ s.ax P.axGroup i ≠ 0 → Acts (.positionLoopRelease i) s fun t => t = s)
    ∧ (s.portOf i = some p → s.releases i 1 = true → s.ax P.axGroup i = 0 → s.ax P.axPosprog i = 0 → a.st = .moving → s.lawOn i = true →
    s.cfg.late = [] → a.net.owned = none →
    sp.seq ≠ x.mboxSeq → s.ax P.axFewarn i = 0 → s.ax P.axFelim i = 0 →
    (s.openLoop i = false → s.brakeCurrent i = none → s.axisRegen i = false → x.i2t = false → theta < 1 → x.sat = false →
      a.cur.intHold = false → -ln ≤ u → u ≤ lp → ratAbs vHat ≤ s.axF P.axVmaxtrip i → ofPos64 pHat ≤ s.axPos P.axSwlimpos i →
      s.axPos P.axSwlimneg i ≤ ofPos64 pHat →
      Acts (.positionLoopRelease i) s fun t => only t ∧ t.xr = sent (box u lp ln ref.2 (toPos64 ref.1) 0)
        ∧ ∃ z : PosLoop, ∃ c : CurLoop, t.axes[i] = { a with pos := z, posOld := x, cur := c } ∧ c = { a.cur with tblMissed := false }
          ∧ z.pHat = pHat ∧ z.vHat = vHat ∧ z.aHat = aHat ∧ z.s = s1 ∧ z.u1 = u ∧ z.u2 = x.u1 ∧ z.theta = theta ∧ z.sat = false
          ∧ z.i2t = false ∧ z.regen = false ∧ z.lPos = lp ∧ z.lNeg = ln ∧ (z.intHold = false ↔ s.ax P.axIntmove i = 1)
          ∧ z.pRef = toPos64 (at_ tk).1 ∧ z.err = fp32 (ofPos64 z.pRef - pk) ∧ z.mboxSeq = sp.seq)
    ∧ (s.openLoop i = true → ratAbs ref.2 ≤ s.axF P.axVmaxtrip i → ref.1 ≤ s.axPos P.axSwlimpos i →
      s.axPos P.axSwlimneg i ≤ ref.1 →
      Acts (.positionLoopRelease i) s fun t => only t ∧ t.xr = sent (box 0 lp ln ref.2 (toPos64 ref.1) 1)
        ∧ (t.axes[i]).pos.pHat = toPos64 ref.1 ∧ (t.axes[i]).pos.vHat = fp32 ref.2 ∧ (t.axes[i]).prof = a.prof
        ∧ (t.axes[i]).cur.uD = a.cur.uD))
    ∧ (∀ l : Fin 512, s.leads l = true → s.releases l 1 = true → s.cfg.late = [] →
      (groupTable ((assocGet? s.tables.group l.val).getD [])).n = (s.groupMembers l).length →
      (∀ j ∈ s.groupMembers l, (s.axes[j]).st = .disabled ∧ (s.axes[j]).energ = .off ∧ (s.portOf j).isSome = true) →
      Acts (.groupTaskRelease l) s fun t => (∀ v ∈ (t.axes[l]).pos.x, v = 0) ∧
        ∀ j ∈ s.groupMembers l, (t.axes[j]).pos.s = 0 ∧ (t.axes[j]).pos.u1 = 0)

/-! ### Axes (chapters 1, 10 and 11) -/

/-- R29, R32, R327, R553, Tables 1.9 to 1.12: `AXIS_ENABLE` and `AXIS_DISABLE` on an axis without a group: what each state answers, what
starts, what waits, what ends; and a wait that runs out.

The order of refusals that apply at once is the model's choice (log 95). -/
def Obligations.EnableDisable : Prop :=
  ∀ (s : State) (p : Packet) (i : Fin 512) (wait : Bool) (tmo mode d : Nat) (e : EnableOp),
    let a := s.axes[i]
    let r (n : Nat) := s.refOf (asOp p n)
    let op (ph : EnablePhase) : EnableOp :=
      { refs := (match a.enable with | some x => x.refs | none => []) ++ [r 0x0201], phase := ph, wait := wait, timeoutMs := tmo }
    let put (x : Axis) : State := s.updAxis i fun _ => x
    let free : Axis := { a with step := { a.step with coasting := false, holdReduced := false } }
    let cleared : State := s.setParam P.axHoldmode i.val 0 0
    let enabled := a.st = .enabledIdle ∨ a.st = .moving ∨ a.st = .homing ∨ a.st = .stopping
    let unlocked := ∀ q : Fin 64, s.portOf i = some q → (s.tg.ports[q]).st ≠ .lockout
    p.axis.toNat = i.val → s.bound i = true → s.ax P.axGroup i = 0 →
    (Served p 0x0201 s → p.args = leBytes 1 (b2n wait) ++ leBytes 1 0 ++ leBytes 2 tmo → tmo ≤ 10000 →
      (a.st = .retired → Sends (.axisEnable p) p s (Refused p 0x0201 s .retired 0))
      ∧ (a.st ≠ .retired → s.commitHolds i = true →
          Sends (.axisEnable p) p s (Accepted p 0x0201 s (put { a with enable := some (op .commit) })))
      ∧ (s.commitHolds i = false →
        (a.st = .stopping → Sends (.axisEnable p) p s (Refused p 0x0201 s .state 0x0006))
        ∧ (a.st = .fault → Sends (.axisEnable p) p s (Refused p 0x0201 s .state 0x0005))
        ∧ (a.st = .enabledIdle ∨ a.st = .moving ∨ a.st = .homing → Sends (.axisEnable p) p s (Ok p 0x0201 s s))
        ∧ (a.st = .ready ∨ a.st = .disabled → ∀ q : Fin 64, s.portOf i = some q → (s.tg.ports[q]).st = .lockout →
            Sends (.axisEnable p) p s (Refused p 0x0201 s .lockedOut 0))
        ∧ (a.st = .ready → unlocked → a.enable = none → Sends (.axisEnable p) p s (Accepted p 0x0201 s ((s.energiseStart i).updAxis i fun _ =>
            { a with enable := some (op .energising), energ := if s.isLocal i then .start else .off })))
        ∧ (a.st = .disabled → unlocked → s.missing i = some d →
            (wait = false → Sends (.axisEnable p) p s (Refused p 0x0201 s .state d))
            ∧ (wait = true → Sends (.axisEnable p) p s (Accepted p 0x0201 s (put { a with enable := some (op .waiting) }))))))
    ∧ (∀ q : Fin 64, s.portOf i = some q → s.isLocal i = true →
        (s.fbValid i q = false → s.missing i = some 0x0001)
        ∧ (s.fbValid i q = true → s.busReady (s.busOf q) = false → s.missing i = some 0x0002)
        ∧ (s.fbValid i q = true → s.busReady (s.busOf q) = true → (s.ports[q]).trip ≠ .armed → s.missing i = some 0x0003)
        ∧ (s.fbValid i q = true → s.busReady (s.busOf q) = true → (s.ports[q]).trip = .armed →
            ((s.ports[q]).drvflt = true → s.missing i = some 0x0014)
            ∧ ((s.ports[q]).drvflt = false → s.missing i = if s.tg.gen.getLsbD q.val then none else some 0x0004)))
    ∧ (a.enable = some e → e.phase = .waiting → s.missing i = some d → Acts (.enableWaitTimeout i) s fun t =>
        t = (s.completeAll e.refs .timeout d).updAxis i fun x => { x with enable := none, energ := .off })
    ∧ (Served p 0x0202 s → p.args = leBytes 1 mode ++ leBytes 3 0 → mode ≤ 2 →
      (a.st = .retired → Sends (.axisDisable p) p s (Refused p 0x0202 s .retired 0))
      ∧ (¬ enabled → a.st ≠ .retired → a.enable = none → Sends (.axisDisable p) p s (Ok p 0x0202 s s))
      ∧ (¬ enabled → a.st ≠ .retired → a.enable = some e → Sends (.axisDisable p) p s (Ok p 0x0202 s
          ((s.completeAll e.refs .aborted 0x0104).updAxis i fun x => { x with enable := none, energ := .off })))
      ∧ (a.enable = none → s.brakeTesting i = false →
        (a.st = .enabledIdle ∨ enabled ∧ mode = 2 → Sends (.axisDisable p) p s fun t =>
          Accepted p 0x0202 s (cleared.updAxis i fun _ =>
            { free with disabling := true, disableRefs := a.disableRefs ++ [r 0x0202], dropNow := true }) t
          ∧ (s.faulted i = false → (t.axes[i]).st = s.restState i ∧ (t.axes[i]).energ = .off ∧ (t.axes[i]).disableRefs = [])
          ∧ (s.faulted i = true → a.st ≠ .enabledIdle → (t.axes[i]).st = .fault))
        ∧ (a.st = .moving ∨ a.st = .homing → mode ≠ 2 → Sends (.axisDisable p) p s (Accepted p 0x0202 s
            (((cleared.updAxis i fun _ => free).endMotion i .aborted 0x0104).updAxis i fun x =>
              { x with st := .stopping, home := { x.home with phase := .none, after := none }
                       stop := if mode = 1 then .quick else .controlled, stopNew := true, disabling := true
                       disableRefs := x.disableRefs ++ [r 0x0202] })))
        ∧ (a.st = .stopping → mode = 0 ∨ mode = 1 ∧ a.stop = .quick → Sends (.axisDisable p) p s (Ok p 0x0202 s s))))

/-- R314, R320 to R324, R327, R341, Table 10.4: a motion command that the axis may run is accepted and waits for its takeover with
`AX.HOLDMODE` cleared; the state rows of the table; `STOP`; `HOME`. -/
def Obligations.MotionCommands : Prop :=
  ∀ (s : State) (p : Packet) (i : Fin 512),
    let a := s.axes[i]
    let b := p.args
    let cmd (n : Nat) (k : MotionKind) : MotionCmd :=
      { ref := some (s.refOf (asOp p n)), opcode := n, tag := p.tag, kind := k, at_ := s.now }
    let takes (m : MotionCmd) (st : AxState) : State :=
      ((s.finishMotion? i a.prof.next .aborted 0x0101).setParam P.axHoldmode i.val 0 0).updAxis i fun x =>
        { x with st := st, prof := { x.prof with next := some m } }
    let idle := a.st = .enabledIdle ∧ s.brakeTesting i = false ∧ s.net.owned.contains i.val = false
    let able := (a.st = .enabledIdle ∨ a.st = .moving) ∧ s.brakeTesting i = false ∧ s.net.owned.contains i.val = false
    let within (x : Int) (d : PDef) := x = 0 ∨ (0 < x ∧ ofVel64 x ≤ s.axVel d i)
    let cmdPos := ofPos64 a.prof.cmdPos
    let goal (n : Nat) : Rat :=
      if n = 0x0203 then ofPos64 (i64 b 0)
      else (if a.prof.positioning = true ∧ u8 b 32 = 0 then ofPos64 a.prof.target else cmdPos) + ofPos64 (i64 b 0)
    let inside (x : Rat) := s.axPos P.axSwlimneg i ≤ x ∧ x ≤ s.axPos P.axSwlimpos i
    let stops (k : StopKind) (w : State) : State := w.updAxis i fun x =>
      { x with st := .stopping, home := { x.home with phase := .none, after := none }, stop := k, stopNew := true
               stopCmd := some (cmd 0x0206 (.stop (k == .quick))) }
    p.axis.toNat = i.val → s.bound i = true →
    -- the state rows of Table 10.4, for the three moves
    (∀ c n, (c, n) ∈ [(Instr.moveAbs p, 0x0203), (.moveRel p, 0x0204), (.moveVel p, 0x0205)] → Served p n s →
      b.length = (if n = 0x0205 then 28 else 36) → rsvZero b (b.length - 3) 3 = true →
      u8 b (b.length - 4) < (if n = 0x0203 then 1 else 2) →
      (a.st = .retired → Sends c p s (Refused p n s .retired 0)) ∧ (a.st = .fault → Sends c p s (Refused p n s .state 0x0005))
      ∧ (a.st = .disabled ∨ a.st = .ready → Sends c p s (Refused p n s .state 0x0007))
      ∧ (a.st = .homing → Sends c p s (Refused p n s .state 0x0008))
      ∧ (a.st = .stopping → Sends c p s (Refused p n s .state 0x0006))
      ∧ (able → n ≠ 0x0205 →
          (¬ (within (i64 b 8) P.axVmax ∧ within (i64 b 16) P.axAmax ∧ within (i64 b 24) P.axDmax) →
            Sends c p s (Refused p n s .range 0x0101))
          ∧ (within (i64 b 8) P.axVmax → within (i64 b 16) P.axAmax → within (i64 b 24) P.axDmax →
            (¬ inside (goal n) → Sends c p s (Refused p n s .range 0x0102))
            ∧ (inside (goal n) → s.limitFree i (goal n - cmdPos) = false → Sends c p s (Refused p n s .range 0x0103))
            ∧ (inside (goal n) → s.limitFree i (goal n - cmdPos) = true → n = 0x0203 → s.ax P.axHomereq i = 1 →
                a.home.referenced = false → Sends c p s (Refused p n s .state 0x0009))
            ∧ (inside (goal n) → s.limitFree i (goal n - cmdPos) = true →
                (n = 0x0203 → s.ax P.axHomereq i ≠ 1 ∨ a.home.referenced = true →
                  Sends (.moveAbs p) p s (Accepted p 0x0203 s (takes { cmd 0x0203 (.absolute (i64 b 0)) with
                    vmax := i64 b 8, amax := i64 b 16, dmax := i64 b 24 } .moving)))
                ∧ (n = 0x0204 → Sends (.moveRel p) p s (Accepted p 0x0204 s (takes
                    { cmd 0x0204 (.relative (i64 b 0) (bit (u8 b 32) 0)) with
                      vmax := i64 b 8, amax := i64 b 16, dmax := i64 b 24 } .moving)))))))
    ∧ (Served p 0x0205 s → b.length = 28 → u8 b 24 < 2 → rsvZero b 25 3 = true → able →
        within (i64 b 8) P.axAmax → within (i64 b 16) P.axDmax →
        (u8 b 24 = 0 → ratAbs (ofVel64 (i64 b 0)) ≤ s.axVel P.axVmax i → s.limitFree i (ofVel64 (i64 b 0)) = true →
          Sends (.moveVel p) p s (Accepted p 0x0205 s (takes { cmd 0x0205 (.velocity (i64 b 0)) with
            amax := i64 b 8, dmax := i64 b 16 } .moving)))
        ∧ (u8 b 24 = 1 → (s.stepSource i = none → Sends (.moveVel p) p s (Refused p 0x0205 s .state 0x000A))
          ∧ (s.stepSource i ≠ none → Sends (.moveVel p) p s (Accepted p 0x0205 s (takes { cmd 0x0205 .follow with
              amax := i64 b 8, dmax := i64 b 16 } .moving)))))
    ∧ (Served p 0x0206 s → b.length = 4 → u8 b 0 ≤ 1 → rsvZero b 1 3 = true →
      let k : StopKind := if u8 b 0 = 1 then .quick else .controlled
      (a.st = .retired → Sends (.stop p) p s (Refused p 0x0206 s .retired 0))
      ∧ (a.st = .moving ∨ a.st = .homing →
          Sends (.stop p) p s (Accepted p 0x0206 s (stops k (s.endMotion i .aborted 0x0102))))
      ∧ (a.st = .stopping → k = .quick → a.stop ≠ .quick →
          Sends (.stop p) p s (Accepted p 0x0206 s (stops .quick (s.endStop i .aborted 0x0102))))
      ∧ (a.st = .stopping → k = .controlled ∨ a.stop = .quick → Sends (.stop p) p s (Ok p 0x0206 s s))
      ∧ (a.st = .enabledIdle ∨ a.st = .fault ∨ a.st = .disabled ∨ a.st = .ready → Sends (.stop p) p s (Ok p 0x0206 s s)))
    ∧ (Served p 0x0207 s → b.length = 12 → u8 b 1 < 2 → rsvZero b 2 2 = true → u8 b 0 < 6 ∨ u8 b 0 = 0xFF →
      let n := if u8 b 0 = 0xFF then s.ax P.axHomemethod i else u8 b 0
      let pos := if u8 b 1 = 1 then i64 b 4 else signed 64 (s.ax P.axHomepos i)
      (able → a.st = .moving → Sends (.home p) p s (Refused p 0x0207 s .state 0x000B))
      ∧ (idle → s.methodOk i n = false → Sends (.home p) p s (Refused p 0x0207 s .range 0x0104))
      ∧ (idle → s.methodOk i n = true → Sends (.home p) p s fun t => ∃ h : Homing, h.method = n ∧ h.homePos = pos
          ∧ h.seenInactive = !(s.inputActive i (s.refInput i n).1 (s.refInput i n).2) ∧ h.phase = .none ∧ h.after = none
          ∧ h.referenced = a.home.referenced
          ∧ Accepted p 0x0207 s ((takes (cmd 0x0207 (.home n pos)) .homing).updAxis i fun x => { x with home := h }) t))

/-- R353 to R358, R361 to R367, Tables 11.1 to 11.6: the coordination commands on an axis that may move: what they need, and what they
leave waiting for the takeover. -/
def Obligations.Coordination : Prop :=
  ∀ (s : State) (p : Packet) (i : Fin 512) (cam : Fin 64) (run : PathRun),
    let a := s.axes[i]
    let b := p.args
    let cmd (n : Nat) (k : MotionKind) : MotionCmd :=
      { ref := some (s.refOf (asOp p n)), opcode := n, tag := p.tag, kind := k, at_ := s.now }
    let takes (m : MotionCmd) : State :=
      ((s.finishMotion? i a.prof.next .aborted 0x0101).setParam P.axHoldmode i.val 0 0).updAxis i fun x =>
        { x with st := .moving, prof := { x.prof with next := some m } }
    let able := (a.st = .enabledIdle ∨ a.st = .moving) ∧ s.brakeTesting i = false ∧ s.net.owned.contains i.val = false
    let crossing (fl : Nat) (pos : Int) : Option AtMaster := if fl % 2 = 1 then some ⟨pos, fl / 2 % 2 == 1⟩ else none
    let locked := a.prof.source = .gear ∧ ∃ g, a.coord.gear = some g ∧ g.phase = .locked
    p.axis.toNat = i.val → s.bound i = true → able →
    (Served p 0x0209 s → b.length = 32 → u8 b 8 ≤ 2 → u8 b 9 < 4 → rsvZero b 10 2 = true → (u8 b 9 % 2 = 0 → i64 b 16 = 0) →
      (u8 b 8 ≠ 2 → i64 b 24 = 0) → (u8 b 8 = 0 → i32 b 12 = 0) → (u8 b 8 = 2 → i32 b 0 = 0 ∧ u32 b 4 = 0) →
      let g : GearCmd := { num := i32 b 0, den := u32 b 4, mode := u8 b 8, at_ := crossing (u8 b 9) (i64 b 16), len := i32 b 12
                           offset := i64 b 24 }
      let synchronous := u8 b 8 = 0 ∨ locked ∨ (u8 b 8 = 1 ∧ a.st = .enabledIdle)
      (s.ax P.axMaster i = 0xFFFF → Sends (.gearEngage p) p s (Refused p 0x0209 s .state 0x000F))
      ∧ (s.ax P.axMaster i ≠ 0xFFFF →
        (¬ synchronous → Sends (.gearEngage p) p s (Refused p 0x0209 s .state 0x000C))
        ∧ (synchronous →
          (u8 b 8 ≠ 2 ∧ (i32 b 0 = 0 ∨ u32 b 4 = 0) ∨ u8 b 8 ≠ 0 ∧ i32 b 12 = 0 →
            Sends (.gearEngage p) p s (Refused p 0x0209 s .range 0x0101))
          ∧ ((u8 b 8 ≠ 2 → i32 b 0 ≠ 0 ∧ u32 b 4 ≠ 0) → (u8 b 8 ≠ 0 → i32 b 12 ≠ 0) →
            Sends (.gearEngage p) p s (Accepted p 0x0209 s (takes (cmd 0x0209 (.gear g))))))))
    ∧ (Served p 0x020A s → b.length = 16 → u8 b 0 ≤ 3 → u8 b 1 < 4 → rsvZero b 2 2 = true → (u8 b 1 % 2 = 0 → i64 b 8 = 0) →
      (u8 b 0 ≠ 3 → i32 b 4 = 0) →
      (a.prof.source ≠ .gear → a.prof.source ≠ .cam → Sends (.gearRelease p) p s (Ok p 0x020A s s))
      ∧ (a.prof.source = .gear ∨ a.prof.source = .cam ∧ u8 b 0 ≠ 3 → s.ax P.axMaster i ≠ 0xFFFF → (u8 b 0 = 3 → i32 b 4 ≠ 0) →
          Sends (.gearRelease p) p s
            (Accepted p 0x020A s (takes (cmd 0x020A (.release (u8 b 0) (crossing (u8 b 1) (i64 b 8)) (i32 b 4)))))))
    ∧ (Served p 0x020B s → b.length = 32 → u8 b 0 = cam.val → u8 b 1 ≤ 2 → u8 b 2 < 16 → rsvZero b 3 5 = true →
      (u8 b 2 % 2 = 0 → i64 b 24 = 0) → s.ax P.axMaster i ≠ 0xFFFF →
      let c : CamCmd := { cam := cam, mode := u8 b 1, at_ := crossing (u8 b 2) (i64 b 24), relative := bit (u8 b 2) 2
                          oneShot := bit (u8 b 2) 3, phase := i64 b 8, offset := i64 b 16 }
      let same := a.prof.source = .cam ∧ ∃ k, a.coord.cam = some k ∧ k.cam = cam
      let usable := assocGet? s.tables.cams cam.val ≠ none ∧ ¬ (c.oneShot = true ∧ camPeriodic (s.camTable cam) = true)
      let jumps := u8 b 1 = 0 ∧ c.relative = false ∧ s.ax P.axCamblend i = 0 ∧ 1 < ratAbs (s.camGap i c)
      (u8 b 1 ≠ 0 → ¬ same → Sends (.camEngage p) p s (Refused p 0x020B s .state 0x000C))
      ∧ (u8 b 1 = 0 ∨ same → ¬ usable → Sends (.camEngage p) p s (Refused p 0x020B s .range 0x0102))
      ∧ (u8 b 1 = 0 ∨ same → usable → jumps → Sends (.camEngage p) p s (Refused p 0x020B s .range 0x0103))
      ∧ (u8 b 1 = 0 ∨ same → usable → ¬ jumps →
          Sends (.camEngage p) p s (Accepted p 0x020B s (takes (cmd 0x020B (.cam c))))))
    ∧ (∀ (k n : Nat), Served p 0x0208 s → b.length = 12 + k * (16 + 16 * n) → u8 b 0 = k → u8 b 1 = n → 1 ≤ k → 1 ≤ n → n ≤ 8 →
      rsvZero b 2 2 = true → segsReserved (b.drop 12) n k = true →
      let segs := pathSegments (b.drop 12) n k
      let grp := s.pathGroup i
      let t0 := if u64 b 4 = 0 then s.now else u64 b 4
      let ordered (tA : Nat) := ∀ m < k, ∀ g, segs[m]? = some g →
        (if m = 0 then tA else ((segs[m - 1]?).map (·.tEnd)).getD 0) + 10000 ≤ g.tEnd ∧ (g.last = true → m + 1 = k)
          ∧ (g.last = true → g.cubic = true → ∀ e ∈ g.ends, e.2 = 0)
      (grp.head? ≠ some i → Sends (.pathAppend p) p s (Refused p 0x0208 s .state 0x0010))
      ∧ (grp.head? = some i → s.pathRunning i = none → (∃ j ∈ grp, (s.axes[j]).st ≠ .enabledIdle) →
          Sends (.pathAppend p) p s (Refused p 0x0208 s .state 0x0011))
      ∧ (grp.head? = some i → grp.length = n → s.pathRunning i = none → (∀ j ∈ grp, (s.axes[j]).st = .enabledIdle) →
          (∀ j ∈ grp, (s.axes[j]).prof.next = none) → ordered t0 → (∀ g ∈ segs.head?, s.now < g.tEnd) → k ≤ 1024 →
          Sends (.pathAppend p) p s fun t => ∃ u : State, Accepted p 0x0208 s u t
            ∧ u = { s with axes := u.axes, cfg := u.cfg } ∧ (∀ j, j ∉ grp → u.axes[j] = s.axes[j])
            ∧ (u.axes[i]).coord.path = some
                { members := grp.map (·.val), tStart := if u64 b 4 = 0 then none else some (u64 b 4)
                  start := grp.map (fun j => (ofPos64 (s.axes[j]).prof.cmdPos, 0)), segs := segs }
            ∧ ∀ j ∈ grp, (u.axes[j]).st = .moving ∧ (u.axes[j]).coord.pathLeader = some i.val
                ∧ (u.axes[j]).prof = { (s.axes[j]).prof with
                    next := some { cmd 0x0208 .path with ref := if j = i then some (s.refOf (asOp p 0x0208)) else none } })
      ∧ (∀ g, grp.head? = some i → grp.length = n → s.pathRunning i = some run → run.segs.getLast? = some g → g.last = false →
          ordered g.tEnd → (∀ h ∈ segs.head?, s.now < h.tEnd) →
          (1024 < run.segs.length + k → Sends (.pathAppend p) p s (Refused p 0x0208 s .queueFull 0x0001))
          ∧ (run.segs.length + k ≤ 1024 → Sends (.pathAppend p) p s (Ok p 0x0208 s
              (s.updAxis i fun x => { x with coord := { x.coord with path := some { run with segs := run.segs ++ segs } } })))))

/-- R28, R281, R303, R311, R314, R316, R320, R323, R345, R347, R371, Tables 1.7, 1.9, 9.1: a release of the setpoint task on an axis
without latches and compares: what each state publishes, the takeover of a positioning move, its run and its end at the target; and
what standstill ends. -/
def Obligations.Setpoints : Prop :=
  ∀ (s : State) (i : Fin 512) (m : MotionCmd) (y : Int) (n : Nat),
    let a := s.axes[i]
    let f := a.prof
    let now := s.nowRat
    let real := s.isVirtual i = false ∧ s.openLoop i = false
    let served := s.bound i = true ∧ s.releases i 2 = true
    let quiet := ∀ k : Fin 4, a.latches[k] = {} ∧ a.compares[k] = {}
    let at_ (x : PVA) (p : Profile) : Profile := { p with
      cmdPos := toPos64 x.1, cmdVel := toVel64 x.2.1, cmdAcc := toVel64 x.2.2, relT := now, relP := x.1, relV := x.2.1
      regenScaled := p.regenScaled || s.axisRegen i }
    -- a `VIRTUAL` axis that its setpoints take beyond no limit
    let calm (p : Profile) := s.isVirtual i = true → ratAbs (ofVel64 p.cmdVel) ≤ s.axF P.axVmaxtrip i
      ∧ s.axPos P.axSwlimneg i ≤ ofPos64 p.cmdPos ∧ ofPos64 p.cmdPos ≤ s.axPos P.axSwlimpos i
    -- the state once axis `x` has been published on top of `u`
    let shown (u : State) (x : Axis) (none_ : Bool) : State :=
      let p := x.prof
      let fast := p.cmdVel ≠ 0 ∨ real ∧ s.axF P.axStandvel i < ratAbs (ofVel64 (({ s with axes := upd s.axes i fun _ => x } : State).actVel i))
      ({ u with
        probes := s.probes.map fun q => { q with fifo := [] }
        xr := s.xr.mboxWrite (0x940000 + 0x200 * i.val) 48 (leBytes 8 s.now ++ leInt 8 p.cmdPos ++ leInt 8 p.cmdVel
          ++ leInt 8 p.cmdAcc ++ leBytes 4 (b2n none_) ++ List.replicate 12 0#8) } : State).updAxis i fun _ =>
            { x with spHist := ((s.now, p.cmdPos, p.cmdVel) :: a.spHist).take 64
                     pos := { x.pos with
                       stand := if fast then false else x.pos.stand
                       standSince := if fast then none else some (x.pos.standSince.getD s.ticks)
                       overspeed := if s.isVirtual i then 0 else x.pos.overspeed, sw := if s.isVirtual i then 0 else x.pos.sw } }
    let shows (u : State) (x : Axis) (none_ : Bool) : Prop :=
      calm x.prof → Acts (.setpointRelease i) s fun t => t = shown u x none_
    let unlimited := { a.coord with limit := false, masterStale := false }
    let rest (p : Profile) : Profile := { p with
      cur := none, source := .none, positioning := false, locked := false, idle := false, plan := {}, cmdVel := 0, cmdAcc := 0 }
    let dropped (x : Axis) : Axis := { x with
      st := .enabledIdle, coord := { x.coord with wait := none, gear := none, cam := none, pathLeader := none }
      stop := .none, stopNew := false, stopForFault := false, handling := 0 }
    let plan (b : Bands) := b.move (.move (ofPos64 y)) now (s.sourceState i now).1 (s.sourceState i now).2.1 (ofPos64 y) (s.axisRegen i)
    (s.cfg.late = [] → ¬ served → Acts (.setpointRelease i) s fun t => t = s)
    ∧ (s.cfg.late = [] → served → quiet →
      (a.st = .disabled ∨ a.st = .fault ∨ a.st = .ready ∧ a.enable = none →
        shows s { a with prof := { f with
          cmdPos := s.actPos i, cmdVel := 0, cmdAcc := 0, relT := now, relP := ofPos64 (s.actPos i), relV := 0, source := .none } } true)
      ∧ (a.st = .enabledIdle → s.net.owned.contains i.val = false →
        shows s { a with prof := { f with cmdVel := 0, cmdAcc := 0, relT := now, relP := ofPos64 f.cmdPos, relV := 0 } }
          (f.source == .none))
      -- a positioning move that runs, outside a reversal
      ∧ (a.st = .moving → f.next = none → f.source = .profile → a.coord.wait = none → f.plan.scaled = s.axisRegen i →
        f.plan.revAt = none → f.plan.kind = .move (ofPos64 y) →
        (f.plan.ended now = false → shows s { a with prof := at_ (f.plan.at now) f, coord := unlimited } false)
        ∧ ((f.plan.seg? now).isNone = true → f.plan.ended now = true → f.plan.endP = ofPos64 y → f.plan.endV = 0 → -(2 ^ 63) ≤ y →
          y < 2 ^ 63 → f.cur = some m →
          m.done = false →
            let g := at_ (ofPos64 y, 0, 0) f
            g.cmdPos = y ∧ shows ((s.updAxis i fun _ => { a with prof := g, coord := unlimited }).finishMotion i m .done 0)
              (dropped { a with prof := rest g, coord := unlimited }) true))
      -- its takeover
      ∧ (a.st = .moving → f.next = some m → m.kind = .absolute y → m.at_ ≤ s.now → m.timed = false → a.step.catching = none →
        a.step.coasting = false → a.step.caught = none → a.coord.pathLeader = none → s.isVirtual i = false →
        ∀ b : Bands, b = (s.updProf i fun p => { p with vmax := m.vmax, amax := m.amax, dmax := m.dmax }).bands i 0 →
        (plan b).revAt = none → (plan b).ended now = false → Acts (.setpointRelease i) s fun t =>
          (t.axes[i]).prof.plan = plan b ∧ (t.axes[i]).prof.source = .profile ∧ (t.axes[i]).prof.target = toPos64 (ofPos64 y)
          ∧ (t.axes[i]).prof.positioning = true ∧ (t.axes[i]).prof.next = none
          ∧ (t.axes[i]).prof.cur = some { m with tookOver := s.now }
          ∧ (t.axes[i]).prof.cmdPos = toPos64 ((plan b).at now).1 ∧ (t.axes[i]).prof.cmdVel = toVel64 ((plan b).at now).2.1
          ∧ (t.axes[i]).coord.gear = none ∧ (t.axes[i]).coord.cam = none ∧ (∀ j, j ≠ i → t.axes[j] = s.axes[j])))
    -- standstill: its condition has held for `AX.STANDTIME`
    ∧ (s.stoodStill i = true → s.still i = true ∧ (s.ax P.axStandtime i = 0 ∨
        ∃ k, a.pos.standSince = some k ∧ 2 * s.ax P.axStandtime i ≤ 5 * (s.ticks - k)))
    ∧ (s.bound i = false ∨ s.stoodStill i = false → Acts (.standstillReached i) s fun t => t = s)
    ∧ (s.bound i = true → f.cmdVel = 0 → ¬ real ∨ ratAbs (ofVel64 (s.actVel i)) ≤ s.axF P.axStandvel i →
      (s.ax P.axStandtime i = 0 ∨ ∃ k, a.pos.standSince = some k ∧ 2 * s.ax P.axStandtime i ≤ 5 * (s.ticks - k)) →
      let u : State := s.updAxis i fun x => { x with pos := { x.pos with stand := true } }
      let ended := f.plan.ended now = true
      (a.st = .disabled ∨ a.st = .ready ∨ a.st = .enabledIdle ∨ a.st = .fault ∨ a.st = .retired →
        Acts (.standstillReached i) s fun t => t = u)
      ∧ (a.st = .stopping → a.stopNew = true ∨ f.plan.ended now = false → Acts (.standstillReached i) s fun t => t = u)
      ∧ (a.st = .stopping → a.stopNew = false → ended → a.stopCmd = some m → m.done = false → f.cur = none →
        let w := u.finishMotion i m .done 0
        (a.ss1 = true → Acts (.standstillReached i) s fun t => t = w.updAxis i fun x => { x with stopCmd := none })
        ∧ (a.ss1 = false → a.stopForFault = false → a.disabling = false → Acts (.standstillReached i) s fun t =>
            t = w.updAxis i fun x => dropped { x with stopCmd := none, prof := rest x.prof }))
      ∧ (a.st = .stopping → a.stopNew = false → ended → a.ss1 = false → a.stopForFault = true → s.faulted i = true →
        Acts (.standstillReached i) s fun t => (t.axes[i]).st = .fault ∧ (t.axes[i]).disableRefs = []
          ∧ t.cfg = { s.cfg with params := storeParam s.cfg.params P.axHoldmode i.val P.axHoldmode.idx 0 }
          ∧ ∀ j, j ≠ i → t.axes[j] = s.axes[j])
      ∧ (a.st = .stopping → a.stopNew = false → ended → a.ss1 = false → a.stopForFault = false → a.disabling = true →
        Acts (.standstillReached i) s fun t => (t.axes[i]).st = s.restState i ∧ (t.axes[i]).disabling = false
          ∧ (t.axes[i]).energ = .off ∧ ∀ j, j ≠ i → t.axes[j] = s.axes[j])
      ∧ (a.st = .homing → f.next = none → ended → f.cur = some m → m.done = false →
        (a.home.after = none → a.home.phase = .finish → Acts (.standstillReached i) s fun t =>
          (t.axes[i]).st = .enabledIdle ∧ (t.axes[i]).home = { a.home with phase := .none, after := none, reversed := false, stuck := false }
          ∧ (t.axes[i]).prof = rest f ∧ ∀ j, j ≠ i → t.axes[j] = s.axes[j])
        ∧ (a.home.after = some (.failed n) → Acts (.standstillReached i) s fun t =>
          (t.axes[i]).st = .enabledIdle ∧ (t.axes[i]).home.referenced = false ∧ (t.axes[i]).home.phase = .none
          ∧ (t.axes[i]).prof.cmdPos = toPos64 (ofPos64 f.cmdPos - a.home.delta)
          ∧ ∀ q : Fin 64, s.portOf i = some q → (t.fb[q]).offset = (s.fb[q]).offset - a.home.delta)))

/-- R189 to R191, R195, R197, R206, R216, R326, R327, R332 to R338, R555: what energising does at sample events and at the end of its
steps on a local axis, the conditions that a held timer turns into a fault, and a release of program 0x0002 on an enabled stepper
without an encoder. -/
def Obligations.Energising : Prop :=
  ∀ (s : State) (i : Fin 512) (p : Fin 64) (e : Fin 24) (n : Nat) (b0 b1 b2 b3 : BitVec 192) (d h : Nat) (w th : Rat),
    let a := s.axes[i]
    let c := a.cur
    let x := a.step
    let f := s.fb[p]
    let put (b : Axis) : State := s.updAxis i fun _ => b
    let fails (code detail : Nat) (v : State) : State := (v.raiseAxis i code 4 detail).endEnable i .aborted 0
    let after : Energise := if s.bootstrap p then .precharge else .preInit
    let n3 : Rat := ((s.pt P.ptSdosr p ^ 3 : Nat) : Rat)
    let mean (q : Nat) : Rat := fp32 (s.axF P.axIscale i * ((q : Rat) / 1024 / n3 - mkRat 1 2))
    let om := s.omegaE i (s.recVel p)
    let speed := s.omegaE i (ofVel64 (s.ports[p]).latVel)
    let inVel := -(2 ^ 63) ≤ (s.ports[p]).latVel ∧ (s.ports[p]).latVel < 2 ^ 63
    let samples (b : Axis) (t : State) : Prop := t = { s with axes := upd s.axes i fun _ => b, ports := t.ports, dbg := t.dbg }
    let y (win : BitVec 192) : Nat := s.decimate p win.toNat % 2 ^ 32
    let x1 := ofPos64 (s.recPos p)
    let turned := ratAbs (x1 - c.alignP0) * 360 * (s.ax P.axPolepairs i : Rat) / (s.crev i : Rat)
    let turn := 4 * s.ax P.axMicrostep i
    let cleared (cal : CurLoop) : CurLoop := { cal.rest with
      lateCnt := 0, angleCoarse := false, alignStep := 0, angleValid := s.ax P.axAngleinit i == 0 && s.isServo i }
    let fresh : Stepper := { x with o1 := 0, o2 := 0, catching := none, caught := none, open1 := 0, open2 := 0 }
    s.portOf i = some p →
    -- R190: calibration
    (a.energ = .calibrate → c.calN = 1024 →
      (ratAbs (mean c.calA) ≤ s.axF P.axIoffmax i → ratAbs (mean c.calB) ≤ s.axF P.axIoffmax i →
        Acts (.offsetCalComplete i) s fun t => t = put { a with
          energ := after, cur := { c with ioffA := mean c.calA, ioffB := mean c.calB } })
      ∧ (s.axF P.axIoffmax i < ratAbs (mean c.calA) ∨ s.axF P.axIoffmax i < ratAbs (mean c.calB) →
        Acts (.offsetCalComplete i) s fun t => t = fails 0x0301 0 s))
    ∧ (a.energ = .precharge → Acts (.bootstrapPrechargeEnd i) s fun t => t = put { a with energ := .preInit })
    -- R555: sample events
    ∧ (s.axisOf p = some i → (a.st ≠ .ready ∨ a.energ = .off → Acts (.sampleEvent p b0 b1 b2 b3) s (samples a))
      ∧ (a.st = .ready →
        (a.energ = .calibrate → c.calN < 1024 → Acts (.sampleEvent p b0 b1 b2 b3) s (samples { a with
          cur := { c with calA := c.calA + y b0, calB := c.calB + y b1, calN := c.calN + 1 } }))
        ∧ (a.energ = .start → inVel → s.isServo i = false ∨ ratAbs speed ≤ s.axF P.axOffcalvel i →
          Acts (.sampleEvent p b0 b1 b2 b3) s (samples { a with
            energ := .calibrate, step := fresh
            cur := { cleared c with offsetSkipped := false, calA := y b0, calB := y b1, calN := 1 } }))
        ∧ (a.energ = .start → inVel → s.isServo i = true → s.axF P.axOffcalvel i < ratAbs speed →
          Acts (.sampleEvent p b0 b1 b2 b3) s (samples { a with
            energ := after, step := fresh, cur := { cleared c with offsetSkipped := true, calA := 0, calB := 0, calN := 0 } }))
        ∧ (a.energ = .preInit → s.ax P.axCurprog i = 0 →
          (s.isServo i = true → s.ax P.axAngleinit i = 0 → Acts (.sampleEvent p b0 b1 b2 b3) s (samples { a with
            energ := .running, cur := { c with angleValid := true } }))
          ∧ (s.isServo i = true → s.ax P.axAngleinit i = 1 → f.hall = 0 ∨ f.hall = 7 →
            Acts (.sampleEvent p b0 b1 b2 b3) s fun t => ∃ v, samples a v ∧ t = fails 0x0306 1 v)
          ∧ (s.isServo i = true → s.ax P.axAngleinit i = 1 → s.ax P.axAnglesrc i = 1 → f.hall = h → 1 ≤ h → h ≤ 6 →
            Acts (.sampleEvent p b0 b1 b2 b3) s (samples { a with
              energ := .init
              cur := { c with thetaW := fp32 (wrapAngle (s.hallCentre i h)), angleCoarse := true, theta := s.hallCentre i h
                              hallMark := match f.hallEdge with | some q => q.1 | none => -1 } }))
          ∧ (s.isServo i = true → s.ax P.axAngleinit i = 2 → Acts (.sampleEvent p b0 b1 b2 b3) s (samples { a with
              energ := .init, cur := { c with alignStep := 1, alignT0 := s.now, alignVolt := false, alignLo := none } }))
          ∧ (s.isStep i = true → s.openLoop i = true → Acts (.sampleEvent p b0 b1 b2 b3) s (samples { a with
              energ := .init, step := { x with catching := some false, samples := [], catchT0 := s.now, caught := none } })))))
    -- R197: alignment
    ∧ (a.energ = .init → c.alignStep = 1 → Acts (.alignStepEnd i) s fun t => t = put { a with
        cur := { c with alignStep := 2, alignT0 := s.now, alignP0 := x1, alignLo := none } })
    ∧ (a.energ = .init → c.alignStep = 2 → s.crev i ≠ 0 →
      let cur := { c with alignStep := 0, thetaW := fp32 (wrapAngle (-(s.baseAngle i p om))) }
      (turned < 45 → Acts (.alignStepEnd i) s fun t => t = fails 0x0305 1 (put { a with cur := cur }))
      ∧ (∀ lo, 45 ≤ turned → c.alignLo = some lo → ratMax c.alignHi x1 - ratMin lo x1 ≤ (s.ax P.axAlignsettle i : Rat) →
        (c.alignVolt = true → Acts (.alignStepEnd i) s fun t => t = fails 0x0305 3 (put { a with cur := cur }))
        ∧ (c.alignVolt = false → Acts (.alignStepEnd i) s fun t => t = put { a with
            energ := .running, cur := { cur with angleValid := true } })))
    -- R326, R335 to R337: a stepper
    ∧ (s.isStep i = true → s.openLoop i = false → a.energ = .init → Acts (.stepInitEnd i) s fun t => t = put { a with
        energ := .running
        cur := { c with angleValid := true, thetaW := fp32 (wrapAngle (x.initAngle - turnAngle 1 (s.recPos p) turn)) } })
    ∧ (x.samples ≠ [] → (∀ q ∈ x.samples, q.1 * q.1 + q.2.1 * q.2.1 < s.axF P.axCatchemin i * s.axF P.axCatchemin i) →
        s.judgeCatch i = .standstill)
    ∧ (let still : Stepper := { x with catching := none, samples := [], catchT0 := s.now }
      let coasts (b : State) : State := (b.setParam P.axHoldmode i.val 0 2).updStep i fun z => { z with coasting := true }
      let q := nearestCount turn (ofPos64 a.prof.cmdPos) (th - ratSign w * Config.pi / 2)
      (x.catching = some false →
        (s.judgeCatch i = .standstill → Acts (.catchWindowEnd i) s fun t => t = put { a with
          energ := .running, step := { still with catchValid := true } })
        ∧ (s.judgeCatch i = .motion w th → Acts (.catchWindowEnd i) s fun t => t = coasts (put { a with
          energ := .running, step := { still with catchValid := true } }))
        ∧ (s.judgeCatch i = .invalid d → Acts (.catchWindowEnd i) s fun t => t = coasts (put { a with
          energ := .running, step := { still with catchValid := false } })))
      ∧ (x.catching = some true →
        (s.judgeCatch i = .standstill → Acts (.catchWindowEnd i) s fun t => t = put { a with
          step := { still with catchValid := true, caught := some (ofPos64 a.prof.cmdPos, 0) } })
        ∧ (s.judgeCatch i = .motion w th → Acts (.catchWindowEnd i) s fun t => t = put { a with
          step := { still with catchValid := true, caught := some (q, w * (turn : Rat) / (2 * Config.pi)) }
          home := { a.home with referenced := false } })
        ∧ (s.judgeCatch i = .invalid d → Acts (.catchWindowEnd i) s fun t => ∃ v : State,
          v = (put { a with step := still }).endMotion i .spinning d ∧ (t.axes[i]).st = .enabledIdle
          ∧ (t.axes[i]).step = { still with catchValid := false, coasting := true } ∧ (t.axes[i]).prof.next = none
          ∧ t.host = v.host ∧ ∀ j, j ≠ i → t.axes[j] = s.axes[j])))
    -- held conditions
    ∧ (s.isServo i = true → (∀ k, c.losSince = some k → 2 * s.ax P.axLostime i ≤ 5 * (s.ticks - k) → s.activeAxisFault 0x0304 i = false →
        Acts (.lossOfSync i) s fun t => t = s.raiseAxis i 0x0304 (s.ax P.axLosclass i))
      ∧ ((∀ k, c.losSince = some k → 5 * (s.ticks - k) < 2 * s.ax P.axLostime i) → Acts (.lossOfSync i) s fun t => t = s))
    ∧ (s.ax P.axSdfltcnt i ≤ c.satA ∨ s.ax P.axSdfltcnt i ≤ c.satB → s.activeAxisFault 0x0303 i = false →
        Acts (.sdFault i) s fun t => t = s.raiseAxis i 0x0303 4)
    ∧ (c.satA < s.ax P.axSdfltcnt i → c.satB < s.ax P.axSdfltcnt i → Acts (.sdFault i) s fun t => t = s)
    ∧ (s.isStep i = true → Acts (.windingOpen i) s fun t =>
        t = if 10 ≤ x.open1 then s.raiseAxis i 0x0504 4 1 else if 10 ≤ x.open2 then s.raiseAxis i 0x0504 4 2 else s)
    ∧ (s.isStep i = true → (∀ k, x.stallLi = some k ∨ x.stallEmf = some k → 5 * (s.ticks - k) < 2 * s.ax P.axStalltime i) →
        Acts (.stallTimer i) s fun t => t = s)
    ∧ (∀ k, s.isStep i = true → x.stallLi = some k ∨ x.stallEmf = some k → 2 * s.ax P.axStalltime i ≤ 5 * (s.ticks - k) →
      (a.st = .homing → a.home.phase = .stall → Acts (.stallTimer i) s fun t =>
        t = put { a with home := { a.home with stall := true } })
      ∧ (a.st ≠ .homing ∨ a.home.phase ≠ .stall → Acts (.stallTimer i) s fun t => ∃ v : State,
        v = s.raiseAxis i 0x0501 (s.ax P.axStallclass i)
        ∧ t = if s.openLoop i then v.updAxis i fun b => { b with home := { b.home with referenced := false } } else v))
    ∧ (Acts (.coefficientSwitch i) s fun t => t = put { a with coef :=
        { curbw := s.ax P.axCurbw i, obsbw := s.ax P.axObsbw i, curint := s.ax P.axCurint i, rs := s.ax P.axRs i
          ld := s.ax P.axLd i, lq := s.ax P.axLq i, psim := s.ax P.axPsim i, kacc := s.ax P.axKacc i, posbw := s.ax P.axPosbw i
          posint := s.ax P.axPosint i, posobsbw := s.ax P.axPosobsbw i, vff := s.ax P.axVffgain i, aff := s.ax P.axAffgain i } })
    -- a release of program 0x0002
    ∧ (s.isStep i = true → s.ax P.axCurprog i = 0 → s.releases i 0 = true → s.lawOn i = true → s.openLoop i = true →
      x.catching = none → x.coasting = false → (a.st = .enabledIdle → s.ax P.axHoldmode i ≠ 2) → (s.curRef i).seq = c.mboxSeq →
      a.pos.curSeq = c.mboxSeq → s.overdue i a.pos.curSince (s.tp i) = false → ratAbs (s.recAmps i p 0) ≤ s.axF P.axImaxtrip i →
      ratAbs (s.recAmps i p 1) ≤ s.axF P.axImaxtrip i → s.ownerOf p = some e → (s.eng[e]).portSlot p = some n →
      s.recStuck p 0 = false → s.recStuck p 1 = false → 1 ≤ s.ax P.axSdfltcnt i →
      let amps := if a.st = .enabledIdle ∧ s.ax P.axHoldmode i = 1 then s.axF P.axStepihold i else s.axF P.axStepirun i
      let j := s.sampleCount p
      let pc := ofPos64 c.pRef + c.vRef * ((signed 16 (j + 65536 - c.takeAt) : Int) : Rat) * (s.tc i / 1000000000)
      let angle := 2 * Config.pi * (((pc.floor * 65536 * 65536) / (turn : Int) % 4294967296 : Int) : Rat) / 4294967296
      let r1 := fp32 (amps * Config.cos angle)
      let r2 := fp32 (amps * Config.sin angle)
      let hyst := s.axF P.axChophyst i
      let units (v off : Rat) : Int := roundAway ((v + off) / s.axF P.axIscale i * ((s.ax P.axChoposr i ^ 3 : Nat) : Rat))
      let word (r o off : Rat) : Word := if ratAbs r < hyst / 2 then 0 else BitVec.ofNat 32
        (unsigned 16 (units (r + o + ratSign r * hyst / 2) off) + unsigned 16 (units (r + o - ratSign r * hyst / 2) off) * 65536)
      let adapted (r o m : Rat) (old : Int) : Rat :=
        if s.axF P.axStepirun i / 10 ≤ ratAbs r ∧ (if r < 0 then -1 else 1) = old then
          fp32 (ratClamp (-hyst) hyst (o + s.axF P.axChopadapt i * (s.tc i / 1000000000) * (r - m))) else o
      let ctl : Word := BitVec.ofNat 32 (5 * s.ax P.axChopdecay i + 256 * s.ax P.axChopfast i)
      Acts (.stepperCurrentRelease i) s fun t => t = { s with axes := t.axes, eng := t.eng }
        ∧ (∀ k : Fin 512, k ≠ i → t.axes[k] = s.axes[k])
        ∧ (t.eng[e]).pstores = (s.eng[e]).pstores ++
            [(256 * n + 0x10, [word r1 x.o1 c.ioffA, word r2 x.o2 c.ioffB, ctl].flatMap fun z => leBytes 4 z.toNat),
             (256 * n, List.replicate 16 0#8)]
        ∧ ∃ (cur : CurLoop) (z : Stepper) (pos : PosLoop),
            t.axes[i] = { a with cur := cur, curOld := c, step := z, pos := pos }
            ∧ z.o1 = adapted r1 x.o1 (s.recAmps i p 0) x.d1 ∧ z.o2 = adapted r2 x.o2 (s.recAmps i p 1) x.d2
            ∧ z.d1 = (if r1 < 0 then -1 else 1) ∧ z.d2 = (if r2 < 0 then -1 else 1) ∧ z.i1 = s.recAmps i p 0
            ∧ z.i2 = s.recAmps i p 1 ∧ z.coasting = false ∧ z.catching = none ∧ cur.smp = j)

/-! ### Bridge ports and DC buses (chapter 7) -/

/-- R222 to R226, R230, R231, R234, R235, R239 to R244, R329, R511, Tables 7.3, 7.9, 10.9: what each event of a port does. Every one of
them then evaluates the outputs (`portEval`), and where it may change a prerequisite of the bound axis, that follows. -/
def Obligations.PortEvents : Prop :=
  ∀ (s : State) (p : Fin 64) (e : Fin 24) (comps : BitVec 4) (drv peak : Bool) (taps : List (BitVec 16)) (w : Fin 2) (win : BitVec 96)
    (b0 b1 b2 b3 : BitVec 192) (a : Nat) (bs : List Byte) (rest : List (Nat × List Byte)),
    let x := s.ports[p]
    let put (y : Port) : State := s.updPort p fun _ => y
    let live (y : Port) : Port := { y with comps := comps.toNat }
    let m := comps.toNat &&& s.pt P.ptSnsen p
    let latched (c : Nat) (y : Port) : Port :=
      { y with trip := .latched, cause := c, clearing := false, newTrip := false, tripSeen := true }
    -- the trip clears: every turn-on then waits the full dead time
    let rearmed (y : Port) : Port := { y with trip := .armed, clearing := false, cbcRun := 0, offT := Vector.replicate 8 0 }
    -- period start
    (let y : Port := { x with comps := comps.toNat, drvflt := drv }
      let v : State := match x.trip with
        | .armed => put y
        | .latched => put (if x.clearing then rearmed y else y)
        | .cbc => if m = 0 ∧ x.newTrip = false then put (rearmed y)
          else if s.pt P.ptCbcmax p ≤ x.cbcRun + 1 then
            (put (latched (x.cause ||| m ||| 32) y)).raisePort p 0x0101 4 ((x.cause ||| m) % 16 + 256)
          else put { y with cbcRun := x.cbcRun + 1, newTrip := false, tripSeen := true }
      Acts (.carrierPeriodStart p comps drv) s fun t => ∃ r : Bool,
          t = ((v.updPort p fun z => { z with
            dead := v.pt P.ptDeadtime p, dlFallback := (z.dlNext.map (·.1)).getD z.dlFallback
            dlTab := (z.dlNext.map (·.2)).getD z.dlTab, dlNext := none, upsetOff := false
            lowSeen := 0, fullOn := Vector.ofFn fun k => v.nextFullOn p k, refresh := r }).portEval p).portPrereq p)
    -- setup instant
    ∧ (x.armed = false ∨ x.frozen.isSome = true ∧ x.thaw = false → Acts (.setupInstant p) s fun t => t = s.strobe 2 p.val)
    ∧ (x.armed = true → x.frozen = none ∨ x.thaw = true → ∀ c, s.capture p = c →
      let y : Port := { x with armed := false, captured := some (c.1, x.armseq), capped := x.capped || c.2
                               cappedAt := if c.2 then s.now + 1 else x.cappedAt }
      (c.2 = false ∨ x.cappedAt ≠ 0 ∧ s.now < x.cappedAt + 100000000 → Acts (.setupInstant p) s fun t => t = (put y).strobe 2 p.val)
      ∧ (c.2 = true → x.cappedAt = 0 ∨ x.cappedAt + 100000000 ≤ s.now →
          Acts (.setupInstant p) s fun t => t = ((put y).raisePort p 0x0106 0).strobe 2 p.val))
    ∧ (s.edgeFmt p = true ↔ s.pt P.ptShadowfmt p = 1 ∧ s.pt P.ptKind p = 3)
    ∧ (s.edgeFmt p = true → s.capture p = (x.shadow, false))
    ∧ (s.edgeFmt p = false → s.pt P.ptKind p ≠ 2 → ∀ k : Fin 16,
      let on := min (x.shadow[k].toNat % 2 ^ 22) (32 * s.period p)
      let o := if s.refreshLeg p k.val = true ∧ on ≠ 32 * s.period p then
        min on (32 * (s.period p - s.pt P.ptReftime p - s.pt P.ptDeadtime p)) else on
      (s.capture p).1[k] = if k.val < 4 then BitVec.ofNat 32 (o + x.shadow[k].toNat / 2 ^ 30 * 2 ^ 30) else x.shadow[k])
    -- commit point; a frozen port takes no force
    ∧ (s.cfg.late = [] →
      let y : Port := match x.captured with
        | none => x
        | some (v, n) =>
          let ov := !s.edgeFmt p && (List.range 4).any fun k => (Port.word v k).toNat / 2 ^ 30 == 3
          { x with captured := none, inForce := v, waiting := false, chop1 := x.chop1.take v 0 s.ticks
                   chop2 := x.chop2.take v 1 s.ticks, appliedT := s.now, appliedFrac := s.time.frac, appliedSeq := n
                   appliedPeak := peak, frozen := none, thaw := false, overlap := x.overlap || ov
                   overlapRead := x.overlapRead || ov, overlapCount := if ov then satInc 32 x.overlapCount else x.overlapCount }
      let z : Port := match y.frozen, y.forceNext with
        | none, some (none, f) => { y with force := f, forceNext := none }
        | _, _ => y
      Acts (.commitPoint p peak) s fun t =>
        t = ((put (if s.pt P.ptUpdate p = 1 ∨ peak = false then { z with
          extT := s.now, extPeak := peak, latT := z.appliedT, latFrac := z.appliedFrac, latSeq := z.appliedSeq
          latPeak := z.appliedPeak, latDuty := (put z).dutyWords p, onAcc := Vector.replicate 4 0 } else z)).portEval p).strobe 1 p.val)
    -- a store to the slot completes
    ∧ ((s.eng[e]).pstores = (a, bs) :: rest → (s.eng[e]).role ≠ .retired → (s.eng[e]).slotPort (a / 256) = some p →
      Acts (.portSlotStoreComplete e) s fun t => ∃ y : Port,
        t = { s with eng := upd s.eng e fun z => { z with pstores := rest }, ports := upd s.ports p fun _ => y, dbg := t.dbg }
        ∧ y = { x with shadow := y.shadow, armed := y.armed, armseq := y.armseq }
        ∧ (∀ k : Fin 16, y.shadow[k] =
            if a % 256 / 4 ≤ k.val ∧ k.val < a % 256 / 4 + bs.length / 4
            then leWord ((bs.drop (4 * (k.val - a % 256 / 4))).take 4) &&& s.slotMask p k.val else x.shadow[k])
        ∧ (let arming := if s.edgeFmt p then 15 else 3
          if a % 256 / 4 ≤ arming ∧ arming < a % 256 / 4 + bs.length / 4 then y.armed = true ∧ y.armseq = (x.armseq + 1) % 65536
          else y.armed = x.armed ∧ y.armseq = x.armseq))
    -- the bits of a shadow word that the format defines
    ∧ (s.edgeFmt p = false → s.pt P.ptKind p ≠ 2 → ∀ k : Fin 16, s.slotMask p k.val = if k.val < 4 then 0xC03FFFFF#32 else 0#32)
    ∧ (s.edgeFmt p = true → ∀ k : Fin 16, s.slotMask p k.val = if k.val % 2 = 0 then 0x803FFFFF#32 else 0x003FFFFF#32)
    -- a sample event: each data line is decimated over the 3N bits of its window
    ∧ (let n := s.pt P.ptSdosr p
      (∀ v, s.decimate p v ≤ n ^ 3)
      ∧ (∀ v, (∀ m < 3 * n, v.testBit (2 * m + s.pt P.ptSdedge p) = true) → s.decimate p v = n ^ 3)
      ∧ (∀ v, (∀ m < 3 * n, v.testBit (2 * m + s.pt P.ptSdedge p) = false) → s.decimate p v = 0)
      ∧ Acts (.sampleEvent p b0 b1 b2 b3) s fun t => (t.ports[p]).samples = x.samples + 1 ∧ (t.ports[p]).record.toList.take 12 =
          ([x.extT, x.extT / 2 ^ 32, x.prevExtT, x.prevExtT / 2 ^ 32, x.latT, x.latT / 2 ^ 32, x.latSeq % 65536 + x.latFrac * 65536,
            ofBools [x.latPeak, x.capped, x.overlap, x.tripSeen, x.refresh, x.extPeak] + (x.samples + 1) % 65536 * 65536,
            s.decimate p b0.toNat, s.decimate p b1.toNat, s.decimate p b2.toNat, s.decimate p b3.toNat].map fun v => BitVec.ofNat 32 v))
    -- trips
    ∧ (let y : Port := { live x with tripCount := satInc 32 x.tripCount, tripSeen := true }
      let ends (u t : State) : Prop := t = (u.portEval p).portPrereq p
      let tripped (t : State) : Prop := (m = 0 → t = put (live x)) ∧ (m ≠ 0 →
        (x.trip = .armed → s.pt P.ptTripmode p = 0 → ends ((put (latched m y)).raisePort p 0x0101 4 m) t)
        ∧ (x.trip = .armed → s.pt P.ptTripmode p ≠ 0 →
          let u := put { y with trip := .cbc, cbcRun := 1, cause := m, newTrip := false }
          let v := if s.mayRaise 0x0102 p.val then (u.noteRaise 0x0102 p.val).raisePort p 0x0102 1 else u
          (1 < s.pt P.ptCbcmax p → ends v t)
          ∧ (s.pt P.ptCbcmax p ≤ 1 → ends ((v.updPort p (latched (m ||| 32))).raisePort p 0x0101 4 (m % 16 + 256)) t))
        ∧ (x.trip = .cbc → ends (put { y with newTrip := true }) t)
        ∧ (x.trip = .latched → ends (put y) t))
      (x.lastEdge + 32 * s.pt P.ptBlank p ≤ 32 * s.ticks → Acts (.comparatorTrip p comps) s tripped)
      ∧ Acts (.blankingEnd p comps) s tripped)
    ∧ (32 * s.ticks < x.lastEdge + 32 * s.pt P.ptBlank p → Acts (.comparatorTrip p comps) s fun t => t = put (live x))
    ∧ (let y : Port := { x with drvflt := true, tripCount := satInc 32 x.tripCount }
      let u := (put (if x.trip = .latched then y else latched 16 y)).portEval p
      Acts (.drvfltNLow p) s fun t => t = (u.raisePort p (if u.bootstrap p then 0x0104 else 0x0103) 4).portPrereq p)
    -- delay line, upsets
    ∧ (let span := (taps.filter fun d => d.toNat ≤ 20000).length
      let bad := span < 40 ∨ 60 < span
      let off (f k : Nat) : Nat := (((taps.getD k 0).toNat : Int) - (625 * f : Nat)).natAbs
      Acts (.delayLineCalibration p taps) s fun t => ∃ tab : List Nat, tab.length = 32
        ∧ (∀ f < 32, ∀ k < taps.length, off f (tab.getD f 0) ≤ off f k)
        ∧ (let u := put { x with dlTaps := span, dlNext := some (decide (span < 40 ∨ 60 < span), tab) }
          (bad → s.activeFault 0x0107 .port p.val = false → t = u.raisePort p 0x0107 1)
          ∧ (¬ bad ∨ s.activeFault 0x0107 .port p.val = true → t = u)))
    ∧ (s.portRetired p = true → Acts (.portUpset p false) s fun t => t = s)
    ∧ (s.fbRetired p = true → Acts (.portUpset p true) s fun t => t = s)
    ∧ (s.portRetired p = false → Acts (.portUpset p false) s fun t =>
        let u := ((s.upset .port p.val).1.updPort p fun y => { y with upsetOff := true }).portEval p
        t = if (s.upset .port p.val).2 then u.retirePort .port p else u)
    ∧ (s.fbRetired p = false → Acts (.portUpset p true) s fun t =>
        t = if (s.upset .feedback p.val).2 then (s.upset .feedback p.val).1.retirePort .feedback p else (s.upset .feedback p.val).1)
    -- the chopper
    ∧ (let q := s.fastFilter p win
      let c := x.chop w.val
      let d : Int := if c.neg then -1 else 1
      let up := chopUp x.inForce w.val
      let lo := chopLo x.inForce w.val
      let kind := chopCtl x.inForce / 4 ^ w.val % 4
      let becomes (y : Chop) (t : State) : Prop := t = (put (x.setChop w.val y)).portEval p 0
      let drive : Chop := { c with st := .drive, at_ := s.ticks, offDone := false }
      let decays := c.st = .decayFast ∨ c.st = .decaySlow
      let due := d * up ≤ d * q ∧ c.at_ + s.chopParam p P.axChopblank ≤ s.ticks
      (c.st = .drive → (due → Acts (.chopperThresholdCross p w win) s
            (becomes { c with st := if kind = 0 then .decaySlow else .decayFast, offDone := false }))
          ∧ (¬ due → Acts (.chopperThresholdCross p w win) s (becomes c)))
      ∧ (decays → c.offDone = true → d * q ≤ d * lo → Acts (.chopperThresholdCross p w win) s (becomes drive))
      ∧ (decays → c.offDone = false ∨ d * lo < d * q → Acts (.chopperThresholdCross p w win) s (becomes
          (if c.st = .decayFast ∧ d * q ≤ 0 then { c with st := .decaySlow } else c)))
      ∧ (c.st = .off ∨ c.st = .zero → Acts (.chopperThresholdCross p w win) s (becomes c))
      ∧ (decays → Acts (.chopperOffTimeExpiry p w true win) s (becomes (if kind = 2 then { c with st := .decaySlow } else c)))
      ∧ (decays → Acts (.chopperOffTimeExpiry p w false win) s (becomes
          (if d * q ≤ d * lo then drive else { c with offDone := true })))
      ∧ (¬ decays → ∀ fast : Bool, Acts (.chopperOffTimeExpiry p w fast win) s (becomes c)))

/-- R228, R229, R236, R241, Tables 7.5, 7.7: the outputs of a port after any evaluation: under the safe path or a trip every switch is
off; a leg outside `PT.BOTHON` never has both switches on, unless a frozen port holds what it held; a switch turns on only when it is
requested and the other switch of its leg has been off for the dead time; and what is no longer requested is off. -/
def Obligations.PortOutputs : Prop :=
  ∀ (s : State) (p : Fin 64) (k : Fin 4) (tap : Nat) (low : Bool),
    let x := s.ports[p]
    let y := (s.portEval p tap).ports[p]
    let on (z : Port) (b : Bool) : Bool := z.gate.getLsbD (2 * k.val + b2n b)
    let r := s.request p k tap
    let frozen := x.haltOff = true ∨ x.frozen.isSome = true
    -- taps since a switch of the leg went off
    let offFor (b : Bool) : Nat := if on x b = true then 0 else x.offT[sw k b]
    (s.boot.safePath = true ∨ s.tg.pad.getLsbD p.val = true ∨ x.trip ≠ .armed ∨ x.upsetOff = true → y.gate = 0)
    ∧ (s.bothOnLeg p k.val = false → x.frozen = none → ¬ (on y false = true ∧ on y true = true))
    ∧ (s.rank p k.val ≠ 1 → s.rank p k.val ≠ 2 → s.rank p 0 ≠ 1 → s.rank p 0 ≠ 2 → ¬ frozen → s.bothOnLeg p k.val = false →
      (on y low = true → (if low then r.2 else r.1) = true)
      ∧ (on y low = true → on x low = false → 32 * x.dead ≤ offFor (!low))
      ∧ ((if low then r.2 else r.1) = true → (if low then r.1 else r.2) = false → on x low = true → on y low = true))
    ∧ (s.rank p k.val = 6 → s.refreshNow p k = false →
      r = match forceCode x.force k.val with | 2 => (true, false) | 3 => (false, true) | _ => (false, false))
    ∧ (s.rank p k.val = 3 → r = (false, decide (k.val < 3 ∧ x.shortAt + x.dead ≤ s.ticks))) ∧ (s.rank p k.val = 4 → r = (false, false))
    ∧ (s.rank p k.val = 0 → r = (false, false))

/-- R239, R243, R249 to R254, Tables 7.6 to 7.11, 7.13, 7.15: the port commands and a force that times out; the values and timers of a
DC bus supervisor. -/
def Obligations.PortCommandsAndBuses : Prop :=
  ∀ (s : State) (p : Packet) (n : Fin 64) (b : Fin 8) (win : BitVec 384) (fb : Bool) (legs tmo : Nat),
    let x := s.ports[n]
    let put (z : Port) : State := s.updPort n fun _ => z
    let u := s.buses[b]
    let busy := ∃ i, s.axisOf n = some i ∧ (s.axes[i]).st ≠ .disabled ∧ (s.axes[i]).st ≠ .ready
    let causes := (x.comps &&& s.pt P.ptSnsen n) + (if x.drvflt then 16 else 0)
    (Acts (.forceTimeout n) s fun t => t = if x.forceTimeout = 0 then s else
      (put { x with force := 0, forceNext := none, forceBy := none, forceTimeout := 0 }).portEval n)
    ∧ (Served p 0x0401 s → p.args = leBytes 1 n.val ++ leBytes 1 legs ++ leBytes 2 tmo → legs < 256 → tmo ≤ 60000 →
      (s.pt P.ptKind n = 1 → legs / 64 ≠ 0 → Sends (.portForce p) p s (Refused p 0x0401 s .range 0x0102))
      ∧ (¬ (s.pt P.ptKind n = 1 ∧ legs / 64 ≠ 0) →
        (s.portRetired n = true → Sends (.portForce p) p s (Refused p 0x0401 s .retired 0))
        ∧ (s.portRetired n = false → s.pt P.ptKind n = 0 → Sends (.portForce p) p s (Refused p 0x0401 s .state 0x0102))
        ∧ (s.portRetired n = false → s.pt P.ptKind n ≠ 0 →
          (busy → Sends (.portForce p) p s (Refused p 0x0401 s .state 0x0101))
          ∧ (¬ busy → Sends (.portForce p) p s (Ok p 0x0401 s ((put { x with
              forceNext := some (none, legs), forceTimeout := tmo, forceBy := (s.session p.src).map fun q => (p.src, q.sid) }).portEval n))))))
    ∧ (Served p 0x0402 s → p.args = leBytes 1 n.val ++ leBytes 3 0 →
      (s.portRetired n = true → Sends (.portTripClear p) p s (Refused p 0x0402 s .retired 0))
      ∧ (s.portRetired n = false →
        (x.trip ≠ .latched → Sends (.portTripClear p) p s (Ok p 0x0402 s s))
        ∧ (x.trip = .latched → causes ≠ 0 → Sends (.portTripClear p) p s (Refused p 0x0402 s .clearRefused causes))
        ∧ (x.trip = .latched → causes = 0 → Sends (.portTripClear p) p s (Ok p 0x0402 s (put { x with clearing := true })))))
    ∧ (Served p 0x0403 s → p.args = leBytes 1 n.val ++ leBytes 3 0 → Sends (.portStatus p) p s fun t => ∃ d : List Byte,
        Replied p 0x0403 s .ok 0 d (put { x with overlapRead := false }) t ∧ d.length = 52 ∧ u8 d 0 = n.val
        ∧ u8 d 2 = (match x.trip with | .armed => 0 | .cbc => 1 | .latched => 2)
        ∧ (x.cause < 256 → u8 d 3 = x.cause) ∧ u8 d 4 = x.comps % 16 + (if x.drvflt then 16 else 0)
        ∧ (x.force < 256 → u8 d 5 = x.force) ∧ (x.armseq < 65536 → u16 d 8 = x.armseq)
        ∧ u16 d 10 = (match s.axisOf n with | some i => i.val | none => 0xFFFF) ∧ (x.tripCount < 2 ^ 32 → u32 d 12 = x.tripCount)
        ∧ (x.overlapCount < 2 ^ 32 → u32 d 16 = x.overlapCount) ∧ (x.appliedT < 2 ^ 64 → u64 d 20 = x.appliedT)
        ∧ u8 d 44 = (s.busOf n).val)
    -- decimated values
    ∧ (let nn := s.dv P.dvDcbOsr b.val
      let k := min (sinc3 nn (s.busEdge b) win.toNat) (nn ^ 3)
      let v : Rat := s.dvF P.dvDcbVscale b.val * ((k : Rat) / ((nn ^ 3 : Nat) : Rat) - mkRat 1 2)
      let edge := k == 0 || k == nn ^ 3
      let z : Bus := { u with v := v, vmax := ratMax u.vmax v, chfb := fb, stuck := if edge then u.stuck + 1 else 0
                              lastStuck := edge, chfbSeen := u.chop && (u.chfbSeen || fb) }
      let dt := (nn : Rat) * s.busBit b / 1000000000
      let ov1 := s.dvF P.dvDcbOv1 b.val
      let hyst := s.dvF P.dvDcbHyst b.val
      let lim := s.dvF P.dvDcbChemax b.val
      let blocked := u.full = true ∨ s.activeFault 0x0607 .bus b.val = true ∨ s.activeFault 0x0609 .bus b.val = true
      let on := ¬ blocked ∧ (ov1 ≤ v ∨ u.chop = true ∧ ov1 - hyst ≤ v)
      let heat : Rat := v * v / s.dvF P.dvDcbChr b.val * dt
      (u.st = .unused → Acts (.busDecimatedValue b win fb) s fun t => t = s.updBus b fun _ => z)
      ∧ (u.st ≠ .unused → (edge = false ∨ u.stuck < 3) → v < s.dvF P.dvDcbOv2 b.val → v < s.dvF P.dvDcbOv3 b.val →
        Acts (.busDecimatedValue b win fb) s fun t => ∃ (m : Bus) (w0 : Rat),
          (t.buses[b] = m ∧ m.st = u.st ∧ m.v = v ∧ m.vmax = ratMax u.vmax v ∧ m.pre = u.pre)
          ∧ (¬ on → m.chop = false ∧ m.chen = u.chen ∧ m.onSince = none)
          ∧ (on → m.chen = u.chen + heat ∧ (m.full = false → m.chop = true))
          ∧ w0 = u.chw * Config.exp (-(dt / s.dvF P.dvDcbChtau b.val)) ∧ (on → m.chw = w0 + heat) ∧ (¬ on → m.chw = w0)
          ∧ (lim ≤ m.chw → m.full = true ∧ m.chop = false) ∧ (m.chw < lim → m.chw < lim * mkRat 4 5 → m.full = false)
          ∧ (v < s.dvF P.dvDcbOv2 b.val - hyst → m.regenOv2 = false) ∧ (s.dvF P.dvDcbOv2 b.val - hyst ≤ v → m.regenOv2 = u.regenOv2)
          ∧ ((u.full = true ∨ m.full = false) → (m.onSince = none ∨ u.onSince = none) →
              t = (s.updBus b fun _ => m).prereqChanges (allAxes.filter fun i => s.axisBus i == some b))))
    -- timers
    ∧ (let enters (w : State) (st : BusState) : State := (w.updBus b fun q =>
          { q with st := st, pre := st == .bypass || st == .ready, preTimer := false, preFailed := false }).busPrereq b
      let free := s.activeFault 0x0609 .bus b.val = false
      (u.st = .charging → s.dvF P.dvDcbPrev b.val ≤ u.v → free → Acts (.busChargedTimer b) s fun t => t = enters s .bypass)
      ∧ (u.st = .bypass → free → Acts (.busBypassTimer b) s fun t => t = enters s .ready)
      ∧ (u.st = .bypass → u.v < s.dvF P.dvDcbUv b.val → free → Acts (.busUvTimer b) s fun t => t = enters s .charging)
      ∧ (u.st = .ready → u.v < s.dvF P.dvDcbUv b.val → free → Acts (.busUvTimer b) s fun t =>
          t = (enters s .charging).raiseBus b 0x0601 4)
      ∧ (u.st = .charging → u.preTimer = true → u.preFailed = false → Acts (.prechargeTimeout b) s fun t =>
          t = (s.raiseBus b 0x0602 1).updBus b fun q => { q with preFailed := true })
      ∧ (let w := s.updBus b fun q => { q with chfb := fb, chfbSeen := u.chop && (u.chfbSeen || fb) }
        let once (code cls : Nat) : State := if s.activeFault code .bus b.val then w else w.raiseBus b code cls
        (u.st ≠ .unused → u.chop = true → u.chfbSeen = false → fb = false → Acts (.chfbTimeout b fb) s fun t => t = once 0x0605 1)
        ∧ (u.st ≠ .unused → u.chop = false → fb = true → Acts (.chfbTimeout b fb) s fun t =>
            t = (once 0x0607 4).updBus b fun q => { q with chop := false })
        ∧ (u.st = .unused ∨ u.chop = fb → Acts (.chfbTimeout b fb) s fun t => t = w)))

/-! ### Feedback, probes, emulation, latches and compares (chapters 8 and 11) -/

/-- R259, R261 to R272, Tables 6.3, 8.1, 8.2: a feedback unit counts quadrature, Hall and step edges, records its index, reads SSI
frames, tracks a resolver, and forms position and velocity at each extremum.

Analogue values of the resolver arrive as operands (log 3). -/
def Obligations.FeedbackUnits : Prop :=
  ∀ (s : State) (p q : Fin 64) (i j : Fin 512) (a b z fbb rejected : Bool) (tag : BitVec 64) (k : Fin 13) (samples : BitVec 50)
      (w2 w3 : BitVec 192) (m w raw tc : Nat) (Δ : Int),
    let f := s.fb[p]
    let put (g : Feedback) : State := s.updFb p fun _ => g
    let pins : Feedback := { f with a := a, b := b, z := z }
    let stamp := tag.toNat * 65536 + 5120 * k.val
    let tE : Rat := (stamp : Rat) / 65536
    let σ : Int := if s.ax P.axFbdir i = 1 then -1 else 1
    let cls := s.ax P.axFbclass i
    let code := b2n a + 2 * b2n b + 4 * b2n z
    let te := (s.ports[p]).extT
    let counted (g : Feedback) (d : Int) : Feedback :=
      { g with count := g.count + d, edges := (tE, g.count + d, d) :: g.edges, dirNeg := decide (d < 0) }
    let fresh := f.errT0 + s.ax P.axQerrwin i ≤ s.now
    let n := if fresh then 1 else f.errs + 1
    let errs (g : Feedback) : State :=
      let g : Feedback :=
        { g with errs := n, errT0 := if fresh then s.now else g.errT0, errTotal := satInc 32 g.errTotal, quadErr := true }
      if s.ax P.axQerrmax i < n ∧ s.activeAxisFault 0x0201 i = false then
        (((put { g with refLost := true }).updHome i fun h => { h with referenced := false }).raiseAxis i 0x0201 cls).prereqChange i
      else put g
    -- the filter of R259: a level that has held for N clocks of 5 ns, N of them after the reset or switch-over
    let nf : Rat := ((match s.unitAxis p with | some x => s.ax P.axFbfilt x | none => 0 : Nat) : Rat)
    let moved (P : State → Prop) : Prop :=
      tE + nf * 5 ≤ s.nowRat → s.tickNs f.since + nf * 5 ≤ tE → Acts (.feedbackInputChange p a b z tag k) s P
    (s.nowRat < tE + nf * 5 → Acts (.feedbackInputChange p a b z tag k) s fun t => t = s)
    ∧ (tE + nf * 5 ≤ s.nowRat → tE < s.tickNs f.since + nf * 5 → Acts (.feedbackInputChange p a b z tag k) s fun t =>
        (t.fb[p]).a = a ∧ (t.fb[p]).b = b ∧ (t.fb[p]).z = z ∧ (t.fb[p]).count = f.count ∧ (t.fb[p]).edges = f.edges
        ∧ (t.fb[p]).hallEdge = f.hallEdge ∧ (t.fb[p]).errs = f.errs ∧ t.faults = s.faults)
    -- the pins of a companion port carry the Hall code of mode 2
    ∧ (s.unitUse p = none → s.hallUser p = some (j, q) → q ≠ p → code ≠ (s.fb[q]).hall → moved fun t => ∃ neg : Bool,
      t = (put pins).updFb q fun g => { g with hall := code, hallEdge := some (tE, code, neg) })
    ∧ (s.unitUse p = some (i, m) →
      -- quadrature and index
      (m = 1 ∨ m = 2 → s.hallUser p = none →
        let st (a b : Bool) : Nat := if a then (if b then 2 else 1) else if b then 3 else 0
        let d := (st a b + 4 - st f.a f.b) % 4
        let u := if d = 0 then put pins else if d = 1 then put (counted pins σ) else if d = 3 then put (counted pins (-σ)) else errs pins
        (z = true → f.z = true → moved fun t => t = u)
        ∧ (z = false → moved fun t => t = u.updAxis i fun x => { x with home := { x.home with idxQuiet := true }, latches := x.latches.map fun l =>
            if l.armed = true ∧ l.cfg.source = 0x40 then { l with seenInactive := true } else l })
        ∧ (z = true → f.z = false → a = f.a → b = f.b →
          let v := put { pins with idxCount := f.count, idxStamp := tE, index := true }
          (s.ax P.axZqual i = 0 ∨ (a = true ∧ b = true) → moved fun t =>
            t = (if (s.axes[i]).st = .homing ∧ (s.axes[i]).home.idxT.isSome = true ∧ (s.axes[i]).home.idxQuiet = true then
                v.updHome i fun h => { h with indexes := tE :: h.indexes } else v).updAxis i
              fun x => { x with latches := x.latches.map fun l => l.offer 0x40 ⟨stamp, true, false⟩ })
          ∧ (s.ax P.axZqual i ≠ 0 → a = false ∨ b = false → moved fun t => t = put pins)))
      -- Hall edges
      ∧ (m = 3 → s.hallUser p = none →
        (code = f.hall → moved fun t => t = (put pins).prereqChange i)
        ∧ (∀ x y : Fin 6, f.hall = [5, 1, 3, 2, 6, 4].getD x.val 0 → code = [5, 1, 3, 2, 6, 4].getD y.val 0 → x ≠ y → moved fun t =>
            let g : Feedback := { pins with hall := code, hallEdge := some (tE, code, decide ((x.val + 5) % 6 = y.val)) }
            t = (if y.val = (x.val + 1) % 6 then put (counted g 1)
                 else if y.val = (x.val + 5) % 6 then put (counted g (-1)) else errs g).prereqChange i)
        ∧ (code ≠ f.hall → code = 0 ∨ code = 7 ∨ f.hall = 0 ∨ f.hall = 7 → moved fun t =>
            t = (errs { pins with hall := code, hallEdge := some (tE, code, false) }).prereqChange i))
      ∧ Acts (.hallInvalidTimer p) s (fun t =>
          t = if m = 3 ∧ (f.hall = 0 ∨ f.hall = 7) then (s.raiseAxis i 0x0202 cls).prereqChange i else s)
      -- step and direction; the other modes count nothing
      ∧ (m = 5 → s.hallUser p = none → moved fun t =>
          let e := s.ax P.axStepedge i
          let act := (a = true ∧ f.a = false ∧ (e = 0 ∨ e = 2)) ∨ (a = false ∧ f.a = true ∧ (e = 1 ∨ e = 2))
          t = if act then put (counted pins (if b then σ else -σ)) else put pins)
      ∧ (m = 0 ∨ m = 4 ∨ m = 6 → s.hallUser p = none → moved fun t => t = put pins)
      -- SSI frames
      ∧ (m = 4 → Acts (.ssiFrameStart p fbb) s fun t =>
          t = if te = s.now ∧ ((s.ports[p]).samples + 1) % s.ax P.axSsievery i = 0 ∧ f.frameOpen = none
            ∧ (f.frameEnd = 0 ∨ f.frameEnd + s.ax P.axSsirecov i ≤ s.now) then
                put { f with frameOpen := some (te, fbb) } else s)
      ∧ (∀ t0 level, m = 4 → f.frameOpen = some (t0, level) →
        let bits := s.ax P.axSsibits i
        let fmt := s.ax P.axSsifmt i
        let jump := s.ax P.axSsijump i
        8 ≤ bits → bits ≤ 48 → w < 2 ^ bits → (if fmt % 2 = 1 then w ^^^ (w / 2) else w) = raw → raw < 2 ^ bits →
        (∀ x < bits, raw.testBit (bits - 1 - x) = samples.getLsbD (x + 1)) →
        let start := samples.getLsbD 0
        let err := samples.getLsbD (bits + 1)
        let g : Feedback := { f with frameOpen := none, frameEnd := s.now }
        let good : Feedback := { g with frameErr := false, refused := 0, word := some w }
        let refuse (det : Nat) : Prop := Acts (.ssiFrameEnd p samples) s fun t =>
          let u := put { g with frameErr := true, refused := f.refused + 1 }
          t = if s.ax P.axFberrmax i ≤ f.refused + 1 ∧ s.activeAxisFault 0x0203 i = false then (u.raiseAxis i 0x0203 cls det).prereqChange i else u
        let bad := if level = false then 1 else if start then 2 else if fmt / 2 % 2 = 1 ∧ err = false then 3 else 0
        (bad ≠ 0 → refuse bad)
        ∧ (bad = 0 → f.word = none → Acts (.ssiFrameEnd p samples) s fun t =>
            t = ((put { good with frames := [(t0, (w : Int))] }).updHome i
              fun h => { h with referenced := true }).prereqChange i)
        ∧ (∀ w' t1 (pos : Int) rest, bad = 0 → f.word = some w' → w' < 2 ^ bits → f.frames = (t1, pos) :: rest →
            (2 ^ bits : Int) ∣ (w : Int) - w' - Δ → -(2 ^ (bits - 1) : Int) ≤ Δ → Δ < (2 ^ (bits - 1) : Int) →
            (jump ≠ 0 → jump < Δ.natAbs → refuse 4)
            ∧ (jump = 0 ∨ Δ.natAbs ≤ jump → Acts (.ssiFrameEnd p samples) s fun t =>
                t = (put { good with
                  frames := (t0, pos + Δ) :: (t1, pos) :: rest.filter fun x => decide (t0 ≤ x.1 + 100000000) }).prereqChange i)))
      -- the resolver
      ∧ (m = 6 → s.resolverTick p i = none → Acts (.resolverWindow p w2 w3) s fun t => t = s)
      ∧ (m = 6 → s.resolverTick p i = some tc →
        let n3 : Rat := ((s.pt P.ptSdosr p ^ 3 : Nat) : Rat)
        let sn := (s.decimate p w2.toNat : Rat) / n3 - mkRat 1 2
        let cs := (s.decimate p w3.toNat : Rat) / n3 - mkRat 1 2
        let amp := 2 * ratSqrt (sn * sn + cs * cs)
        let out := amp < s.axF P.axResampmin i ∨ s.axF P.axResampmax i < amp
        let tx : Rat := (s.dv P.dvRexPeriod (s.ax P.axRexsel i) : Rat) * mkRat 5 2000000000
        let bw := 2 * Config.pi * s.axF P.axResbw i
        let th := (f.th : Rat) * 2 * Config.pi / 4294967296
        let e := (sn * Config.cos th - cs * Config.sin th) / (amp / 2)
        let wn := f.w + bw * bw * tx * e
        let far := ratAbs (asinOf e)
        let lim := s.axF P.axRestrkmax i
        let close := if far < lim / 4 then f.lockCnt + 1 else 0
        let loss := if lim < far then f.lossCnt + 1 else 0
        let lost := f.resLock = true ∧ 3 ≤ loss
        let run (k : Nat) : Prop := Acts (.resolverWindow p w2 w3) s fun t =>
          let u := put { f with
            ampOut := k, w := fp32 wn, th := f.th + ((wn * tx + 2 * bw * tx * e) * 4294967296 / (2 * Config.pi)).floor
            resT := (s.tickNs tc).floor.toNat, lockCnt := min close 100, lossCnt := min loss 3
            resLock := if lost then false else f.resLock || decide (100 ≤ close) }
          t = (if lost then u.raiseAxis i 0x0205 cls else u).prereqChange i
        (amp = 0 → 0 < s.axF P.axResampmin i → Acts (.resolverWindow p w2 w3) s fun t => (t.fb[p]).ampOut = f.ampOut + 1)
        ∧ (amp ≠ 0 → ¬ out → run 0) ∧ (amp ≠ 0 → out → f.ampOut < 2 → run (f.ampOut + 1))
        ∧ (amp ≠ 0 → out → f.ampOut = 2 → Acts (.resolverWindow p w2 w3) s fun t =>
            t = ((put { f with ampOut := 3, lockCnt := 0, lossCnt := 0 }).raiseAxis i 0x0204 cls).prereqChange i)
        ∧ (amp ≠ 0 → out → 2 < f.ampOut → Acts (.resolverWindow p w2 w3) s fun t => t = put { f with ampOut := f.ampOut + 1, lockCnt := 0, lossCnt := 0 }))
      -- the sample at an extremum
      ∧ (let tau := s.axF P.axVeltau i
        let sec (t0 : Rat) : Rat := ((te : Rat) - t0) / 1000000000
        let win : Rat := s.ax P.axVelwin i
        let sampled (raw : Rat) (pos : Rat → Rat) (t : State) : Prop :=
          let g := t.fb[p]
          let v := if tau = 0 then raw else f.v + (1 - Config.exp (-(sec (f.lastExt : Rat) / tau))) * (raw - f.v)
          g.v = v ∧ g.pk = toPos64 (pos v + f.offset) ∧ g.vk = toVel64 v ∧ g.lastExt = te
          ∧ (t.ports[p]).latPos = g.pk ∧ (t.ports[p]).latVel = g.vk
          ∧ g.quadErr = false ∧ g.index = false ∧ g.chatter = false ∧ (g.count = f.count ∧ g.offset = f.offset ∧ g.frames = f.frames)
          ∧ (∃ valid, g.stat = ofBools [valid, f.quadErr, f.index, f.frameErr, m == 4 && f.frames.head?.map (·.1) != some te, f.resLock,
                rejected, f.dirNeg]
              + (if m = 2 ∨ m = 3 then f.hall * 256 else 0) + b2n f.refLost * 2048 + m * 4096
              + (if fresh then 0 else min f.errs 255) * 65536)
          ∧ (s.portOf i = some p → (t.axes[i]).hist.head? = some (te, g.pk, g.vk))
          ∧ (∀ r, r ≠ p → t.fb[r] = s.fb[r] ∧ t.ports[r] = s.ports[r])
        let between (e : Rat × Int × Int) (v : Rat) : Rat := (e.2.1 : Rat) +
          (if (te : Rat) - e.1 ≤ (s.ax P.axInterpmax i : Rat) ∧ ratSign v = (e.2.2 : Rat) then
            ratClamp (-mkRat 65535 65536) (mkRat 65535 65536) (v * sec e.1) else 0)
        (m = 1 ∨ m = 2 ∨ m = 3 ∨ m = 5 →
          (f.edges = [] → Acts (.feedbackSample p rejected) s (sampled 0 fun _ => (f.count : Rat)))
          ∧ (∀ e, f.edges = [e] → e.1 = (te : Rat) → Acts (.feedbackSample p rejected) s (sampled ((e.2.2 : Rat) * ratAbs f.v) (between e)))
          ∧ (∀ e, f.edges = [e] → e.1 < (te : Rat) →
              Acts (.feedbackSample p rejected) s (sampled ((e.2.2 : Rat) * ratMin (ratAbs f.v) (1000000000 / ((te : Rat) - e.1))) (between e)))
          ∧ (∀ e es e0, f.edges = e :: es ++ [e0] → (∀ x ∈ f.edges, x.1 ≤ (te : Rat) ∧ (te : Rat) - win ≤ x.1) →
              Acts (.feedbackSample p rejected) s (sampled (((e.2.1 - e0.2.1 : Int) : Rat) / ((e.1 - e0.1) / 1000000000)) (between e))))
        ∧ (m = 4 → ∀ t1 t0 p1 p0, f.frames = [(t1, p1), (t0, p0)] →
            Acts (.feedbackSample p rejected) s
              (sampled (((p1 - p0 : Int) : Rat) / (((t1 : Rat) - (t0 : Rat)) / 1000000000)) fun v => (p1 : Rat) + v * sec (t1 : Rat)))
        ∧ (m = 6 → Acts (.feedbackSample p rejected) s (sampled (f.w * 65536 / (2 * Config.pi)) fun _ =>
            (f.th : Rat) / 65536 + f.w * 65536 / (2 * Config.pi) * sec (f.resT : Rat)))))

/-- R260, R261, R273, R274, R324, R344: rejected transitions, stuck inputs, and the edges of a probe.

R275 to R278: an encoder emulation unit follows its source by the ratio, spreads its edges over the interval, keeps what does not
fit, and gives up a backlog of more than 65,536 counts. -/
def Obligations.ProbesAndEmulation : Prop :=
  (
    ∀ (s : State) (p : Fin 64) (i : Fin 512) (kf : Fin 3) (n : Fin 32) (cnt : BitVec 16) (level tickOnly : Bool) (tag : BitVec 64)
        (k : Fin 13),
      let x := s.probes[n]
      let f := s.fb[p]
      let stamp := tag.toNat * 65536 + 5120 * k.val
      let homer (j : Fin 512) : Prop := (s.axes[j]).st = .homing ∧ ((s.axes[j]).home.method = 1 ∨ (s.axes[j]).home.method = 2
        ∨ (s.axes[j]).home.method = 4) ∧ (s.refInput j (s.axes[j]).home.method).1 = n.val
      let pol (j : Fin 512) : Bool := bit (s.ax P.axHomepol j) (s.refInput j (s.axes[j]).home.method).2
      -- a latch armed on a source that has been active since, for the stuck time
      let waits (j : Fin 512) (src tmo : Nat) (lv : Bool) : Prop := ∃ c : Fin 4, ((s.axes[j]).latches[c]).armed = true
        ∧ ((s.axes[j]).latches[c]).cfg.source = src ∧ ((s.axes[j]).latches[c]).seenInactive = false
        ∧ inactiveFor ((s.axes[j]).latches[c]).cfg.edge lv = false ∧ ((s.axes[j]).latches[c]).since + tmo ≤ s.now
      -- rejected transitions
      (s.unitAxis p = none → Acts (.chatterWindow (.fb p kf) cnt) s fun t => t = s)
      ∧ (s.unitAxis p = some i → Acts (.chatterWindow (.fb p kf) cnt) s fun t =>
        t = if s.ax P.axChatmax i < cnt.toNat ∧ s.mayRaise 0x0206 p.val = true then
              (s.noteRaise 0x0206 p.val).raiseAxis i 0x0206 1 kf.val else s)
      ∧ ((∀ j : Fin 512, (s.axes[j]).home.method < 6) → Acts (.chatterWindow (.probe n) cnt) s fun t =>
          ∃ u : State, { u with axes := s.axes } = s
          ∧ (∀ j : Fin 512, (homer j → (s.axes[j]).home.phase = .creep ∨ (s.axes[j]).home.phase = .finish →
                u.axes[j] = { s.axes[j] with home := { (s.axes[j]).home with
                  transitions := min 255 ((s.axes[j]).home.transitions + cnt.toNat) } })
              ∧ (¬ (homer j ∧ ((s.axes[j]).home.phase = .creep ∨ (s.axes[j]).home.phase = .finish)) → u.axes[j] = s.axes[j]))
          ∧ t = if s.dv P.dvPrbchatmax < cnt.toNat ∧ s.mayRaise 0x0206 (0x100 + n.val) = true then
                (u.noteRaise 0x0206 (0x100 + n.val)).raiseDev 0x0206 1 (0x100 + n.val) else u)
      -- stuck inputs
      ∧ (kf.val ≠ 2 ∨ f.z = false → Acts (.inputStuckTimeout (.fb p kf)) s fun t => t = s)
      ∧ (kf.val = 2 → f.z = true → s.axisOf p = some i → (s.axes[i]).st ≠ .homing →
          (waits i 0x40 (s.ax P.axStucktmo i) true → Acts (.inputStuckTimeout (.fb p kf)) s fun t => t = s.raiseAxis i 0x0207 1 2)
          ∧ (¬ waits i 0x40 (s.ax P.axStucktmo i) true → Acts (.inputStuckTimeout (.fb p kf)) s fun t => t = s))
      ∧ ((∀ j : Fin 512, (s.axes[j]).home.method < 6) →
          let tmo := s.dv P.dvPrbstuck
          let latched (j : Fin 512) : Prop := waits j n.val tmo x.level
          let homes (j : Fin 512) : Prop := homer j ∧ ((s.axes[j]).home.phase = .search ∨ (s.axes[j]).home.phase = .creep)
            ∧ (s.axes[j]).home.after = none ∧ (s.axes[j]).home.seenInactive = false ∧ x.level ≠ pol j
            ∧ 2 * tmo ≤ 5 * (s.ticks - (s.axes[j]).home.armT)
          ((∀ j, ¬ latched j ∧ ¬ homes j) → Acts (.inputStuckTimeout (.probe n)) s fun t => t = s)
          ∧ ((∀ j, j ≠ i → ¬ latched j ∧ ¬ homes j) → Acts (.inputStuckTimeout (.probe n)) s fun t =>
            (homes i → t = (s.raiseAxis i 0x0207 1 (0x100 + n.val)).updHome i fun h => { h with stuck := true })
            ∧ (¬ homes i → latched i → t = s.raiseAxis i 0x0207 1 (0x100 + n.val))))
      -- a filtered edge of a probe
      ∧ ((∀ j : Fin 512, (s.axes[j]).home.method < 6) →
          let filt := s.dv P.dvPrbfilt / 256 ^ n.val % 256
          let width := filt + 1
          -- the filter of R259: a level that has held for N clocks of 2.5 ns, N of them after the reset
          let came : Rat := (stamp : Rat) / 65536
          let held := came + (filt : Rat) * mkRat 5 2 ≤ s.nowRat
          let old := s.tickNs 0 + (filt : Rat) * mkRat 5 2 ≤ came
          let want := s.dv P.dvPrbedge / 256 ^ n.val % 4
          let spaced := x.lastEdge.all fun t => decide (t + width * 163840 ≤ stamp)
          let recorded := spaced = true ∧ want / (if level then 1 else 2) % 2 = 1
          let took := recorded ∧ x.fifo.length < 16
          -- the edge that a pass of homing waits for
          let catches (h : Homing) (j : Fin 512) : Prop :=
            level ≠ pol j ∧ h.seenInactive = true ∧ (h.phase = .search ∨ h.phase = .creep)
          let w : State := { s with
            probes := upd s.probes n fun _ => { x with
              level := level, lastEdge := if took then some stamp else x.lastEdge
              fifo := if took then x.fifo ++ [⟨stamp, level, tickOnly⟩] else x.fifo
              lost := if recorded ∧ 16 ≤ x.fifo.length then satInc 32 x.lost else x.lost }
            axes := Vector.ofFn fun j => { s.axes[j] with
              latches := (s.axes[j]).latches.map fun l =>
                let l' : Latch := if l.armed = true ∧ l.cfg.source = n.val ∧ inactiveFor l.cfg.edge level = true then
                  { l with seenInactive := true } else l
                if took then l'.offer n.val ⟨stamp, level, tickOnly⟩ else l'
              home := if homer j then
                let h := (s.axes[j]).home
                let h : Homing := if level = pol j then { h with seenInactive := true } else h
                if took then { h with
                  transitions := if h.phase = .creep ∨ h.phase = .finish then min 255 (h.transitions + 1) else h.transitions
                  edges := if catches h j then came :: h.edges else h.edges
                  idxT := if catches h j ∧ h.phase = .creep ∧ h.method = 2 ∧ h.idxT = none then some s.ticks else h.idxT
                  idxQuiet := if catches h j ∧ h.idxT = none then !s.indexLevel j else h.idxQuiet } else h
              else (s.axes[j]).home } }
          let u := if recorded ∧ 16 ≤ x.fifo.length ∧ s.mayRaise 0x0208 n.val = true then
            (w.noteRaise 0x0208 n.val).raiseDev 0x0208 1 n.val else w
          let limit (j : Fin 512) : Prop := s.bound j = true ∧ (s.ax P.axLimposin j = n.val ∨ s.ax P.axLimnegin j = n.val)
          (¬ held → Acts (.probeEdge n level tag k tickOnly) s fun t => t = s)
          ∧ (held → ¬ old → Acts (.probeEdge n level tag k tickOnly) s fun t => t = s.updProbe n fun y => { y with level := level })
          ∧ (held → old → (∀ j, ¬ (limit j ∧ (s.axes[j]).st ≠ .homing)) → Acts (.probeEdge n level tag k tickOnly) s fun t => t = u)
          ∧ (held → old → (∀ j, j ≠ i → ¬ limit j) → s.bound i = true → (s.axes[i]).st ≠ .homing →
            let v := (s.axes[i]).prof.cmdVel
            let on (b : Nat) : Prop := level ≠ bit (s.ax P.axHomepol i) b
            (s.ax P.axLimposin i = n.val → on 1 → 0 < v → Acts (.probeEdge n level tag k tickOnly) s fun t =>
              t = u.raiseAxis i 0x0502 (s.ax P.axLimclass i) 1)
            ∧ (s.ax P.axLimnegin i = n.val → on 2 → v < 0 → Acts (.probeEdge n level tag k tickOnly) s fun t =>
              t = u.raiseAxis i 0x0502 (s.ax P.axLimclass i) 2)
            ∧ (v = 0 ∨ (s.ax P.axLimposin i = n.val ∧ 0 < v ∧ ¬ on 1) ∨ (s.ax P.axLimnegin i = n.val ∧ v < 0 ∧ ¬ on 2) →
              Acts (.probeEdge n level tag k tickOnly) s fun t => t = u))))
  ∧ (
    ∀ (s : State) (n : Fin 8) (j : Fin 512),
      let x := s.emus[n]
      let mode := s.dv P.dvEmuMode n.val
      let src := s.dv P.dvEmuSrc n.val
      let U := s.dv P.dvEmuUpd n.val * 64 / 5
      (mode ≠ 1 → mode ≠ 2 → Acts (.emuUpdate n) s fun t => t = s)
      ∧ (mode = 1 ∨ mode = 2 → src % 512 = j.val → x.at_ ≤ U →
        let p := if src / 32768 % 2 = 1 then (s.axes[j]).prof.cmdPos else s.actPos j
        let p0 := if x.reseed then p else x.p0
        let c0 := if x.reseed then x.cOut else x.c0
        let term := (p - p0) * (s.dv P.dvEmuNum n.val : Int) / ((s.dv P.dvEmuDen n.val : Int) * 65536)
        let tgt := if s.dv P.dvEmuDir n.val = 1 then c0 - term else c0 + term
        let Δ := tgt - x.cOut
        let N := Δ.natAbs
        let dir : Int := if Δ < 0 then -1 else 1
        let pulse := s.dv P.dvEmuStepw n.val * 32
        let gap := if mode = 1 then 512 else 2 * pulse
        let set := s.dv P.dvEmuDirset n.val * 32
        -- the interval that ends: its edges act, and Z follows the count shown
        let lv := ((x.edges.filter fun e => decide (e.1 ≤ U)).getLast?.map (·.2)).getD (x.a, x.b, x.shown)
        let z (c : Int) : Bool := decide (mode = 1 ∧ s.dv P.dvEmuZper n.val ≠ 0
          ∧ (c - s.dv P.dvEmuZoff n.val) % (s.dv P.dvEmuZper n.val : Int) = 0)
        let y : Emu := { x with
          p0 := p0, c0 := c0, reseed := false, at_ := 0, lastAt := x.lastAt - (U : Int), a := lv.1, b := lv.2.1, shown := lv.2.2
          z := z lv.2.2
          edges := (x.edges.filter fun e => decide (U < e.1)).map fun (e : Nat × Bool × Bool × Int) => (e.1 - U, e.2) }
        let tap (m : Nat) : Nat := (roundAway (((m + 1) * U : Nat) / (N : Rat))).toNat
        let quad (c : Int) : Bool × Bool := (decide (c % 4 = 1 ∨ c % 4 = 2), decide (c % 4 = 2 ∨ c % 4 = 3))
        let up := decide (dir = 1)
        let turn := ¬ (x.dir = 1 ↔ dir = 1)
        let new (c : Int) (at_ : Nat) : List (Nat × Bool × Bool × Int) :=
          if mode = 1 then [(at_, (quad c).1, (quad c).2, c)] else [(at_, true, up, c), (at_ + pulse, false, up, c)]
        0 < gap →
        (N = 0 → Acts (.emuUpdate n) s fun t => t = s.updEmu n fun _ => { y with backlog := 0 })
        ∧ (0 < N → gap * N ≤ U → x.lastAt + gap ≤ U + tap 0 → mode = 1 ∨ ¬ turn → Acts (.emuUpdate n) s fun t =>
            t = s.updEmu n fun _ => { y with
              cOut := tgt, backlog := 0, dir := dir, lastAt := (tap (N - 1) : Int)
              edges := y.edges ++ (List.range N).flatMap fun m : Nat => new (x.cOut + dir * ((m : Int) + 1)) (tap m) })
        -- what does not fit stays; no two edges are closer than their spacing, and a change of direction keeps its set-up time
        ∧ (0 < N → N ≤ 65536 → Acts (.emuUpdate n) s fun t => ∃ (l : List Nat) (w : Emu), l.length ≤ N
            ∧ (∀ m, ∀ a ∈ l[m]?, ∀ b ∈ l[m + 1]?, a + gap ≤ b) ∧ (∀ a ∈ l, a ≤ U ∧ y.lastAt + gap ≤ a)
            ∧ (mode = 2 → turn → ∀ a ∈ l, y.lastAt + 2 * pulse + set ≤ a ∧ set ≤ a)
            ∧ w.cOut = x.cOut + dir * l.length ∧ w.backlog = ((N - l.length : Nat) : Int) ∧ (w.p0 = p0 ∧ w.c0 = c0)
            ∧ (mode = 1 → w.edges = y.edges ++ l.zipIdx.map fun q : Nat × Nat => (q.1, (quad (x.cOut + dir * ((q.2 : Int) + 1))).1,
                (quad (x.cOut + dir * ((q.2 : Int) + 1))).2, x.cOut + dir * ((q.2 : Int) + 1)))
            ∧ t = if l.length < N ∧ s.mayRaise 0x0209 n.val = true then
                  ((s.updEmu n fun _ => w).noteRaise 0x0209 n.val).raiseDev 0x0209 1 n.val else s.updEmu n fun _ => w)
        ∧ (U / gap + 65538 < N → Acts (.emuUpdate n) s fun t =>
            t = (s.updEmu n fun _ => { y with
              cOut := tgt, backlog := 0, shown := tgt, a := if mode = 1 then (quad tgt).1 else y.a, b := if mode = 1 then (quad tgt).2 else y.b
              edges := y.edges.map fun (e : Nat × Bool × Bool × Int) => (e.1, e.2.1, e.2.2.1, tgt) }).raiseDev 0x020A 1 n.val)))

/-- R261, R370 to R377, Tables 11.7 to 11.9: arming and reading latches, setting and clearing compares, a compare that fires, the end
of its pulse, and the edges of a GPIO input. -/
def Obligations.LatchesAndCompares : Prop :=
  ∀ (s : State) (p : Packet) (i : Fin 512) (k : Fin 4) (src edge fl a1 act width count n ch : Nat) (lo hi pos pitch : Int) (g : Fin 32)
      (level : Bool) (tg : BitVec 64),
    let l := (s.axes[i]).latches[k]
    let x := (s.axes[i]).compares[k]
    let latch (f : Latch → Latch) : State := s.updAxis i fun a => { a with latches := upd a.latches k f }
    let chan (w : State) (c : Fin 4) (f : Compare → Compare) : State :=
      w.updAxis i fun a => { a with compares := upd a.compares c f }
    let retired := (s.axes[i]).st = .retired
    let word (v : Int) : Prop := -2 ^ 63 ≤ v ∧ v < 2 ^ 63
    p.axis.toNat = i.val → s.bound i = true →
    -- `LATCH_ARM`
    (Served p 0x0501 s → p.args = leBytes 1 k.val ++ leBytes 1 src ++ leBytes 1 edge ++ leBytes 1 fl ++ zeros 4 ++ leInt 8 lo ++ leInt 8 hi →
      src < 256 → edge < 256 → fl < 256 → word lo → word hi →
      let ok := fl < 8 ∧ (src = 0xFF ∨ src < 32 ∨ src = 0x40) ∧ 1 ≤ edge ∧ edge ≤ 3 ∧ (src = 0x40 → edge = 1)
        ∧ (src ≠ 0xFF → 4 ≤ fl → lo < hi)
      let recorded := 32 ≤ src ∨ (s.dv P.dvPrbedge / 256 ^ src % 4) &&& edge = edge
      (¬ ok → Sends (.latchArm p) p s (Refused p 0x0501 s .range 0))
      ∧ (ok → retired → Sends (.latchArm p) p s (Refused p 0x0501 s .retired 0))
      ∧ (ok → ¬ retired → ¬ recorded → Sends (.latchArm p) p s (Refused p 0x0501 s .range 0x0101))
      ∧ (ok → ¬ retired → recorded → Sends (.latchArm p) p s (Ok p 0x0501 s (latch fun l => { l with
          arming := some (s.now, { source := src, edge := edge, flags := fl, lo := lo, hi := hi }) }))))
    -- `LATCH_READ`
    ∧ (Served p 0x0502 s → p.args = leBytes 1 k.val ++ leBytes 1 n ++ zeros 2 → n < 256 →
      (n = 0 ∨ 16 < n → Sends (.latchRead p) p s (Refused p 0x0502 s .range 0))
      ∧ (1 ≤ n → n ≤ 16 → Sends (.latchRead p) p s (Replied p 0x0502 s .ok 0
          (leBytes 1 k.val ++ leBytes 1 (l.stones.take n).length ++ leBytes 2 l.lostRead ++ (l.stones.take n).flatMap fun m =>
            leBytes 8 (m.stamp / 65536) ++ leBytes 2 (m.stamp % 65536) ++ leBytes 1 m.chan ++ leBytes 1 m.flags ++ leBytes 2 i.val
              ++ leBytes 2 m.seq ++ leInt 8 m.pos ++ leInt 8 m.vel)
          (latch fun l => { l with stones := l.stones.drop n, lostRead := 0 }))))
    -- `COMPARE_SET`
    ∧ (Served p 0x0503 s → p.args = leBytes 1 k.val ++ leBytes 1 a1 ++ leBytes 1 act ++ leBytes 1 fl ++ leBytes 4 width ++ leInt 8 pos
        ++ leInt 8 pitch ++ leBytes 4 count ++ zeros 4 →
      a1 < 256 → act < 256 → fl < 256 → width < 2 ^ 32 → count < 2 ^ 32 → word pos → word pitch →
      let c : CmpCfg := { output := a1, action := act, flags := fl, width := width, pos := pos, pitch := pitch, count := count }
      let ok := fl < 32 ∧ fl % 4 ≠ 3 ∧ act < 4 ∧ (a1 < 56 ∨ a1 = 0xFF) ∧ 0 ≤ pitch ∧ (pitch = 0 → count = 0)
        ∧ (act = 0 → 20 ≤ width ∧ width ≤ 1000000000) ∧ (act ≠ 0 → width = 0)
      let v := (s.cmpNow i (decide (fl / 8 % 2 = 1))).2
      let qualified := pitch = 0 ∨ fl % 4 ≠ 0 ∨ s.axF P.axStandvel i < ratAbs (ofVel64 v)
      let emu := a1 < 0x20 ∨ a1 = 0xFF ∨ s.dv P.dvEmuMode ((a1 - 0x20) / 3) = 3
      let others := (allAxes.flatMap fun j => (List.finRange 4).filter fun m => !(j == i && m == k)
        && ((s.axes[j]).compares[m].armed || (s.axes[j]).compares[m].setting.isSome)).length
      (¬ ok → Sends (.compareSet p) p s (Refused p 0x0503 s .range 0))
      ∧ (ok → retired → Sends (.compareSet p) p s (Refused p 0x0503 s .retired 0))
      ∧ (ok → ¬ retired → ¬ qualified → Sends (.compareSet p) p s (Refused p 0x0503 s .range 0x0103))
      ∧ (ok → ¬ retired → qualified → ¬ emu → Sends (.compareSet p) p s (Refused p 0x0503 s .state 0x000E))
      ∧ (ok → ¬ retired → qualified → emu → 32 ≤ others → Sends (.compareSet p) p s (Refused p 0x0503 s .busy 0x0101))
      ∧ (ok → ¬ retired → qualified → emu → others < 32 →
          Sends (.compareSet p) p s (Ok p 0x0503 s (chan s k fun y => { y with setting := some (s.now, c) }))))
    -- `COMPARE_CLEAR`
    ∧ (Served p 0x0504 s → p.args = leBytes 1 ch ++ leBytes 1 fl ++ zeros 2 → ch < 256 → fl < 256 →
      let ok := (ch < 4 ∨ ch = 0xFF) ∧ fl < 2
      let clear (y : Compare) : Compare := { y with clearing := some (s.now, decide (fl = 1)), setting := y.setting.filter fun w => w.1 != s.now }
      (¬ ok → Sends (.compareClear p) p s (Refused p 0x0504 s .range 0))
      ∧ (ok → retired → Sends (.compareClear p) p s (Refused p 0x0504 s .retired 0))
      ∧ (ok → ¬ retired → ch = k.val → Sends (.compareClear p) p s (Ok p 0x0504 s (chan s k clear)))
      ∧ (ok → ¬ retired → ch = 0xFF → Sends (.compareClear p) p s (Ok p 0x0504 s
          (s.updAxis i fun a => { a with compares := a.compares.map clear }))))
    -- a channel's evaluation and its firing
    ∧ (∀ (q v : Int) (tExt tE next : Rat), x.armed = true → x.sched = none →
      let gap := ofPos64 x.pos - ofPos64 q
      let vq := ofVel64 v
      let cross := (x.cfg.pitch ≠ 0 ∧ x.dir ≠ 0 ∧ x.dir * (x.pos - q) ≤ 0) ∨ (0 ≤ x.dir ∧ x.prev < x.pos ∧ x.pos ≤ q) ∨ (x.dir ≤ 0
        ∧ x.pos < x.prev ∧ q ≤ x.pos)
      let ahead := v ≠ 0 ∧ 0 < gap * vq ∧ (x.dir = 0 ∨ 0 < x.dir * v)
      let tOut := tExt + gap / vq * 1000000000 - (s.ax P.axCmplead i : Rat)
      let unit : Rat := if 0x20 ≤ x.cfg.output ∧ x.cfg.output ≠ 0xFF then mkRat 5 64 else mkRat 5 2
      let at_ (t : Rat) : Rat := (roundAway (t / unit) : Rat) * unit
      let plan := if cross then some (at_ (tE + 100), true) else if ahead ∧ tOut < next then some (at_ (ratMax tOut (tE + 100)), false)
        else none
      s.evalCompare i k q v tExt tE next = chan s k fun y => { y with prev := q, sched := plan })
    ∧ (x.sched = none ∨ x.armed = false → Acts (.compareOutputFire i k) s fun t => t = s)
    ∧ (∀ (t0 : Rat) (late : Bool), x.sched = some (t0, late) → s.now < t0.floor.toNat → Acts (.compareOutputFire i k) s fun t => t = s)
    ∧ (∀ (t0 : Rat) (late : Bool), x.sched = some (t0, late) → x.armed = true → t0.floor.toNat ≤ s.now →
      Acts (.compareOutputFire i k) s fun t =>
      let more := if x.left = none then decide (x.cfg.pitch ≠ 0) else decide (x.left ≠ some 0 ∧ x.left ≠ some 1)
      ∃ u : State, { u with outs := s.outs } = s
      ∧ t = chan u k (fun y => { y with
          fired := (y.fired + 1) % 2 ^ 32, late := late, sched := none, armed := more, finished := !more, left := y.left.map (· - 1)
          pos := if more then y.pos + y.dir * y.cfg.pitch else y.pos
          wait := y.wait ++ [(t0, (if x.cfg.flags / 8 % 2 = 1 then 8 else 0) + 32 + (if late then 64 else 0))] })
      ∧ (∀ m : Fin 56, m.val ≠ x.cfg.output → u.outs[m] = s.outs[m])
      ∧ (∀ m : Fin 56, m.val = x.cfg.output →
        let old := s.outs[m]
        let o := u.outs[m]
        let beaten := ∃ j c b, old.last = some (t0, j, c, b) ∧ (j < i.val ∨ (j = i.val ∧ c < k.val))
        o.used = true ∧ o.activeLow = decide (x.cfg.flags / 16 % 2 = 1) ∧ o.pin = ((o.level || !o.pulses.isEmpty) != o.activeLow)
        ∧ (x.cfg.action = 0 → o.level = old.level ∧ o.last = old.last
            ∧ ∀ e, e ∈ o.pulses ↔ e ∈ old.pulses ∨ e = (i.val, k.val, (t0 + (x.cfg.width : Rat)).floor.toNat))
        ∧ (x.cfg.action ≠ 0 → o.pulses = old.pulses ∧ (beaten → o.level = old.level)
          ∧ (¬ beaten → ∀ b : Bool, ((∃ j c, old.last = some (t0, j, c, b)) ∨ ((∀ j c d, old.last ≠ some (t0, j, c, d)) ∧ b = old.level)) →
              o.level = if x.cfg.action = 1 then true else if x.cfg.action = 2 then false else !b))))
    ∧ Acts (.comparePulseEnd i k) s (fun t => t = { s with outs := s.outs.map fun o =>
        { o with pulses := o.pulses.filter fun e => !decide (e.1 = i.val ∧ e.2.1 = k.val ∧ e.2.2 ≤ s.now) } })
    -- a GPIO input
    ∧ (let u : State := { s with gpio := if level then s.gpio ||| (1#32 <<< g.val) else s.gpio &&& ~~~(1#32 <<< g.val) }
      ((∀ e ∈ s.wm.run.chans, e.2.src = 7 → e.2.inst ≠ g.val) → Acts (.gpioEdge g level tg) s fun t => t = u)
      ∧ (∀ (c : Fin 1024) (y : WmChan), s.wm.run.chans.filter (fun e => e.2.src == 7 && e.2.inst == g.val) = [(c.val, y)] →
          Acts (.gpioEdge g level tg) s fun t => Machine.exec (.waymarkSampleIntake c tg 0) u = .next t))

/-! ### Tollgate (chapter 12) -/

/-- R380, R384, R389, R390, R393 to R396, R399, Tables 12.3 to 12.6: a Tollgate cycle. `GEN` is high exactly on used ports in
`PERMIT` or `SS1` without a torque-off request, the pad block and the brakes follow, and functions and ports change state by their
tables. -/
def Obligations.TollgateCycle : Prop :=
  ∀ (s : State) (edm : BitVec 8) (brkfb pads : BitVec 64) (mm : Fin 3) (p : Fin 64) (f o : Fin 16) (reset : Bool),
    let run := s.tg.st = .run ∨ s.tg.st = .confirming
    (s.tg.st = .selftest → Completes (.tollgateCycle edm brkfb pads mm) s fun t => t = s)
    ∧ (s.tg.st = .safeHalt → mm = 2 → Completes (.tollgateCycle edm brkfb pads mm) s fun t => t = s)
    ∧ (s.tg.st ≠ .selftest → s.tg.st ≠ .safeHalt → mm = 2 → Completes (.tollgateCycle edm brkfb pads mm) s fun t =>
        t.tg.st = .safeHalt ∧ t.tg.gen = 0 ∧ t.tg.brk = 0 ∧ t.tg.pad = BitVec.allOnes 64 ∧ (∀ k : Fin 16, (t.tg.sos[k]).on = false)
        ∧ t = s.axisCycle State.tgHalt)
    ∧ (s.tg.st ≠ .selftest → mm ≠ 2 → Completes (.tollgateCycle edm brkfb pads mm) s fun t =>
        (t.tg.st = s.tg.st ∧ t.tg.cfg = s.tg.cfg ∧ t.tg.cycles = (s.tg.cycles + 1) % 2 ^ 32 ∧ t.tg.edm = edm ∧ t.tg.brkfb = brkfb
          ∧ t.tg.si = s.tg.si ∧ t.tg.mirror.seq = (s.tg.mirror.seq + 2) % 2 ^ 32 ∧ t.tg.mirror.gen = t.tg.gen
          ∧ t.tg.mirror.brk = t.tg.brk ∧ t.tg.mirror.si = t.tg.si ∧ t.tg.mirror.since = s.tg.clk ∧ t.tg.toggled = s.tg.clk
          ∧ t.tg.mirror.state % 256 = t.tg.st.code)
        ∧ (¬ run → t.tg.gen = s.tg.gen ∧ t.tg.brk = s.tg.brk ∧ t.tg.pad = s.tg.pad)
        ∧ (run → s.tg.cfg.isSome = true → s.dbg.lifecycle ≠ 0x40 → (s.boot.recovery = true → s.boot.bywayDead = true) →
          let x := t.tg.ports[p]
          let y := s.ports[p]
          let used := bit (s.sf P.sfPortsused) p.val = true
          let so := t.tg.sos[o]
          let demanded := ∃ g : Fin 16, s.sf P.sfFnType g.val ∈ [1, 2, 3, 4, 5, 6] ∧ bit (s.sf P.sfFnSo g.val) o.val = true
            ∧ (t.tg.fns[g]).st ≠ .clear
          (t.tg.gen.getLsbD p.val = true ↔ s.tg.st = .run ∧ s.tg.watchdog = false ∧ used ∧ (x.st = .permit ∨ x.st = .ss1)
              ∧ y.offFault = false ∧ y.offReset = false ∧ y.offRetired = false)
          ∧ (x.st = .sto ∨ x.st = .lockout ∨ ¬ used ∨ s.tg.watchdog = true → t.tg.pad.getLsbD p.val = true)
          ∧ (t.tg.gen.getLsbD p.val = true → t.tg.pad.getLsbD p.val = false)
          ∧ (t.tg.brk.getLsbD p.val = true → t.tg.gen.getLsbD p.val = true ∧ s.tg.brk.getLsbD p.val = true)
          ∧ (s.sf P.sfSoMode o.val = 0 ∨ s.tg.watchdog = true → so.on = false)
          ∧ (s.sf P.sfSoMode o.val = 1 → so.lockout = true ∨ s.tg.st ≠ .run → so.on = false)
          ∧ (s.sf P.sfSoMode o.val = 1 → s.sf P.sfOteso ≠ o.val → demanded → so.on = false)))
    -- Table 12.4 for the two-channel functions without a lock
    ∧ (s.sf P.sfFnType f.val = 1 ∨ s.sf P.sfFnType f.val = 2 ∨ s.sf P.sfFnType f.val = 6 →
      let x := s.tg.fns[f]
      let (a, b) := s.fnChan f
      let back := a = true ∧ b = true ∧ x.need = true ∧ x.together = true
      let need := ¬ back ∧ (x.need = true ∨ a = false ∨ b = false)
      let together := need ∧ (x.together = true ∨ (a = false ∧ b = false))
      let y := (s.fnStep reset f).tg.fns[f]
      let bad := a ≠ b ∨ (a = true ∧ b = true ∧ need ∧ ¬ together) ∨ s.fnInputBad f = true
      y.need = decide need ∧ y.together = decide together
      ∧ y.st = match x.st with
        | .clear => if need then .demand else .clear
        | .demand => if need then .demand else if s.sf P.sfFnReset f.val = 1 then .clear else .awaitReset
        | .awaitReset => if need then .demand else if reset then .clear else .awaitReset
        | .fault => if reset = true ∧ ¬ bad then (if need then .demand else .clear) else .fault)
    -- Table 12.6
    ∧ (let x := s.tg.ports[p]
      let covers (g : Fin 16) : Prop := s.sf P.sfFnType g.val ∈ [1, 2, 3, 4, 5, 6] ∧ bit (s.sf P.sfFnPorts g.val) p.val = true
      let demands (g : Fin 16) : Prop := covers g ∧ (s.tg.fns[g]).st ≠ .clear
      let sto := ∃ g, demands g ∧ s.sf P.sfFnStop g.val = 0
      let stands := 0 < s.sf P.sfPtSs1stand p.val ∧ 41 ≤ x.taps.length
        ∧ ∀ a ∈ x.taps, ∀ b ∈ x.taps, a - b ≤ (s.sf P.sfPtSs1stand p.val : Int)
      let ripe := x.ss1At + s.sf P.sfPtSs1time p.val * 400000 ≤ s.tg.clk
      (x.st = .permit → (sto → s.tgPortNext reset p = .sto) ∧ ((∀ g, ¬ demands g) → s.tgPortNext reset p = .permit)
        ∧ (¬ sto → (∃ g, demands g) → s.tgPortNext reset p = if s.sf P.sfPtSs1time p.val = 0 then .sto else .ss1))
      ∧ (x.st = .ss1 → (sto ∨ ripe ∨ stands → s.tgPortNext reset p = .sto) ∧ (¬ sto → ¬ ripe → ¬ stands → s.tgPortNext reset p = .ss1))
      ∧ (x.st = .sto → ((∀ g, ¬ demands g) → s.tgPortNext reset p = .permit) ∧ ((∃ g, demands g) → s.tgPortNext reset p = .sto))
      ∧ (x.st = .lockout →
        let free := reset = true ∧ x.brkBad = false ∧ x.genRun = 0 ∧ ∀ g, covers g → (s.tg.fns[g]).st ≠ .fault
        (¬ free → s.tgPortNext reset p = .lockout)
        ∧ (free → (∀ g, ¬ demands g) → s.tgPortNext reset p = .permit)
        ∧ (free → (∃ g, demands g) → s.tgPortNext reset p = .sto)))

/-- R382, R383, R386 to R394, R397, R400 to R403, Tables 12.17, 12.20: the filtered inputs, test pulses, timers and output stage of
Tollgate. -/
def Obligations.TollgateEvents : Prop :=
  ∀ (s : State) (i : Fin 32) (f : Fin 16) (o : Fin 16) (p : Fin 64) (n : Fin 8) (level a b : Bool) (low back : BitVec 32)
      (run : BitVec 8) (us : BitVec 16),
    let active := s.tg.cfg.isSome = true ∧ (s.tg.st = .run ∨ s.tg.st = .confirming) ∧ s.dbg.lifecycle ≠ 0x40
      ∧ (s.boot.recovery = true → s.boot.bywayDead = true)
    -- `n` ms of Tollgate time have passed since `t0`
    let past (t0 n : Nat) : Prop := t0 + n * 400000 ≤ s.tg.clk
    let lowAll (t : State) : Prop := t.tg.gen = 0 ∧ t.tg.brk = 0 ∧ t.tg.pad = BitVec.allOnes 64 ∧ ∀ k : Fin 16, (t.tg.sos[k]).on = false
    let halted (t : State) : Prop := t.tg.st = .safeHalt ∧ lowAll t
      ∧ ∃ u : State, t = if s.boot.inReset then u.tgNote else (u.raiseDev 0x070E 6).tgNote
    let off (q : Fin 64) (t : State) : Prop := (t.tg.ports[q]).st = .lockout ∧ t.tg.gen.getLsbD q.val = false
      ∧ t.tg.brk.getLsbD q.val = false ∧ t.tg.pad.getLsbD q.val = true
    let faulted (u : State) (code cause : Nat) (t : State) : Prop := t = (u.fnFault f code cause f.val).tgOutputs.tgNote
      ∧ (t.tg.fns[f]).st = .fault ∧ ∀ q : Fin 64, bit (s.sf P.sfFnPorts f.val) q.val = true → off q t
    -- filtered inputs
    (let x := s.tg.fns[f]
      let src := s.sf P.sfSiTpo i.val
      let tp := s.sf P.sfSiOssdtp i.val
      let passes := s.tg.si.getLsbD i.val ≠ level ∧ (∀ k : Fin 8, src = k.val → s.tg.tpoWin.getLsbD k.val = false)
        ∧ s.sf P.sfSiFilt i.val ≤ run.toNat ∧ (level = true ∨ tp = 0 ∨ tp + 10 ≤ us.toNat)
      let si := if level then s.tg.si ||| BitVec.ofNat 32 (2 ^ i.val) else s.tg.si &&& ~~~(BitVec.ofNat 32 (2 ^ i.val))
      let u := s.updTg fun t => { t with si := si }
      let quiet := ∀ g : Fin 16, s.sf P.sfFnType g.val ≠ 4 ∧ s.sf P.sfFnType g.val ≠ 5
      let r := s.tg.reset
      let armed := r.armed = true ∨ ∃ t0, r.idle = some t0 ∧ t0 + 40000000 ≤ s.tg.clk
      let gone := u.updReset fun r => { r with press := none, idle := some s.tg.clk, stuckGone := some s.tg.clk }
      (¬ passes → Completes (.siFilteredChange i level run us) s fun t => t = s)
      ∧ (passes → Completes (.siFilteredChange i level run us) s fun t => t.tg.si = si
          ∧ (quiet → s.resetIdx ≠ i.val → t = u.fnTimes.tgNote)
          ∧ (quiet → s.resetIdx = i.val → level = true → ∃ g, (g = true ↔ armed) ∧ t = (u.updReset fun r =>
              { r with armed := g, press := some (s.tg.clk, g), idle := none, stuck := false }).fnTimes.tgNote)
          ∧ (quiet → s.resetIdx = i.val → level = false →
            (r.press = none → t = gone.fnTimes.tgNote)
            ∧ (∀ t0 g, r.press = some (t0, g) →
              (r.stuck = true → t = gone.fnTimes.tgNote)
              ∧ (r.stuck = false → g = false → t = (gone.safetyEvent 8 i.val 3 0).fnTimes.tgNote)
              ∧ (r.stuck = false → g = true → s.tg.clk < t0 + 40000000 → t = (gone.safetyEvent 8 i.val 1 0).fnTimes.tgNote)
              ∧ (r.stuck = false → g = true → t0 + 40000000 ≤ s.tg.clk → s.tg.clk ≤ t0 + 2000000000 →
                  t = (gone.updReset fun r => { r with due := true }).fnTimes.tgNote)
              ∧ (r.stuck = false → g = true → t0 + 2000000000 < s.tg.clk → t = gone.fnTimes.tgNote)))
          ∧ (s.sf P.sfFnType f.val = 4 ∨ s.sf P.sfFnType f.val = 5 →
            let y := t.tg.fns[f]
            let (l, r) := u.hands f
            let ta := x.left.getD s.tg.clk
            let tb := x.right.getD s.tg.clk
            y.left = (if l then some ta else none) ∧ y.right = (if r then some tb else none)
            ∧ (l = false → r = false → y.released = true ∧ y.valid = false)
            ∧ (l ≠ r → y.released = x.released ∧ y.valid = false)
            ∧ (l = true → r = true → x.valid = true → y.valid = true)
            ∧ (l = true → r = true → x.valid = false → y.released = false
                ∧ (y.valid = true ↔ x.released = true ∧ ta ≤ tb + 200000000 ∧ tb ≤ ta + 200000000)))))
    -- test pulses
    ∧ (¬ active → Completes (.tpoPulse n level low back) s fun t => t = s)
    -- (the window of `TPO`n in its period, staggered by an eighth)
    ∧ (let per := s.sf P.sfTpoper * 400000
      let inside := (s.tg.clk + per - n.val * per / 8) % per < (s.sf P.sfTpowidth + 50) * 400
      (active → inside → Completes (.tpoPulse n true low back) s fun t =>
        t = s.updTg fun t => { t with tpoWin := t.tpoWin ||| BitVec.ofNat 8 (2 ^ n.val) })
      ∧ (active → ¬ inside → Completes (.tpoPulse n true low back) s fun t => t = s)
      ∧ (active → inside ∨ s.tg.tpoWin.getLsbD n.val = false → Completes (.tpoPulse n false low back) s fun t => t = s)
      ∧ (active → ¬ inside → s.tg.tpoWin.getLsbD n.val = true → Completes (.tpoPulse n false low back) s fun t =>
        let src := s.sf P.sfSiTpo i.val
        let on := s.tg.si.getLsbD i.val = true
        let missing := !low.getLsbD i.val
        let cross := low.getLsbD i.val && back.getLsbD i.val
        t.tg.tpoWin = s.tg.tpoWin &&& ~~~(BitVec.ofNat 8 (2 ^ n.val)) ∧ t.tg.si = s.tg.si
        ∧ t.tg.tpBad.getLsbD i.val = (if on ∧ src = n.val then missing else s.tg.tpBad.getLsbD i.val)
        ∧ t.tg.crossBad.getLsbD i.val = (if on ∧ src < 8 ∧ src ≠ n.val then cross else s.tg.crossBad.getLsbD i.val)
        ∧ (s.resetIdx ≠ i.val → i.val ∈ fnInputs ((s.tg.cfg.map (·.values)).getD []) f.val → on →
            (src = n.val ∧ missing = true ∧ s.tg.tpBad.getLsbD i.val = false)
              ∨ (src < 8 ∧ src ≠ n.val ∧ cross = true ∧ s.tg.crossBad.getLsbD i.val = false) →
            (t.tg.fns[f]).st = .fault ∧ ∀ q : Fin 64, bit (s.sf P.sfFnPorts f.val) q.val = true → off q t)))
    -- the output stage
    ∧ Completes .torqueOffSample s (fun t =>
        let x := s.ports[p]
        let req := x.offFault || x.offReset || x.offRetired
        let fall := req && s.tg.torSample.getLsbD p.val
        t.tg.torSample.getLsbD p.val = req ∧ t.tg.gen.getLsbD p.val = (s.tg.gen.getLsbD p.val && !fall)
        ∧ t.tg.brk.getLsbD p.val = (s.tg.brk.getLsbD p.val && !fall) ∧ t.tg.pad = s.tg.pad ∧ t.tg.sos = s.tg.sos ∧ t.tg.fns = s.tg.fns)
    ∧ (s.tg.st = .selftest ∨ past s.tg.toggled 1 →
        Completes .outputWatchdogExpiry s fun t => t.tg.watchdog = true ∧ lowAll t ∧ t.tg.st = s.tg.st)
    ∧ (s.tg.st ≠ .selftest → ¬ past s.tg.toggled 1 → Completes .outputWatchdogExpiry s fun t => t = s)
    ∧ (s.tg.st ≠ .safeHalt → Completes .tgoscFaultLine s halted ∧ Completes (.tgBackgroundTest false) s halted)
    ∧ (s.tg.st = .safeHalt → Completes .tgoscFaultLine s (fun t => t = s) ∧ Completes (.tgBackgroundTest false) s fun t => t = s)
    ∧ Completes (.tgBackgroundTest true) s (fun t => t = s)
    ∧ Completes .tgSilent s (fun t => t =
        if s.boot.inReset = true ∨ s.activeFault 0x070F .device 0 = true ∨ ¬ past s.tg.mirror.since 10 then s
        else (s.updTg fun t => { t with mirror := { t.mirror with silent := t.mirror.seq } }).raiseDev 0x070F 6)
    -- timers of ports and functions
    ∧ (let ripe := past (s.tg.ports[p]).ss1At (s.sf P.sfPtSs1time p.val)
      (¬ (active ∧ (s.tg.ports[p]).st = .ss1 ∧ ripe) → Completes (.ss1Timeout p) s fun t => t = s)
      ∧ (active → (s.tg.ports[p]).st = .ss1 → ripe → Completes (.ss1Timeout p) s fun t => (t.tg.ports[p]).st = .sto
        ∧ t.tg.gen.getLsbD p.val = false ∧ t.tg.brk.getLsbD p.val = false ∧ t.tg.pad.getLsbD p.val = true
        ∧ ∀ q : Fin 64, q ≠ p → t.tg.ports[q] = s.tg.ports[q] ∨ t.tg.ports[q] = { s.tg.ports[q] with
            brkWait := true, brkMon := true, brkBad := false, brkAt := s.tg.clk }))
    ∧ (let ripe := ∃ t0, (s.tg.fns[f]).diffSince = some t0 ∧ t0 + s.sf P.sfFnDisc f.val * 400000 < s.tg.clk
      (¬ (active ∧ s.fnDiffers f = true ∧ ripe ∧ (s.tg.fns[f]).st ≠ .fault) → Completes (.discrepancyTimer f) s fun t => t = s)
      ∧ (active → s.fnDiffers f = true → ripe → (s.tg.fns[f]).st ≠ .fault → Completes (.discrepancyTimer f) s (faulted s 0x0701 3)))
    ∧ (let x := s.tg.fns[f]
      let stopped := (∀ q : Fin 64, bit (s.sf P.sfFnPorts f.val) q.val = true → (s.tg.ports[q]).st = .sto ∨ (s.tg.ports[q]).st = .lockout)
        ∧ ∃ t0, x.stopSince = some t0 ∧ past t0 (s.sf P.sfFnLockdly f.val)
      let due := active ∧ s.sf P.sfFnType f.val = 3
      let fb := s.fnIn f 2 = some true
      let waited := s.updFn f fun y => { y with fbWait := false }
      (due ∧ x.unlocking = true ∧ stopped → Completes (.lockDelayExpiry f) s fun t =>
        t = ((s.updFn f fun y => { y with locked := false, fbWait := false }).tgOutputs).tgNote)
      ∧ (¬ (due ∧ x.unlocking = true ∧ stopped) → Completes (.lockDelayExpiry f) s fun t => t = s)
      ∧ (due → x.fbWait = true → past x.relockAt 1000 → fb → Completes (.lockFbTimeout f) s fun t => t = waited)
      ∧ (due → x.fbWait = true → past x.relockAt 1000 → ¬ fb → Completes (.lockFbTimeout f) s (faulted waited 0x0704 6))
      ∧ (¬ due ∨ x.fbWait = false ∨ ¬ past x.relockAt 1000 → Completes (.lockFbTimeout f) s fun t => t = s))
    ∧ (let due := active ∧ s.sf P.sfPtBrake p.val = 1 ∧ (s.tg.ports[p]).brkWait = true
        ∧ past (s.tg.ports[p]).brkAt (s.sf P.sfPtBrkfbt p.val)
      (due → Completes (.brkfbTimeout p) s fun t => off p t ∧ t =
        (((s.updTp p fun x => { x with brkWait := false, brkBad := true }).tgPortFault p 0x0705 7).tgOutputs).tgNote)
      ∧ (¬ due → Completes (.brkfbTimeout p) s fun t => t = s))
    -- outputs
    ∧ (let x := s.tg.sos[o]
      let out (code cause : Nat) (t : State) : Prop := t = (s.soFault o code cause).tgOutputs.tgNote
        ∧ (s.sf P.sfSoMode o.val = 1 → (t.tg.sos[o]).on = false) ∧ (t.tg.sos[o]).lockout = true
      (active → x.edmWait = true → past x.edmAt (s.sf P.sfEdmtime) → Completes (.edmTimeout o) s (out 0x070A 0x0B))
      ∧ (¬ active ∨ x.edmWait = false ∨ ¬ past x.edmAt (s.sf P.sfEdmtime) → Completes (.edmTimeout o) s fun t => t = s)
      ∧ (active → o.val < 8 → x.on = true → a = false ∨ b = false → Completes (.soOffPulse o a b) s (out 0x0709 0x0A))
      ∧ (¬ active ∨ 8 ≤ o.val ∨ x.on = false ∨ (a = true ∧ b = true) → Completes (.soOffPulse o a b) s fun t => t = s))
    -- the reset input
    ∧ (let long := ∃ t0 g, s.tg.reset.press = some (t0, g) ∧ past t0 5000
      (long → s.tg.reset.stuck = false → Completes .resetStuckTimer s fun t =>
        let u := s.updReset fun r => { r with stuck := true, stuckGone := none }
        t = ((if s.boot.inReset then u else u.raise { code := 0x070B, cls := 1, scope := .device, detail := s.resetIdx }
          ).safetyEvent 8 s.resetIdx 2 0).tgNote)
      ∧ (¬ long ∨ s.tg.reset.stuck = true → Completes .resetStuckTimer s fun t => t = s))

/-- R406 to R409, Tables 12.12, 12.13: loading, checking, confirming, sealing and accepting a configuration of Tollgate. -/
def Obligations.TollgateConfiguration : Prop :=
  ∀ (s : State) (p : Packet) (off total id crc tmo : Nat) (data im : List Byte) (c0 c1 : List Byte) (k : Fin 2) (g : TgCfg)
      (r : CmdRef) (rest : List (List Byte × Option CmdRef)),
    let st := s.tg.st
    let put (f : Tollgate → Tollgate) : State := s.updTg f
    let crcOf (l : List Byte) : Nat := (crc32c l).toNat
    -- what an accepted image is
    (acceptImage im k = .ok g →
      (u32 im 0 = 0x46434754 ∧ u16 im 4 = 1 ∧ u16 im 6 = 1 ∧ u64 im 24 = Config.serial.toNat
        ∧ u32 im 40 = crcOf (imgContent im) ∧ u32 im 44 = crcOf (im.take 44 ++ imgContent im))
      ∧ g.id = u32 im 8 ∧ g.seq = u32 im 16 ∧ g.copy = k
      ∧ (let v (d : PDef) (n : Nat := 0) : Nat := sfVal g.values d n
        v P.sfResetin ≠ 0xFF ∧ v P.sfTpowidth * 8 + 480 ≤ v P.sfTpoper * 1000
        ∧ (v P.sfOteso = 0xFF ∨ v P.sfSoMode (v P.sfOteso) = 1)
        ∧ ∀ f : Fin 16, (v P.sfFnType f.val = 1 → v P.sfFnReset f.val = 0)
          ∧ (v P.sfFnType f.val = 4 ∨ v P.sfFnType f.val = 5 → v P.sfFnReset f.val = 1)
          ∧ (v P.sfFnPorts f.val &&& v P.sfPortsused = v P.sfFnPorts f.val)
          ∧ (∀ o : Fin 16, bit (v P.sfFnSo f.val) o.val = true → v P.sfSoMode o.val = 1)
          ∧ v P.sfResetin ∉ fnInputs g.values f.val ∧ (fnInputs g.values f.val).Nodup
          ∧ (∀ e : Fin 16, e ≠ f → ∀ i ∈ fnInputs g.values f.val, i ∉ fnInputs g.values e.val)))
    ∧ (imgMagic im = true → u16 im 6 = 1 → u32 im 40 = crcOf (imgContent im) → u32 im 44 = crcOf (im.take 44 ++ imgContent im) →
        u64 im 24 ≠ Config.serial.toNat → acceptImage im k = .error 2)
    -- at boot
    -- (after the steps of Table 2.9 that have no row of their own)
    ∧ (let b := s.bootStep.bootStep
      let a0 := b.tg.flash.copy0.getD c0
      let a1 := b.tg.flash.copy1.getD c1
      let ok (im : List Byte) : Prop := imgMagic im = true ∧ u16 im 6 = 1 ∧ u64 im 24 = Config.serial.toNat
        ∧ u32 im 40 = crcOf (imgContent im) ∧ u32 im 44 = crcOf (im.take 44 ++ imgContent im)
      let takes := (k = 0 ∧ im = a0 ∧ ok a0 ∧ (ok a1 → u32 a1 16 ≤ u32 a0 16))
        ∨ (k = 1 ∧ im = a1 ∧ ok a1 ∧ (ok a0 → u32 a0 16 < u32 a1 16))
      let held : State := { b with xr := (b.xr.write 0x900000 im).clearBad 0x900000 im.length }
      let refused (u : State) (d : Nat) : State :=
        (if b.boot.inReset then u else u.raise { code := 0x070D, cls := 1, scope := .device, detail := d }).tgNote
      (st ≠ .waitCfg ∨ b.boot.bywayUp = false ∨ b.boot.coldBoot = false → Completes (.cfgTransfer c0 c1) s fun t => t = b)
      ∧ (st = .waitCfg → b.boot.bywayUp = true → b.boot.coldBoot = true →
      (¬ ok a0 → ¬ ok a1 → Completes (.cfgTransfer c0 c1) s fun t => t = refused b 1)
      ∧ (∀ d, takes → acceptImage im k = .error d → Completes (.cfgTransfer c0 c1) s fun t => t = refused held d)
      ∧ (takes → acceptImage im k = .ok g → Completes (.cfgTransfer c0 c1) s fun t =>
          t.tg.cfg = some g ∧ t.tg.st = .run ∧ t.xr = held.xr ∧ t.tg.gen = s.tg.gen ∧ t.tg.flash = s.tg.flash
          ∧ (sfVal g.values P.sfStartreset 0 = 1 → ∀ q : Fin 64, (t.tg.ports[q]).st = .lockout ∧ (t.tg.ports[q]).cause = 1)
          ∧ (sfVal g.values P.sfStartreset 0 ≠ 1 → ∀ q : Fin 64, (t.tg.ports[q]).st = .sto ∨ (t.tg.ports[q]).st = .permit)
          ∧ t.tg.reset.armed = false ∧ t.tg.reset.press = none)))
    -- `SAFE_CFG_LOAD`
    ∧ (Served p 0x0802 s → p.args = leBytes 4 off ++ leBytes 4 total ++ data → off < 2 ^ 32 → total < 2 ^ 32 →
      4 ≤ data.length → data.length ≤ 4072 →
      let got := if off = 0 then [] else (s.tg.load.map (·.2)).getD []
      let sized := 64 ≤ total ∧ total ≤ 65536 ∧ total % 4 = 0 ∧ off + data.length ≤ total
      (off ≠ got.length → Sends (.safeCfgLoad p) p s (Refused p 0x0802 s .range 0x0101))
      ∧ (off = got.length → ¬ sized → Sends (.safeCfgLoad p) p s (Refused p 0x0802 s .range 0x0102))
      ∧ (off = got.length → sized →
        (st = .confirming → Sends (.safeCfgLoad p) p s (Refused p 0x0802 s .state 0x0101))
        ∧ (st = .safeHalt ∨ st = .selftest → Sends (.safeCfgLoad p) p s (Refused p 0x0802 s .state 0x0104))
        ∧ (st = .waitCfg ∨ st = .run →
          (off + data.length < total → Sends (.safeCfgLoad p) p s
            (Ok p 0x0802 s (put fun t => { t with load := some (total, got ++ data) })))
          ∧ (off + data.length = total → Sends (.safeCfgLoad p) p s
            (Accepted p 0x0802 s (put fun t =>
              { t with load := none, checking := t.checking ++ [(got ++ data, some (s.refOf (asOp p 0x0802)))] }))))))
    ∧ (s.tg.checking = [] → Completes .safeCfgCheckComplete s fun t => t = s)
    ∧ (s.tg.checking = (im, some r) :: rest →
      (∀ v, checkLoaded im = .ok v → Completes .safeCfgCheckComplete s fun t =>
        t = (put fun t => { t with checking := rest, pending := some im }).complete r .done 0 s.now
              (leBytes 4 (u32 im 8) ++ leBytes 4 (u32 im 40)))
      ∧ (∀ d i, checkLoaded im = .error (d, i) → Completes .safeCfgCheckComplete s fun t =>
        t = (put fun t => { t with checking := rest }).complete r .denied d s.now (leBytes 4 i)))
    ∧ (u32 im 40 ≠ crcOf (imgContent im) → checkLoaded im = .error (0x0101, 0xFFFFFFFF))
    -- `SAFE_CFG_CONFIRM`
    ∧ (Served p 0x0803 s → p.args = leBytes 4 id ++ leBytes 4 crc ++ leBytes 2 tmo ++ zeros 2 → id < 2 ^ 32 → crc < 2 ^ 32 → tmo < 65536 →
      (st = .confirming → Sends (.safeCfgConfirm p) p s (Refused p 0x0803 s .state 0x0101))
      ∧ (st = .safeHalt ∨ st = .selftest → Sends (.safeCfgConfirm p) p s (Refused p 0x0803 s .state 0x0104))
      ∧ (st = .waitCfg ∨ st = .run →
        (s.tg.pending = none → Sends (.safeCfgConfirm p) p s (Refused p 0x0803 s .state 0x0102))
        ∧ (s.tg.pending = some im →
          (id ≠ u32 im 8 ∨ crc ≠ u32 im 40 → Sends (.safeCfgConfirm p) p s (Refused p 0x0803 s .denied 0x0106))
          ∧ (id = u32 im 8 → crc = u32 im 40 →
            (s.tg.gen ≠ 0 → Sends (.safeCfgConfirm p) p s (Refused p 0x0803 s .state 0x0103))
            ∧ (s.tg.gen = 0 → tmo < 10 ∨ 300 < tmo → Sends (.safeCfgConfirm p) p s (Refused p 0x0803 s .range 0))
            ∧ (s.tg.gen = 0 → 10 ≤ tmo → tmo ≤ 300 → Sends (.safeCfgConfirm p) p s fun t => ∃ u : State,
                Accepted p 0x0803 s u t ∧ u.tg.st = .confirming ∧ u.tg.pending = some im ∧ u.tg.gen = 0 ∧ u.tg.brk = 0
                ∧ u.tg.confirm = some { ref := some (s.refOf (asOp p 0x0803)), due := s.tg.clk + tmo * 400000000 }
                ∧ u.tg.reset.armed = false
                ∧ u.tg.reset.press = none)))))
    -- how a confirmation ends
    ∧ (let back (c : Confirm) (res : Status) (det : Nat) : State :=
        ((((put fun t => { t with confirm := none, st := if t.cfg.isSome then .run else .waitCfg }).complete? c.ref res det s.now
          ).watchReset).tgNote)
      (s.tg.confirm = none → Completes .confirmTimeout s (fun t => t = s) ∧ ∀ ok, Completes (.sealedImageWriteComplete ok) s fun t => t = s)
      ∧ (∀ c, s.tg.confirm = some c →
        (c.image = none → Completes .confirmTimeout s (fun t => t = if c.due ≤ s.tg.clk then back c .timeout 0 else s)
          ∧ ∀ ok, Completes (.sealedImageWriteComplete ok) s fun t => t = s)
        ∧ (c.image = some im → Completes .confirmTimeout s (fun t => t = s)
          ∧ Completes (.sealedImageWriteComplete false) s (fun t => t = back c .aborted 0x0101)
          ∧ (∀ copy : Fin 2, (s.tg.cfg = none → copy = 0) → (∀ o, s.tg.cfg = some o → o.copy ≠ copy) → acceptImage im copy = .ok g →
            Completes (.sealedImageWriteComplete true) s fun t =>
              t.tg.cfg = some g ∧ t.tg.st = .run ∧ t.tg.confirm = none ∧ t.tg.pending = none ∧ t.tg.gen = 0 ∧ t.tg.brk = 0
              ∧ t.tg.flash = (if copy = 0 then { s.tg.flash with copy0 := some im } else { s.tg.flash with copy1 := some im })
              ∧ ∀ q : Fin 64, (t.tg.ports[q]).st = .lockout ∧ (t.tg.ports[q]).cause = 2))))

/-- R381, R396, R397, R404, R405, Tables 12.7, 12.8, 12.15: `SAFE_STATUS`, the brake requests of Byway and the brake test. -/
def Obligations.BrakesAndStatus : Prop :=
  ∀ (s : State) (p : Packet) (i : Fin 512) (n : Fin 64) (fl : Nat) (b : BrakeTest) (mean : BitVec 32),
    let m : BitVec 64 := BitVec.ofNat 64 (2 ^ n.val)
    let x := s.tg.ports[n]
    let brake := s.sf P.sfPtBrake n.val = 1
    let active := s.tg.cfg.isSome = true ∧ (s.tg.st = .run ∨ s.tg.st = .confirming) ∧ s.dbg.lifecycle ≠ 0x40
      ∧ (s.boot.recovery = true → s.boot.bywayDead = true)
    let past (t0 n : Nat) : Prop := t0 + n * 400000 ≤ s.tg.clk
    let cur : Rat := fpToRat (BitVec.ofNat 32 (s.sf P.sfPtBtcur n.val))
    -- `SAFE_STATUS`
    (Served p 0x0801 s → p.args = [] → Sends (.safeStatus p) p s fun t => ∃ d : List Byte,
      Replied p 0x0801 s .ok 0 d s t ∧ d.length = 100 ∧ u8 d 0 = s.tg.st.code ∧ u16 d 2 = 0
      ∧ u8 d (12 + 4 * (n.val / 16) + n.val % 16 / 4) / 4 ^ (n.val % 4) % 4 = x.st.code
      ∧ u64 d 28 = s.tg.gen.toNat ∧ u64 d 36 = s.tg.brk.toNat ∧ u64 d 44 = s.tg.pad.toNat ∧ u64 d 60 = s.tg.btDue.toNat
      ∧ u32 d 68 = s.tg.si.toNat ∧ u8 d 74 = s.tg.edm.toNat
      ∧ (s.tg.lastChange < 2 ^ 64 → u64 d 84 = s.tg.lastChange) ∧ (s.tg.cycles < 2 ^ 32 → u32 d 92 = s.tg.cycles) ∧ u32 d 96 = 0)
    -- requests to release and to apply a brake
    ∧ Completes (.brakeReleaseRequest n false) s (fun t => t.tg.brk = s.tg.brk &&& ~~~m ∧ t.tg.gen = s.tg.gen
        ∧ ∃ ps : Vector TgPort 64, t = (s.updTg fun t => { t with brk := s.tg.brk &&& ~~~m, ports := ps }).tgNote
          ∧ ∀ q : Fin 64, ps[q] = if q = n ∧ s.tg.brk.getLsbD n.val = true then
              { s.tg.ports[q] with brkWait := true, brkMon := true, brkBad := false, brkAt := s.tg.clk } else s.tg.ports[q])
    ∧ (let may := active ∧ s.tg.gen.getLsbD n.val = true ∧ brake ∧ x.test = none
      (¬ may → Completes (.brakeReleaseRequest n true) s fun t => t = s)
      ∧ (may → Completes (.brakeReleaseRequest n true) s fun t => ∃ ps : Vector TgPort 64,
          t = (s.updTg fun t => { t with brk := s.tg.brk ||| m, ports := ps }).tgNote
          ∧ ∀ q : Fin 64, ps[q] = if q = n ∧ s.tg.brk.getLsbD n.val = false then
              { s.tg.ports[q] with brkWait := true, brkMon := true, brkBad := false, brkAt := s.tg.clk } else s.tg.ports[q]))
    ∧ (let due := active ∧ s.sf P.sfBtinterval ≠ 0 ∧ brake
        ∧ past x.passAt (s.sf P.sfBtinterval * 3600000)
      (due → s.boot.inReset = false → Completes (.brakeTestDueTimer n) s fun t =>
        t = ((s.updTg fun t => { t with btDue := t.btDue ||| m }).raisePort n 0x0707 1 n.val).tgNote)
      ∧ (¬ due → Completes (.brakeTestDueTimer n) s fun t => t = s))
    -- `BRAKE_TEST`
    ∧ (Served p 0x0804 s → p.axis.toNat = i.val → p.args = leBytes 1 fl ++ zeros 3 → fl < 256 →
      (s.portOf i = none → Sends (.brakeTest p) p s (Refused p 0x0804 s .badTarget 0))
      ∧ (s.portOf i = some n →
        let able := cur ≤ s.axF P.axIlimpos i ∧ cur ≤ s.axF P.axIlimneg i
        let idle := (s.axes[i]).st = .enabledIdle
        (2 ≤ fl → Sends (.brakeTest p) p s (Refused p 0x0804 s .range 0))
        ∧ (fl < 2 → ¬ able → Sends (.brakeTest p) p s (Refused p 0x0804 s .range 0x0101))
        ∧ (fl < 2 → able → ¬ idle → Sends (.brakeTest p) p s (Refused p 0x0804 s .state 0x0101))
        ∧ (fl < 2 → able → idle → ¬ brake → Sends (.brakeTest p) p s (Refused p 0x0804 s .state 0x0102))
        ∧ (fl < 2 → able → idle → brake → x.st = .lockout → Sends (.brakeTest p) p s (Refused p 0x0804 s .lockedOut 0))
        ∧ (fl < 2 → able → idle → brake → x.st ≠ .lockout → x.test ≠ none →
            Sends (.brakeTest p) p s (Refused p 0x0804 s .busy 0x0101))
        ∧ (fl < 2 → able → idle → brake → x.st ≠ .lockout → x.test = none → Sends (.brakeTest p) p s fun t => ∃ u : State,
            Accepted p 0x0804 s u t ∧ u.tg.brk = s.tg.brk &&& ~~~m ∧ u.tg.gen = s.tg.gen
            ∧ (u.tg.ports[n]).test = some { ref := some (s.refOf (asOp p 0x0804)), both := decide (fl = 1), since := s.tg.clk }
            ∧ (u.tg.ports[n]).st = x.st ∧ ∀ q : Fin 64, q ≠ n → u.tg.ports[q] = s.tg.ports[q])))
    -- the steps of a test
    ∧ (x.test = none → Completes (.brakeTestStep n mean) s fun t => t = s)
    ∧ (x.test = some b →
      let then_ (c : BrakeTest) : State := s.updTp n fun x => { x with test := some c }
      let shows := (s.tg.brkfb.getLsbD n.val = true ↔ s.sf P.sfPtBrkfbpol n.val = 0) ↔ s.tg.brk.getLsbD n.val = true
      let low := fpToRat mean < mkRat 9 10 * cur
      let driven := past b.since (s.sf P.sfPtBttime n.val)
      let ends (res : Nat) (u : State) : Prop := ∃ w : State, (w.tg.ports[n]).test = none ∧ w.tg.brk = s.tg.brk
        ∧ u = (w.safetyEvent 10 n.val res m)
        ∧ w = (match b.ref with
            | some r => s.complete r .done 0 s.now
                (leBytes 1 res ++ leBytes 1 (if res = 0 then 0 else if b.neg then 2 else 1) ++ zeros 2 ++ leBytes 4 b.maxD)
            | none => s).updTp n fun x => { x with test := none }
      (b.phase = .confirm → shows → Completes (.brakeTestStep n mean) s fun t =>
        t = s.updTp n fun x => { x with test := some { b with phase := .settle, since := s.tg.clk }, brkWait := false })
      ∧ (b.phase = .confirm → ¬ shows → ¬ past b.since (s.sf P.sfPtBrkfbt n.val) → Completes (.brakeTestStep n mean) s fun t => t = s)
      ∧ (b.phase = .confirm → ¬ shows → past b.since (s.sf P.sfPtBrkfbt n.val) →
        Completes (.brakeTestStep n mean) s fun t => (t.tg.ports[n]).test = none
          ∧ (t.tg.ports[n]).st = .lockout ∧ (active → t.tg.gen.getLsbD n.val = false))
      ∧ (b.phase = .settle → Completes (.brakeTestStep n mean) s fun t =>
          t = if past b.since 100 then then_ { b with phase := .drive, since := s.tg.clk, p0 := (s.fb[n]).count } else s)
      ∧ (b.phase = .drive → ¬ driven → Completes (.brakeTestStep n mean) s fun t => t = s)
      ∧ (b.phase = .drive → driven → low → Completes (.brakeTestStep n mean) s fun t => ∃ u, ends 2 u ∧ t = u.tgNote)
      ∧ (b.phase = .drive → driven → ¬ low → b.both = true → b.neg = false → Completes (.brakeTestStep n mean) s fun t =>
          t = then_ { b with phase := .settle, since := s.tg.clk, neg := true })
      ∧ (b.phase = .drive → driven → ¬ low → b.both = false ∨ b.neg = true → Completes (.brakeTestStep n mean) s fun t => ∃ u, ends 0 u
          ∧ t = ((u.updTp n fun x => { x with passAt := s.tg.clk }).updTg fun t => { t with btDue := t.btDue &&& ~~~m }).tgNote)
      -- in every cycle
      ∧ (x.st = .permit → s.axisOf n = some i → (s.axes[i]).st = .enabledIdle → b.phase = .drive →
        let d := ((s.fb[n]).count - b.p0).natAbs
        (d ≤ s.sf P.sfPtBtposmax n.val → s.brakeTestCycle n = then_ { b with maxD := max b.maxD d })
        ∧ (s.sf P.sfPtBtposmax n.val < d → ((s.brakeTestCycle n).tg.ports[n]).test = none
            ∧ ((s.brakeTestCycle n).tg.ports[n]).st = .lockout ∧ ((s.brakeTestCycle n).tg.ports[n]).cause = 8)))

/-! ### Line time, Ethernet, Jalut and junctions (chapter 13) -/

/-- R414, R416, R419, R423 to R426, Table 13.2: a Sync, its absence, the holdover limit and the best master clock algorithm act on the
servo; the counter moves only by acquisition and by the phase change of R425. -/
def Obligations.TimeServo : Prop :=
  ∀ (s : State) (e : Fin 4) (gm : BitVec 96) (tbi : BitVec 16) (phase : BitVec 96) (sel : Option (Fin 4 × BitVec 64 × BitVec 16))
      (passive : BitVec 4),
    -- grandmaster time at the arrival: what the Sync carries, and the delay of the link with its asymmetry
    let gmNow : Int := gm.toNat
      + 65536 * ((s.net.ports[e]).delay + signed 32 (s.dv P.dvTsasym / 2 ^ (32 * e.val) % 2 ^ 32))
    let th := s.time.fine - gmNow
    let u := s.updNet fun n => { n with ports := upd n.ports e fun x => { x with rx := satInc 32 x.rx } }
    let sec (d : Int) : Rat := (d : Rat) / 65536 / 1000000000
    let win := s.dv P.dvTslockwin * 65536
    let jump := s.dv P.dvTsjump * 65536
    let out (d : Int) : Prop := s.time.fine + d < 0 ∨ 2 ^ 80 ≤ s.time.fine + d
    let heard (t : State) : Prop := t.time.theta = th ∧ t.time.synced = true ∧ t.time.tbi = some tbi.toNat ∧ t.time.syncAt = s.ticks
    let A0 := 2748779069440
    -- the law of R423 with the measurement d, and the counts
    let law (d : Int) (t : State) : Prop :=
      let ts := pow2 (signed 8 (s.dv P.dvTssynclog))
      let wn := 2 * Config.pi * s.dvF P.dvTsbw
      let i := s.time.integ + sec d * ts
      let y := ratClamp (-mkRat 500 1000000) (mkRat 500 1000000) (2 * s.dvF P.dvTsdamp * wn * sec d + wn * wn * i)
      t.time.integ = i ∧ t.time.y = y ∧ t.time.addend = (roundAway ((A0 : Rat) * (1 - y))).toNat
      ∧ (d.natAbs ≤ win →
        t.time.servo = (if s.time.servo = .locking ∧ 16 ≤ s.time.inWin + 1 then .locked else s.time.servo)
        ∧ (t.time.servo = s.time.servo → t.time.inWin = s.time.inWin + 1 ∧ t.time.outWin = 0))
      ∧ (win < d.natAbs →
        t.time.servo = (if s.time.servo = .locked ∧ 16 ≤ s.time.outWin + 1 then .locking else s.time.servo)
        ∧ (t.time.servo = s.time.servo → t.time.outWin = s.time.outWin + 1 ∧ t.time.inWin = 0))
    let refused (d : Int) (t : State) : Prop := t.time.servo = .holdover ∧ t.time.addend = s.time.addend ∧ t.time.y = s.time.y
      ∧ t.time.integ = s.time.integ ∧ t.time.fine = s.time.fine ∧ t.time.okCnt = 0
      ∧ ∃ v w : State, t = (w.timeEvent 1 0 s.gmNow.1).updTime (fun x => { x with tbi := some tbi.toNat })
        ∧ w = ((v.raiseDev 0x0801 1 (min (d.natAbs / 65536 / 1000) (2 ^ 32 - 1))).timeEvent 2 (roundAway ((d : Rat) / 65536)) s.gmNow.1
            |>.updTime (fun x => { x with
                servo := .holdover, since := s.ticks, limited := false, inWin := 0, outWin := 0, okCnt := 0 })
            |>.raiseDev 0x0802 1)
    (s.dv P.dvEthMode e.val = 0 ∨ s.time.slave ≠ some e ∨ s.time.servo = .grandmaster →
      Acts (.syncReceived e gm tbi phase) s fun t => t = u)
    ∧ (s.dv P.dvEthMode e.val ≠ 0 → s.time.slave = some e →
      (s.time.servo = .freeRun → out (-th) → Acts (.syncReceived e gm tbi phase) s fun t => heard t ∧ t.time.servo = .freeRun
        ∧ t.time.fine = s.time.fine
          ∧ t.time.addend = s.time.addend)
      ∧ (s.time.servo = .freeRun → ¬ out (-th) → Acts (.syncReceived e gm tbi phase) s fun t => heard t ∧ t.time.servo = .locking
        ∧ t.time.fine = gmNow
          ∧ t.time.integ = 0 ∧ t.time.y = 0 ∧ t.time.addend = A0 ∧ t.time.since = s.ticks)
      ∧ (s.time.servo = .locking ∨ s.time.servo = .locked →
        (s.time.tbi = none ∨ s.time.tbi = some tbi.toNat →
          (th.natAbs ≤ jump → Acts (.syncReceived e gm tbi phase) s fun t => heard t ∧ law th t ∧ t.time.fine = s.time.fine)
          ∧ (jump < th.natAbs → Acts (.syncReceived e gm tbi phase) s fun t => heard t ∧ refused th t))
        ∧ (∀ b, s.time.tbi = some b → b ≠ tbi.toNat →
          (jump < (th + phase.toInt).natAbs → Acts (.syncReceived e gm tbi phase) s fun t => heard t ∧ refused th t)
          ∧ ((th + phase.toInt).natAbs ≤ jump → out phase.toInt → Acts (.syncReceived e gm tbi phase) s fun t => heard t
            ∧ t.time.servo = s.time.servo
              ∧ t.time.fine = s.time.fine ∧ t.time.addend = s.time.addend)
          ∧ ((th + phase.toInt).natAbs ≤ jump → ¬ out phase.toInt → Acts (.syncReceived e gm tbi phase) s fun t => heard t
            ∧ law (th + phase.toInt) t
              ∧ t.time.fine = s.time.fine + phase.toInt)))
      ∧ (s.time.servo = .holdover → Acts (.syncReceived e gm tbi phase) s fun t => heard t ∧ t.time.fine = s.time.fine
        ∧ t.time.addend = s.time.addend
          ∧ t.time.integ = s.time.integ
          ∧ (jump < th.natAbs → t.time.servo = .holdover ∧ t.time.okCnt = 0)
          ∧ (th.natAbs ≤ jump → s.time.okCnt = 3 → t.time.servo = .locking)
          ∧ (th.natAbs ≤ jump → s.time.okCnt ≠ 3 → t.time.servo = .holdover ∧ t.time.okCnt = s.time.okCnt + 1)))
    -- no Sync, and the limit of `HOLDOVER`
    ∧ (((s.ticks - s.time.syncAt : Nat) : Rat) < 3 * pow2 (signed 8 (s.dv P.dvTssynclog)) * 400000000 → Acts .syncTimeout s fun t => t = s)
    ∧ (3 * pow2 (signed 8 (s.dv P.dvTssynclog)) * 400000000 ≤ ((s.ticks - s.time.syncAt : Nat) : Rat) →
      Acts .syncTimeout s fun t => t.time.synced = false ∧ t.time.fine = s.time.fine ∧ t.time.addend = s.time.addend
        ∧ t.time.integ = s.time.integ
        ∧ t.time.servo = (if s.time.servo = .locking ∨ s.time.servo = .locked then .holdover else s.time.servo))
    ∧ Acts .holdoverLimit s (fun t =>
        t = if s.time.servo = .holdover ∧ s.time.limited = false ∧ s.dv P.dvTsholdmax * 400000000 ≤ s.ticks - s.time.since then
            ((s.updTime fun y => { y with limited := true }).raiseDev 0x0803 1).timeEvent 5 0 s.gmNow.1 else s)
    -- the best master clock algorithm
    ∧ (s.boot.bywayUp = false → Acts (.bmcaSelection sel passive) s fun t => t = s)
    ∧ (s.boot.bywayUp = true → Acts (.bmcaSelection sel passive) s fun t =>
        t.time.fine = s.time.fine ∧ t.time.slave = sel.map (·.1)
        ∧ (∀ k : Fin 4, (t.net.ports[k]).ptp = if s.dv P.dvEthMode k.val = 0 then 3 else if sel.map (·.1) = some k then 9
            else if passive.getLsbD k.val then 7 else 6)
        ∧ (∀ q g r, sel = some (q, g, r) → t.time.gm = g.toNat ∧ t.time.steps = r.toNat ∧ t.time.integ = s.time.integ
            ∧ t.time.servo = (if s.time.servo = .grandmaster then .locking else s.time.servo))
        ∧ (sel = none → s.dv P.dvTsrole = 0 ∨ s.time.servo = .grandmaster → t.time.servo = s.time.servo ∧ t.time.addend = s.time.addend)
        ∧ (sel = none → s.dv P.dvTsrole ≠ 0 → s.time.servo ≠ .grandmaster → t.time.servo = .grandmaster ∧ t.time.addend = A0
            ∧ t.time.y = 0 ∧ t.time.gm = Config.clockIdentity.toNat ∧ t.time.steps = 0))

/-- R6, R414, R417, R418, R421, R422, R428, R429, Tables 13.1, 13.3 to 13.5: line time at a tick, `TIME_GET` and `TIME_STEP`, PPS, and
the PTP events of the Ethernet ports.

That an empty queue is where a tick happens is the model's choice (log 28). -/
def Obligations.LineTime : Prop :=
  ∀ (s : State) (p : Packet) (e : Fin 4) (v : Int) (m : Nat) (tag delay : BitVec 64) (d32 : BitVec 32) (k : Fin 13) (rise owned : Bool)
      (gm : BitVec 64) (a b : BitVec 8) (st ident : BitVec 16) (kind : Fin 3),
    let x := s.net.ports[e]
    let off := s.dv P.dvEthMode e.val = 0
    let put (y : EthPort) : State := s.updNet fun n => { n with ports := upd n.ports e fun _ => y }
    let stamp := tag.toNat * 65536 + 5120 * k.val
    -- the tick, in units of 2⁻⁴⁰ ns
    (s.pending = [] → s.boot.inReset = false → s.time.frac < 2 ^ 16 → s.time.ext < 2 ^ 24 → ∃ t, step s = .next t ∧ t.ticks = s.ticks + 1
      ∧ t.time.ns < 1000000000 ∧ t.time.frac < 2 ^ 16 ∧ t.time.ext < 2 ^ 24 ∧ t.time.addend = s.time.addend
      ∧ (let n (y : TimeUnit) : Nat := ((y.sec * 1000000000 + y.ns) * 2 ^ 16 + y.frac) * 2 ^ 24 + y.ext
        n s.time + s.time.addend < 2 ^ 48 * (1000000000 * 2 ^ 40) → n t.time = n s.time + s.time.addend))
    ∧ (s.pending = [] → s.boot.inReset = true → step s = .next (s.updTg fun t => { t with clk := t.clk + 1 }))
    -- `TIME_GET`
    ∧ (Served p 0x0701 s → p.args = [] → Sends (.timeGet p) p s fun t => ∃ r : List Byte, Replied p 0x0701 s .ok 0 r s t
        ∧ r.length = 44 ∧ u8 r 0 = s.time.servo.code ∧ (s.now < 2 ^ 64 → u64 r 4 = s.now) ∧ (s.time.frac < 65536 → u16 r 12 = s.time.frac)
        ∧ signed 32 (u32 r 16) = satInt (-(2 ^ 31)) (2 ^ 31 - 1) (roundAway ((s.time.theta : Rat) / 65536))
        ∧ u32 r 20 = (ratToFp (s.time.y * 1000000000)).toNat
        ∧ u32 r 24 = min ((s.ticks - s.time.since) / 400000000) (2 ^ 32 - 1)
        ∧ (s.time.servo = .freeRun → u16 r 2 = 0 ∧ u64 r 28 = 0)
        ∧ (s.time.servo = .grandmaster → u16 r 2 = 0 ∧ u64 r 28 = Config.clockIdentity.toNat)
        ∧ (s.time.servo ≠ .freeRun → s.time.servo ≠ .grandmaster → s.time.gm < 2 ^ 64 → u64 r 28 = s.time.gm))
    -- `TIME_STEP`
    ∧ (Served p 0x0702 s → p.args = leBytes 1 m ++ zeros 3 ++ leInt 8 v → m < 256 → -(2 ^ 63) ≤ v → v < 2 ^ 63 →
      let abs : Int := if v < 0 then v + 2 ^ 64 else v
      let whole (d : Int) : Prop := 0 ≤ s.time.fine + d * 65536 ∧ s.time.fine + d * 65536 < 2 ^ 80
      let done (d : Int) (t : State) : Prop := ∃ u : State, Stepped (d * 65536) s u
        ∧ Replied p 0x0702 s .ok 0 (leInt 8 (satInt (-(2 ^ 63)) (2 ^ 63 - 1) d) ++ leBytes 8 u.now) u t
      let d := if m = 0 then v else abs - s.now
      let free := s.time.servo = .freeRun ∨ s.time.servo = .holdover ∨ s.time.servo = .grandmaster
      (2 < m ∨ (m = 0 ∧ (v < -(2 ^ 62) ∨ 2 ^ 62 < v)) ∨ (m = 2 ∧ v ≠ 0) → Sends (.timeStep p) p s (Refused p 0x0702 s .range 0))
      ∧ (m = 0 ∨ m = 1 → (m = 0 → -(2 ^ 62) ≤ v ∧ v ≤ 2 ^ 62) →
        (¬ whole d → Sends (.timeStep p) p s (Refused p 0x0702 s .range 0x0101))
        ∧ (whole d → ¬ free → Sends (.timeStep p) p s (Refused p 0x0702 s .state 0x0101))
        ∧ (whole d → s.time.servo = .freeRun ∨ s.time.servo = .holdover → Sends (.timeStep p) p s (done d))
        ∧ (whole d → s.time.servo = .grandmaster → Sends (.timeStep p) p s fun t => ∃ u : State,
            Stepped (d * 65536) (s.updTime fun y => { y with ownTbi := (y.ownTbi + 1) % 65536, ownPhase := d }) u
            ∧ Replied p 0x0702 s .ok 0 (leInt 8 (satInt (-(2 ^ 63)) (2 ^ 63 - 1) d) ++ leBytes 8 u.now) u t))
      ∧ (m = 2 → v = 0 →
        let th := roundAway ((s.time.theta : Rat) / 65536)
        (s.time.servo ≠ .holdover ∨ s.time.synced = false → Sends (.timeStep p) p s (Refused p 0x0702 s .state 0x0102))
        ∧ (s.time.servo = .holdover → s.time.synced = true → ¬ whole (-th) →
            Sends (.timeStep p) p s (Refused p 0x0702 s .range 0x0101))
        ∧ (s.time.servo = .holdover → s.time.synced = true → whole (-th) → Sends (.timeStep p) p s fun t => ∃ u w : State,
            Stepped (-th * 65536) s w ∧ u = (w.updTime fun y => { y with
              servo := .locking, since := s.ticks, limited := false, inWin := 0, outWin := 0, okCnt := 0 }).timeEvent 1 0 s.gmNow.1
            ∧ Replied p 0x0702 s .ok 0 (leInt 8 (satInt (-(2 ^ 63)) (2 ^ 63 - 1) (-th)) ++ leBytes 8 u.now) u t)))
    -- PPS
    ∧ Acts (.ppsOutSecond rise) s (fun t =>
        t = if (rise = true ↔ s.time.ns < 10000000) then s.updTime fun y => { y with pps := rise } else s)
    ∧ (¬ (s.time.servo = .grandmaster ∧ s.dv P.dvTsppsin = 1) → Acts (.ppsInEdge tag k) s fun t =>
        t = s.updTime fun y => { y with ppsIn := stamp })
    ∧ (s.time.servo = .grandmaster → s.dv P.dvTsppsin = 1 → Acts (.ppsInEdge tag k) s fun t => ∃ n θ : Int,
        (stamp : Int) = n * 65536000000000 + θ ∧ -32768000000000 ≤ θ ∧ θ < 32768000000000
        ∧ t.time.theta = θ ∧ t.time.ppsIn = stamp ∧ t.time.fine = s.time.fine
        ∧ t.time.integ = s.time.integ + (θ : Rat) / 65536 / 1000000000 * pow2 (signed 8 (s.dv P.dvTssynclog)))
    -- PTP events
    ∧ (off ∨ s.boot.bywayUp = false → Acts (.announceReceived e gm a b st) s fun t => t = s)
    ∧ (¬ off → s.boot.bywayUp = true → Acts (.announceReceived e gm a b st) s fun t =>
        t = put { x with rx := satInc 32 x.rx, announce := some (gm.toNat, a.toNat, b.toNat, st.toNat) })
    ∧ Acts (.pdelayExchange e d32) s (fun t =>
        t = if off then s else put { x with delay := d32.toNat, asCapable := decide (d32.toNat ≤ s.dv P.dvTsneighthr) })
    ∧ Acts (.syncTransmit e) s (fun t =>
        t = if off ∨ x.ptp ≠ 6 ∨ bit (s.openClasses e) 6 = false then s else put { x with tx := satInc 32 x.tx })
    -- which gates are open (the entries of a list last for their time, the last one for the rest of the cycle)
    ∧ (let at_ : Rat := ((s.now % s.tj : Nat) : Rat)
      let w : Rat := mkRat (s.dv P.dvJalutwin) 100 * (s.tj : Rat)
      let ring := s.dv P.dvEthUse e.val = 1 ∨ s.dv P.dvEthUse e.val = 2
      let g (k : Nat) : Nat := s.dv P.dvEthGcl e.val / 2 ^ (32 * k) % 2 ^ 32
      let x := if ring then at_ - w else at_
      (ring → at_ < w → s.openClasses e = 128)
      ∧ ((ring → w ≤ at_) → (g 0 = 0 → s.openClasses e = 0)
        ∧ (g 0 ≠ 0 → g 0 < 256 ∨ x < (g 0 / 256 : Nat) → s.openClasses e = g 0 % 256)
        ∧ (256 ≤ g 0 → ((g 0 / 256 : Nat) : Rat) ≤ x → g 1 ≠ 0 → g 1 < 256 ∨ x < (g 0 / 256 + g 1 / 256 : Nat) →
            s.openClasses e = g 1 % 256)))
    ∧ (off ∨ s.dv P.dvEthUse e.val = 0 → Acts (.ptpForeignForward e tag delay) s fun t => t = s)
    ∧ (¬ off → s.dv P.dvEthUse e.val ≠ 0 → ∀ f : Fin 4, f ≠ e → f.val / 2 = e.val / 2 → Acts (.ptpForeignForward e tag delay) s fun t =>
        t = (put { x with rx := satInc 32 x.rx }).updNet fun n => { n with ports := upd n.ports f fun y =>
          { y with tx := satInc 32 y.tx, corr := (tag.toNat + delay.toNat) % 2 ^ 64 } })
    ∧ (let r : StampRec := ⟨ident.toNat, kind.val + 1, 5120 * k.val, tag.toNat⟩
      let y : EthPort := { x with tx := satInc 32 x.tx }
      Acts (.transmitStamp e ident kind tag k owned) s fun t =>
        (off → t = s) ∧ (¬ off → owned = true → t = put { y with desc := some r })
        ∧ (¬ off → owned = false → x.tsq.length < 16 → t = put { y with tsq := x.tsq ++ [r] })
        ∧ (¬ off → owned = false → 16 ≤ x.tsq.length → t =
            (put { y with tsqOvf := true, tsqLost := satInc 32 x.tsqLost }).raise
              { code := 0x080A, cls := 1, scope := .eth, unit := e.val, detail := e.val }))

/-- R430, R432 to R435, R437, R439, Tables 13.7 to 13.9, 13.12: the Ethernet ports, and a Jalut cycle at leader and member: what is
sent, taken, lost, and how a member index changes its state. -/
def Obligations.JalutCycles : Prop :=
  ∀ (s : State) (e : Fin 4) (q : Fin 2) (m : Fin 15) (d ver : Fin 2) (up ok tagged full valid toUs : Bool) (src : BitVec 48)
      (seq len : BitVec 16) (n tj : BitVec 32) (sps : List NetSp) (imgs : List MImg) (reps : List NetRep) (locked same : BitVec 15),
    let x := s.net.ports[e]
    let put (y : EthPort) : State := s.updNet fun w => { w with ports := upd w.ports e fun _ => y }
    let off := s.dv P.dvEthMode e.val = 0
    let express := s.dv P.dvEthPreempt e.val ≠ 0
    let mem := s.net.members[m]
    let ring (use : Nat) (q : Fin 2) : Prop := (∀ f : Fin 4, f.val / 2 = q.val → s.dv P.dvEthMode f.val ≠ 0 ∧ s.dv P.dvEthUse f.val = use)
      ∧ ∀ r : Fin 2, r < q → ¬ ∀ f : Fin 4, f.val / 2 = r.val → s.dv P.dvEthMode f.val ≠ 0 ∧ s.dv P.dvEthUse f.val = use
    let noRing (use : Nat) : Prop := ∀ r : Fin 2, ¬ ∀ f : Fin 4, f.val / 2 = r.val → s.dv P.dvEthMode f.val ≠ 0
      ∧ s.dv P.dvEthUse f.val = use
    -- links and preemption
    (off ∨ s.boot.bywayUp = false ∨ x.link = up → Acts (.mdioLinkPoll e up) s fun t => t = s)
    ∧ (¬ off → s.boot.bywayUp = true → x.link ≠ up → Acts (.mdioLinkPoll e up) s fun t =>
        let u := put { x with link := up, change := s.now, preempt := if up = true ∧ express then .verifying else .off }
        t = if up then u else u.raise { code := 0x0804, cls := 1, scope := .eth, unit := e.val, detail := e.val })
    ∧ Acts (.preemptionVerify e ok) s (fun t =>
        t = if x.link = true ∧ express then put { x with preempt := if ok then .active else .failed } else s)
    -- frames, and duplicates on a ring
    ∧ (off ∨ 9018 < len.toNat → Acts (.frameReceived e src seq len tagged ok toUs) s fun t => t = s)
    ∧ (¬ off → len.toNat ≤ 9018 → ∀ f : Fin 4, f.val / 2 = e.val / 2 → f ≠ e →
      let y : EthPort := { x with rx := satInc 32 x.rx }
      let key := (e.val / 2, src.toNat)
      let win := ((s.net.hsr.find? fun h => h.1 == key).map (·.2)).getD []
      let mac (g : Fin 4) : Nat := (Config.macBase.toNat + g.val) % 2 ^ 48
      let own := src.toNat = mac e ∨ src.toNat = mac f
      (ok = false → Acts (.frameReceived e src seq len tagged ok toUs) s fun t => t = put { y with fcs := satInc 32 x.fcs })
      ∧ (ok = true → tagged = false ∨ s.dv P.dvEthUse e.val = 0 ∨ own →
        Acts (.frameReceived e src seq len tagged ok toUs) s fun t => t = put y)
      ∧ (ok = true → tagged = true → s.dv P.dvEthUse e.val ≠ 0 → ¬ own →
        (seq.toNat ∈ win → Acts (.frameReceived e src seq len tagged ok toUs) s fun t => t = put { y with dup := satInc 32 x.dup })
        ∧ (seq.toNat ∉ win → Acts (.frameReceived e src seq len tagged ok toUs) s fun t => t = (put y).updNet fun w =>
            let ports := if toUs then w.ports else upd w.ports f fun z => { z with tx := satInc 32 z.tx }
            { w with ports := ports, hsr := (key, (seq.toNat :: win).take 256) :: w.hsr.filter fun h => h.1 != key })))
    -- the cycle starts
    ∧ Acts .jalutCycleStart s (fun t =>
        t.net.cycle = s.now / s.tj % 2 ^ 32 ∧ t.net.relay = []
        ∧ (noRing 2 → s.net.index = 0 → t = (s.updNet fun w =>
            { w with cycle := s.now / s.tj % 2 ^ 32, relay := [] }).strobe 8 0)
        ∧ (∀ r, ring 2 r →
          (u8 t.net.frame 1 = 1 ∧ u32 t.net.frame 4 = t.net.cycle ∧ u16 t.net.frame 8 = r.val
            ∧ (t.net.frame.length < 65536 → u16 t.net.frame 2 = t.net.frame.length))
          ∧ ((t.net.members[m]).got = false ∧ (mem.st ≠ .member → (t.net.members[m]).down = [])
            ∧ (mem.st = .member → s.net.publish = [] → s.net.relay = [] → ∀ i : Fin 512,
              ((allAxes.filter fun j => s.overJalut j && s.netMember j == m.val + 1) = [i] →
                (t.net.members[m]).down = NetSp.bytes (s.netSetpoint i ((s.now / s.tj + 1) * s.tj)))))
          ∧ ∀ f : Fin 4, f.val / 2 = r.val → (t.net.ports[f]).tx = satInc 32 (s.net.ports[f]).tx)
        ∧ (s.net.index ≠ 0 → t.net.written = false ∧ (s.net.owned = [] → s.net.publish = [] → t.net.up =
            (s.net.relay.filter fun x => x.1 != 0).flatMap fun x => MImg.bytes x.2)))
    -- the leader's frame passes a member
    ∧ (noRing 1 → Acts (.jalutFramePass m d ver n tj ok full sps imgs) s fun t => t = s)
    ∧ (ring 1 q →
      let a : Fin 4 := ⟨2 * q.val + d.val, by omega⟩
      let b : Fin 4 := ⟨2 * q.val + (1 - d.val), by omega⟩
      let y := s.net.ports[a]
      let seen (w : Net) : Net := { w with ports := upd w.ports a fun z => { z with rx := satInc 32 z.rx, got := true } }
      -- the frame goes on while it passes, and with an inverted FCS when it is wrong
      let passed (w : Net) : Net :=
        { seen w with ports := upd (seen w).ports b fun z => { z with tx := satInc 32 z.tx, inverted := !ok } }
      let taken (w : Net) : Net :=
        { passed w with index := m.val + 1, got := true, missed := 0, cycle := n.toNat, tj := tj.toNat, written := true,
                        version := upd w.version q fun _ => ver.val + 1 }
      (ok = false → Acts (.jalutFramePass m d ver n tj ok full sps imgs) s fun t => t = s.updNet fun w =>
        { passed w with ports := upd (passed w).ports a fun z => { z with fcs := satInc 32 y.fcs } })
      ∧ (ok = true → s.net.got = true → Acts (.jalutFramePass m d ver n tj ok full sps imgs) s fun t => t = s.updNet passed)
      ∧ (ok = true → s.net.got = false → full = false → s.host.leader.isSome = true →
          Acts (.jalutFramePass m d ver n tj ok full sps imgs) s fun t => t = s.updNet taken)
      ∧ (ok = true → s.net.got = false → full = true → s.host.leader.isSome = true →
          Acts (.jalutFramePass m d ver n tj ok full sps imgs) s fun t =>
            t = imgs.foldl (fun u g => u.takeImage 0 g) (sps.foldl State.ownSetpoint (s.updNet taken))))
    -- an upstream section reaches the leader
    ∧ (noRing 2 → Acts (.jalutUpstreamArrival m d valid reps imgs) s fun t => t = s)
    ∧ (ring 2 q →
      let a : Fin 4 := ⟨2 * q.val + d.val, by omega⟩
      let late := mkRat (s.dv P.dvJalutwin) 100 * (s.tj : Rat) < ((s.now % s.tj : Nat) : Rat)
      let seen (g : EthPort → EthPort) : State := s.updNet fun w =>
        { w with ports := upd w.ports a fun z => g { z with rx := satInc 32 z.rx, got := true } }
      (valid = false → Acts (.jalutUpstreamArrival m d valid reps imgs) s fun t =>
        t = seen fun z => { z with fcs := satInc 32 z.fcs })
      ∧ (valid = true → late → Acts (.jalutUpstreamArrival m d valid reps imgs) s fun t =>
        t = seen fun z => { z with overrun := satInc 32 z.overrun })
      ∧ (valid = true → ¬ late → mem.got = true ∨ mem.st = .absent →
          Acts (.jalutUpstreamArrival m d valid reps imgs) s fun t => t = seen id)
      ∧ (valid = true → ¬ late → mem.got = false → mem.st ≠ .absent →
        let u := (seen id).updNet fun w => { w with members := upd w.members m fun z => { z with got := true } }
        (mem.st ≠ .member → Acts (.jalutUpstreamArrival m d valid reps imgs) s fun t => t = u)
        ∧ (mem.st = .member → reps = [] → Acts (.jalutUpstreamArrival m d valid reps imgs) s fun t =>
            t = imgs.foldl (fun u g => u.takeImage (m.val + 1) g) u)
        ∧ (mem.st = .member → imgs = [] → ∀ (r : NetRep) (i : Fin 512), reps = [r] →
            (allAxes.filter fun j => s.overJalut j && s.netMember j == m.val + 1) = [i] →
            Acts (.jalutUpstreamArrival m d valid reps imgs) s fun t =>
              t = if bits (s.ax P.axNetaddr i) 24 16 = r.axis.toNat then u.netReport i r else u)))
    -- the cycle ends
    ∧ (noRing 1 → noRing 2 → Acts (.jalutCycleEnd locked same) s fun t => t = s)
    ∧ (ring 1 q → noRing 2 → s.net.index ≠ 0 → Acts (.jalutCycleEnd locked same) s fun t =>
        (∀ f : Fin 4, f.val / 2 = q.val → (t.net.ports[f]).got = false
            ∧ (t.net.ports[f]).silent = (if (s.net.ports[f]).got then 0 else (s.net.ports[f]).silent + 1))
        ∧ t.net.got = false ∧ t.net.missed = (if s.net.got then s.net.missed else s.net.missed + 1))
    ∧ (ring 2 q → noRing 1 → Acts (.jalutCycleEnd locked same) s fun t =>
        let y := t.net.members[m]
        let okRun := if mem.got then mem.okRun + 1 else 0
        let lost := if mem.got then 0 else mem.lostRun + 1
        let lk := locked.getLsbD m.val = true
        y.got = false
        ∧ (mem.st = .absent → y.st = .absent)
        ∧ (mem.st = .joining → y.st = if 16 ≤ okRun ∧ lk ∧ mem.stale = false then .member else .joining)
        ∧ (mem.st = .member → y.st = if s.dv P.dvJalutloss ≤ lost then .lost else .member)
        ∧ (mem.st = .lost → y.st = if okRun < 16 then .lost else if same.getLsbD m.val = false then .joining
            else if lk then .member else .lost)
        ∧ (y.st = mem.st → mem.st ≠ .absent → y.okRun = okRun ∧ y.lostRun = lost))
    ∧ (s.net.index = 0 ∨ s.net.missed < s.dv P.dvJalutloss → Acts .leaderLossCount s fun t => t = s)
    ∧ (s.net.index ≠ 0 → s.dv P.dvJalutloss ≤ s.net.missed → ∀ i : Fin 512, (allAxes.filter fun j => s.bound j) = [i] →
        Acts .leaderLossCount s fun t => t = if s.activeFault 0x0808 .axis 0 = true ∧ s.activeAxisFault 0x0808 i = true then s
          else s.raiseAxis i 0x0808 (s.dv P.dvJnlossclass))

/-- R435, R438, R439, Tables 13.10 to 13.13: `NET_STATUS`, discovery, forming and dissolving a junction, and packets in fragments. -/
def Obligations.Junctions : Prop :=
  ∀ (s : State) (p : Packet) (n : Nat) (e : Fin 4) (q : Fin 2) (act : Nat) (serials : List Nat) (f : Found) (pos : BitVec 8) (r : CmdRef)
      (ms : List Nat) (src : Fin 16) (ident : BitVec 16) (idx cnt : BitVec 8) (data : List Byte) (ctl : Bool) (m : Fin 15),
    let x := s.net.ports[e]
    let ring (use : Nat) (q : Fin 2) : Prop := ∀ f : Fin 4, f.val / 2 = q.val → s.dv P.dvEthMode f.val ≠ 0 ∧ s.dv P.dvEthUse f.val = use
    let enabled := ∃ i : Fin 512, (s.axes[i]).st = .enabledIdle ∨ (s.axes[i]).st = .moving ∨ (s.axes[i]).st = .homing
      ∨ (s.axes[i]).st = .stopping
    let inState (st : MemberState) : Nat := ((List.finRange 15).map fun m =>
      if (s.net.members[m]).st = st then 2 ^ (m.val + 1) else 0).sum
    let is (st : MemberState) (k : Nat) : Prop := ∃ m : Fin 15, k = m.val + 1 ∧ (s.net.members[m]).st = st
    -- `NET_STATUS`
    (Served p 0x0703 s → p.args = leBytes 1 n ++ zeros 3 → n < 256 →
      (4 ≤ n → Sends (.netStatus p) p s (Refused p 0x0703 s .range 0x0101))
      ∧ (n = e.val → Sends (.netStatus p) p s fun t => ∃ d : List Byte, Replied p 0x0703 s .ok 0 d s t ∧ d.length = 60
          ∧ u8 d 0 = e.val ∧ u8 d 2 = b2n x.link ∧ u8 d 5 = b2n x.asCapable
          ∧ (s.dv P.dvEthMode e.val < 256 → u8 d 1 = s.dv P.dvEthMode e.val)
          ∧ (s.dv P.dvEthUse e.val < 256 → u8 d 3 = s.dv P.dvEthUse e.val)
          ∧ (x.delay < 2 ^ 32 → u32 d 8 = x.delay) ∧ (x.rx < 2 ^ 32 → u32 d 12 = x.rx) ∧ (x.tx < 2 ^ 32 → u32 d 16 = x.tx)
          ∧ (x.fcs < 2 ^ 32 → u32 d 20 = x.fcs) ∧ (x.dup < 2 ^ 32 → u32 d 24 = x.dup) ∧ (x.lost < 2 ^ 32 → u32 d 28 = x.lost)
          ∧ (x.overrun < 2 ^ 32 → u32 d 32 = x.overrun) ∧ (x.tsqLost < 2 ^ 32 → u32 d 36 = x.tsqLost)
          ∧ u8 d 40 = (match x.preempt with | .off => 0 | .verifying => 1 | .active => 2 | .failed => 3)
          ∧ u16 d 44 = inState .member ∧ u16 d 46 = inState .lost ∧ (x.change < 2 ^ 64 → u64 d 52 = x.change)))
    -- discovery
    ∧ ((∀ r, ¬ ring 1 r) → Acts (.discoveryFrame (.ask pos)) s fun t => t = s)
    ∧ (ring 1 q → Acts (.discoveryFrame (.ask pos)) s fun t => ∃ a : Found, t = s.updNet (fun w => { w with answer := some a })
        ∧ a.serial = Config.serial ∧ a.pos = pos ∧ a.lo = 1 ∧ a.hi = 3
        ∧ a.jalut = (if s.dv P.dvJalutvermax = 1 then 2 else 6) ∧ a.state = (if s.net.index = 0 then 0 else 2)
        ∧ (s.net.index < 256 → a.index.toNat = s.net.index) ∧ (a.enabled = true ↔ enabled))
    ∧ ((∀ r, ¬ ring 2 r) → Acts (.discoveryFrame (.reply f)) s fun t => t = s)
    ∧ (ring 2 q → Acts (.discoveryFrame (.reply f)) s fun t => t = s.updNet fun w =>
        { w with found := (w.found.filter fun g => g.serial != f.serial) ++ [f] })
    ∧ (s.net.discover = [] → Acts .discoverReplyTimer s fun t => t = s)
    ∧ (∀ t0 rest, s.net.discover = (r, t0) :: rest → 5 * (s.ticks - t0) < 200000000 → Acts .discoverReplyTimer s fun t => t = s)
    ∧ (∀ t0 rest, s.net.discover = (r, t0) :: rest → 200000000 ≤ 5 * (s.ticks - t0) → Acts .discoverReplyTimer s fun t =>
        t = ((s.updNet fun w => { w with discover := rest }).complete r .ok 0 s.now
          (leBytes 2 s.net.found.length ++ zeros 2 ++ s.net.found.flatMap fun f =>
            leBytes 8 f.serial.toNat ++ [f.pos, f.jalut, f.lo, f.hi, f.state, f.index] ++ zeros 2 ++ leBytes 4 f.byway.toNat
              ++ leBytes 2 f.mask.toNat ++ zeros 2)).unblock r.src)
    -- `JUNCTION_FORM`
    ∧ (Served p 0x0706 s → act < 256 →
      let named := serials.filter (· != 0)
      let devs := named.filterMap fun k => s.net.found.find? fun g => g.serial.toNat == k
      (p.args = leBytes 1 act ++ zeros 3 → act ≠ 2 →
        (act = 0 ∨ 3 < act → Sends (.junctionForm p) p s (Refused p 0x0706 s .range 0))
        ∧ (act = 1 → (∀ r, ¬ ring 2 r) → Sends (.junctionForm p) p s (Refused p 0x0706 s .state 0x0104))
        ∧ (act = 3 → ¬ enabled → Config.treeSize [] ≤ 4096 → s.cfg.draft = none → ring 2 q → Sends (.junctionForm p) p s fun t =>
            ∃ u : State, Ok p 0x0706 s u t ∧ (u.net.members[m]) = {}
              ∧ ∀ g, g ∈ u.net.fwd ↔ g ∈ s.net.fwd ∧ ¬ is .member g.member)
        ∧ (act = 3 → Config.treeSize [] ≤ 4096 → enabled → Sends (.junctionForm p) p s (Refused p 0x0706 s .state 0x0101)))
      ∧ (p.args = leBytes 1 2 ++ zeros 3 ++ serials.flatMap (leBytes 8) → serials.length = 15 → (∀ k ∈ serials, k < 2 ^ 64) →
        (¬ named.Nodup → Sends (.junctionForm p) p s (Refused p 0x0706 s .range 0x0101))
        ∧ (named.Nodup → (∃ k ∈ named, ∀ g ∈ s.net.found, g.serial.toNat ≠ k) →
            Sends (.junctionForm p) p s (Refused p 0x0706 s .range 0x0102))
        ∧ (named.Nodup → (∀ k ∈ named, ∃ g ∈ s.net.found, g.serial.toNat = k) →
            (∀ g ∈ devs, Config.junctionLevel + 1 + Config.levelsBelow g.serial ≤ 8) →
            Config.treeSize (devs.map (·.serial)) ≤ 4096 →
          (enabled ∨ (∃ g ∈ devs, g.enabled = true) → Sends (.junctionForm p) p s (Refused p 0x0706 s .state 0x0101))
          ∧ (¬ enabled → (∀ g ∈ devs, g.enabled = false) →
            (s.cfg.draft ≠ none → Sends (.junctionForm p) p s (Refused p 0x0706 s .state 0x0102))
            ∧ (s.cfg.draft = none → (∃ g ∈ devs, g.state = 1) → Sends (.junctionForm p) p s (Refused p 0x0706 s .state 0x0103))
            ∧ (s.cfg.draft = none → (∀ g ∈ devs, g.state ≠ 1) → (∀ r, ¬ ring 2 r) →
                Sends (.junctionForm p) p s (Refused p 0x0706 s .state 0x0104))
            ∧ (s.cfg.draft = none → (∀ g ∈ devs, g.state ≠ 1) → ring 2 q →
                (∀ g ∈ devs, g.jalut.toNat &&& (if s.dv P.dvJalutvermax = 1 then 2 else 6) ≠ 0) →
                Sends (.junctionForm p) p s fun t => ∃ u : State, Accepted p 0x0706 s u t
                  ∧ u.net.form = s.net.form ++ [(s.refOf (asOp p 0x0706), ((List.range 15).filter fun k => serials.getD k 0 != 0).map (· + 1), s.ticks)]
                  ∧ (serials.getD m.val 0 = 0 → (u.net.members[m]) = {})
                  ∧ (∀ k, serials.getD m.val 0 = k → k ≠ 0 → (s.net.members[m]).st ≠ .absent → (s.net.members[m]).serial = k →
                      (u.net.members[m]) = (s.net.members[m]))
                  ∧ (∀ k, serials.getD m.val 0 = k → k ≠ 0 → (s.net.members[m]).st = .absent ∨ (s.net.members[m]).serial ≠ k →
                      (u.net.members[m]).st = .joining ∧ (u.net.members[m]).serial = k))))))
    ∧ (Served p 0x0706 s → p.args = leBytes 1 1 ++ zeros 3 → ring 2 q → Sends (.junctionForm p) p s fun t => ∃ h : HRes,
        h.later = true ∧ h.st = .accepted
        ∧ h.s = (s.updNet fun w => { w with discover := w.discover ++ [(s.refOf (asOp p 0x0706), s.ticks)], found := [] })
        ∧ t = (s.replyWith (asOp p 0x0706) h false).noteDevstat)
    -- 2 s after a `FORM`
    ∧ (s.net.form = [] → Acts .formTimeout s fun t => t = s)
    ∧ (∀ t0 rest, s.net.form = (r, ms, t0) :: rest → 5 * (s.ticks - t0) < 4000000000 → Acts .formTimeout s fun t => t = s)
    ∧ (∀ t0 rest k a b, s.net.form = (r, ms, t0) :: rest → 4000000000 ≤ 5 * (s.ticks - t0) → ms = a ++ k :: b → (∀ j ∈ a, is .member j) →
      ¬ is .member k →
        Acts .formTimeout s fun t => t = (s.updNet fun w => { w with form := rest }).complete r .timeout k s.now)
    ∧ (∀ t0 rest, s.net.form = (r, ms, t0) :: rest → 4000000000 ≤ 5 * (s.ticks - t0) → (∀ j ∈ ms, is .member j) →
      Acts .formTimeout s fun t =>
        t = (s.updNet fun w => { w with form := rest }).complete r .done 0 s.now (leBytes 2 (inState .member) ++ zeros 2))
    -- packets in fragments
    ∧ (let drop := s.serving = false ∨ cnt.toNat ≤ idx.toNat ∨ 1468 < data.length ∨ (src ≠ 0 ∧ ¬ is .member src.val)
      let old := s.net.frags.find? fun g => g.src == src.val && g.ident == ident.toNat && g.count == cnt.toNat
      let others := s.net.frags.filter fun g => !(g.src == src.val && g.ident == ident.toNat)
      let parts := (idx.toNat, data) :: ((old.map (·.parts)).getD []).filter fun g => g.1 != idx.toNat
      (drop → Acts (.jalutPacketFragment src ident idx cnt data ctl) s fun t => t = s)
      ∧ (¬ drop → parts.length ≠ cnt.toNat → Acts (.jalutPacketFragment src ident idx cnt data ctl) s fun t =>
          t = s.updNet fun w => { w with frags := others ++ [⟨src.val, ident.toNat, cnt.toNat, parts⟩] })
      ∧ (¬ drop → parts.length = cnt.toNat → Acts (.jalutPacketFragment src ident idx cnt data ctl) s fun t =>
          let b := (List.range cnt.toNat).flatMap fun k => ((parts.find? fun g => g.1 == k).map (·.2)).getD []
          let u := s.updNet fun w => { w with frags := others }
          (src ≠ 0 → t = u.relay src.val (parsePacket .leader b true))
          ∧ (src = 0 → s.host.leader = none → t = u)
          ∧ (src = 0 → ∀ y, s.host.leader = some y → let v := u.setSession .leader (some { y with version := u8 b 2, control := ctl })
              (s.blocked .leader = false → t = v.receive .leader b)
              ∧ (s.blocked .leader = true → t = { v with host := { v.host with behind := v.host.behind ++ [.bytes .leader b] } }))))

/-! ### CAN (chapter 14) -/

/-- R448, R451 to R455, R462, R463, R465, Tables 14.4, 14.7, 14.10, 14.19: frames on a CAN bus: reception and filing, rate detection, the
node states, and what happens to the device's own frames when they succeed, lose arbitration or break. -/
def Obligations.CanBus : Prop :=
  ∀ (s : State) (c : Fin 4) (f : CanFrame) (sof : BitVec 64) (n at_ : Nat) (tx : CanTx) (w : Fin 32) (q : Fin 4) (k : Fin 32) (r : CmdRef)
      (before after : List CanTx) (data : Bool) (delay : BitVec 16),
    let x := s.can[c]
    let put (y : Can) : State := s.updCan c fun _ => y
    let fault (u : State) (code cls : Nat) : State := u.raise { code := code, cls := cls, scope := .can, unit := c.val, detail := c.val }
    let start := sof.toNat / 5 * 5
    let idle := x.st = .off ∨ x.st = .integrating ∨ x.st = .busOff ∨ x.st = .recovering
    let active := x.st = .errorActive ∨ x.st = .errorPassive
    let calm := active ∧ x.rec_ ≤ 127 ∧ x.tec ≤ 255 ∧ (x.st = .errorActive → x.tec ≤ 127)
    -- the state after the counters have changed, where no confinement follows
    let settle (y : Can) : Can := { y with st := if y.st = .errorPassive ∧ y.tec ≤ 127 ∧ y.rec_ ≤ 127 then .errorActive else y.st }
    -- reception
    let ext := b2n (f.ide && f.fmt != 3)
    let word (k : Nat) : Nat := s.dv P.dvCanFilter c.val / 2 ^ (32 * k) % 2 ^ 32
    let hit (k : Nat) : Prop := (word (2 * k + 1)).testBit 30 = true ∧ b2n ((word (2 * k)).testBit 29) = ext
      ∧ ∀ b < 29, (word (2 * k + 1)).testBit b = true → f.id.toNat.testBit b = (word (2 * k)).testBit b
    let noAxis := ∀ i : Fin 512, ¬ (2 ≤ f.fmt.val ∧ ext = 0 ∧ f.data.length = 32 ∧ s.overCan i = true
      ∧ s.ax P.axNetaddr i % 4 = c.val ∧ s.ax P.axNetaddr i / 2 ^ 8 % 2 ^ 11 = f.id.toNat % 2 ^ 11)
    let taken := 1 ≤ f.fmt.val ∧ f.fmt.val ≤ s.dv P.dvCanFmt c.val
    let rx := x.rx[q]
    let used := (rx.entries.map (·.2.length)).sum
    let size := 24 + (f.data.length + 3) / 4 * 4
    let owns := s.dv P.dvCanRxbytes c.val / 2 ^ (32 * q.val) % 2 ^ 32
    let entry (b : List Byte) : Prop := b.length = size ∧ u64 b 0 = start ∧ u32 b 8 = f.id.toNat + 2 ^ 29 * ext + 2 ^ 30 * b2n f.rtr
      ∧ u8 b 12 = f.fmt.val ∧ u8 b 13 = b2n f.brs + 2 * b2n f.esi + 4 * b2n (f.sec && f.fmt == 3) ∧ u16 b 14 = f.data.length
      ∧ (u8 b 16 = if f.fmt = 3 then f.sdt.toNat else 0) ∧ (u8 b 17 = if f.fmt = 3 then f.vcid.toNat else 0) ∧ u16 b 18 = rx.next
      ∧ (u32 b 20 = if f.fmt = 3 then f.af.toNat else 0) ∧ (b.drop 24).take f.data.length = f.data
    let file (y : Can) (b : List Byte) : Can :=
      { y with rx := upd y.rx q fun z => { z with entries := z.entries ++ [(z.next, b)], next := (z.next + 1) % 65536, wrote := z.wrote + b.length } }
    let drop (y : Can) : Can := { y with rx := upd y.rx q fun z => { z with lost := satInc 32 z.lost } }
    let frameEnd (P : State → Prop) : Prop := x.waitIdle = false → Acts (.canFrameEnd c f sof) s P
    -- behind a protocol exception, which a format that is not enabled brings about, the controller waits for bus idle
    (x.waitIdle = true ∨ f.fmt = 0 → Acts (.canFrameEnd c f sof) s fun t => t = s)
    ∧ (s.dv P.dvCanFmt c.val < f.fmt.val → frameEnd fun t => t = put { x with waitIdle := decide ¬ idle })
    ∧ (taken → idle → frameEnd fun t => t = s)
    ∧ (taken → noAxis → (∀ k < 32, ¬ hit k) →
      (x.st = .listen → frameEnd fun t => t = s)
      ∧ (calm → frameEnd fun t => t = put (settle { x with rec_ := x.rec_ - 1 }))
      ∧ (x.st = .rateDetect → x.good = 0 → frameEnd fun t => t = put { x with good := 1 })
      ∧ (x.st = .rateDetect → 0 < x.good → frameEnd fun t => t = put { x with st := .integrating, abrSel := x.cand, good := 0 }))
    ∧ (taken → noAxis → hit k.val → (∀ j < k.val, ¬ hit j) → word (2 * k.val) / 2 ^ 30 = q.val → rx.next < 65536 → f.data.length < 65536 →
      (used + size ≤ owns →
        (x.st = .listen → frameEnd fun t => ∃ b, entry b ∧ t = put (file x b))
        ∧ (calm → frameEnd fun t => ∃ b, entry b ∧ t = put (file (settle { x with rec_ := x.rec_ - 1 }) b)))
      ∧ (owns < used + size →
        (x.st = .listen → frameEnd fun t => if s.mayRaise 0x0904 c.val = true then
            t = ((put (drop x)).noteRaise 0x0904 c.val).raise
              { code := 0x0904, cls := 1, scope := .can, unit := c.val, detail := c.val * 256 + q.val }
          else t = put (drop x))
        ∧ (calm → s.mayRaise 0x0904 c.val = false → frameEnd fun t => t = put (drop (settle { x with rec_ := x.rec_ - 1 })))))
    -- 11 recessive bits
    ∧ Acts (.canRecessiveRun c) s (fun t => let x : Can := { x with waitIdle := false }; t = match x.st with
        | .integrating =>
            put { x with st := if s.dv P.dvCanOpmode c.val % 2 = 1 ∧ s.dv P.dvCanOpmode c.val < 4 then .listen else .errorActive }
        | .recovering => if x.runs = 127 then put { x with st := .errorActive, tec := 0, rec_ := 0, runs := 0 }
            else if 127 < x.runs then put { x with st := .errorActive, tec := 0, rec_ := 0, runs := 0 } else put { x with runs := x.runs + 1 }
        | _ => put x)
    -- rate detection
    ∧ (let kept := 200000000 ≤ 5 * (s.ticks - x.candSince)
      let rate (P : State → Prop) : Prop := (kept → Acts (.canRateCandidateTimeout c) s P)
        ∧ (x.waitIdle = false → ∀ e, Acts (.canErrorDetected c e sof) s P)
      let cand (k : Nat) : Nat := s.dv P.dvCanAbrlist c.val / 2 ^ (32 * k) % 2 ^ 32
      (x.st ≠ .rateDetect ∨ ¬ kept → Acts (.canRateCandidateTimeout c) s fun t => t = s)
      ∧ (x.st = .rateDetect → (∀ j ≤ x.cand + 1, cand j ≠ 0) → x.cand < 7 →
          rate fun t => t = put { x with cand := x.cand + 1, good := 0, candSince := s.ticks, nbt := cand (x.cand + 1) })
      ∧ (x.st = .rateDetect → x.cand = 7 ∨ cand (x.cand + 1) = 0 → rate fun t =>
          t = fault (put { x with cand := 0, good := 0, candSince := s.ticks, nbt := cand 0 }) 0x0905 1))
    -- errors as a receiver
    ∧ (idle ∨ x.st = .listen ∨ x.waitIdle = true → ∀ e, Acts (.canErrorDetected c e sof) s fun t => t = s)
    ∧ (calm → ∀ long : Bool, let m := x.rec_ + (if long then 8 else 1)
      let seen (P : State → Prop) : Prop := x.waitIdle = false →
        Acts (.canErrorDetected c (if long then .receiveLong else .receive) sof) s P
      (m ≤ 127 → seen fun t => t = put (settle { x with rec_ := m }))
      ∧ (127 < m → x.st = .errorActive → seen fun t => t = fault (put { x with rec_ := m, st := .errorPassive }) 0x0902 1)
      ∧ (127 < m → x.st = .errorPassive → seen fun t => t = put { x with rec_ := m }))
    -- the device's own frames: what is on the bus
    ∧ (let noRef := x.refDue = none ∨ ∃ m a, x.refDue = some (m, a) ∧ sof.toNat < a
      let noWindow := x.captured = none ∨ x.offered = false
      let ready (t : CanTx) : Prop := t.at_ ≤ sof.toNat
      let best := x.queue = before ++ tx :: after ∧ ready tx ∧ (∀ u ∈ before, ready u → canArb tx.frame < canArb u.frame)
        ∧ ∀ u ∈ after, ready u → canArb tx.frame ≤ canArb u.frame
      let free := s.dv P.dvCanTt c.val = 0 ∨ (x.running = true ∧ x.gap = false ∧ x.suspended = false ∧ ∃ (j : Fin 64) (e : SmEntry),
        x.window = some j ∧ (s.canMatrix c)[j.val]? = some e ∧ (e.kind = 3 ∨ x.cycle % 2 ^ e.rep ≠ e.ofs)
        ∧ sof.toNat + frameTime (nominalTiming x.nbt).tBit (s.canTd c 2).tBit (s.canTd c 3).tBit tx.frame.fmt.val
            (if tx.frame.rtr then 0 else tx.frame.data.length) tx.frame.ide tx.frame.brs
          < x.mark + (((s.canMatrix c)[j.val + 1]?).map (1000 * ·.mark)).getD (1000 * s.dv P.dvCanBcycle c.val))
      let key (t : CanTx) : Nat := t.frame.id.toNat + 2 ^ 29 * b2n (t.frame.ide && t.frame.fmt != 3)
      let unclash (key : Nat) : List (Nat × Nat) := x.clash.filter fun p => p.1 != key
      -- transmitter delay compensation in the data phase of a frame, and a delay that makes a bit error
      let comp (g : CanFrame) : Prop := (s.canTd c g.fmt.val).tdc = true ∧ (g.fmt = 3 ∨ (g.fmt = 2 ∧ g.brs = true))
      let tq (g : CanFrame) : Nat := (s.canTd c g.fmt.val).tBit / (s.canTd c g.fmt.val).quanta
      let tdc (g : CanFrame) : Option (Nat × Nat) :=
        if comp g then some (delay.toNat, delay.toNat + (s.canTd c g.fmt.val).tdco * tq g) else x.tdc
      let late (g : CanFrame) : Prop := comp g ∧ 127 * tq g < delay.toNat
      let err (P : State → Prop) : Prop := x.waitIdle = false → Acts (.canErrorDetected c (.transmit data) sof) s P
      let success (P : State → Prop) : Prop := x.waitIdle = false → Acts (.canTxSuccess c sof delay) s P
      let down (y : Can) : Can := settle { y with tec := y.tec - 1 }
      let calm' := active ∧ x.rec_ ≤ 127 ∧ x.tec ≤ 128
      let done (r : CmdRef) (u : State) : State := u.complete r .done 0 start (leBytes 8 start)
      let lost (P : State → Prop) : Prop := x.waitIdle = false → Acts (.canArbitrationLoss c sof) s P
      let broken (P : State → Prop) : Prop := x.waitIdle = false → Acts (.canErrorDetected c .transmitFree sof) s P
      let missed := fun y : Can => { y with offered := false, captured := none, txMissed := satInc 32 y.txMissed, missedAt := some s.now }
      (¬ active ∨ x.waitIdle = true → Acts (.canTxSuccess c sof delay) s (fun t => t = s)
        ∧ Acts (.canArbitrationLoss c sof) s fun t => t = s)
      ∧ (active → noRef → noWindow → x.queue = [] → success (fun t => t = s) ∧ lost (fun t => t = s) ∧ broken fun t => t = s)
      ∧ (active → noRef → noWindow → best → ¬ free → success (fun t => t = s) ∧ lost (fun t => t = s) ∧ broken fun t => t = s)
      -- its reference message
      ∧ (active → x.refDue = some (n, at_) → at_ ≤ sof.toNat → lost (fun t => t = s) ∧ broken (fun t => t = s)
        ∧ (calm' → success fun t => t = put (down { x with
            clash := unclash (s.dv P.dvCanRefid c.val), refDue := none, running := true, master := true, cycle := n, mark := start,
            gap := false, refLost := false, missing := 0, suspended := false, window := none, offered := false })))
      -- the frame of a window
      ∧ (active → noRef → x.captured = some (w, tx) → x.offered = true →
        let slot := s.canWord P.dvCanSlot c (2 * w.val + 1)
        let keep : Vector (Option CanTx) 32 := upd x.slots w fun z =>
          if z = some tx then (if slot.testBit 13 then some { tx with ref := none } else none) else z
        let y : Can := { x with tdc := tdc tx.frame, clash := unclash (key tx), captured := none, offered := false, slots := keep }
        (late tx.frame → success fun t => Machine.exec (.canErrorDetected c (.transmit true) sof) (put { x with tdc := tdc tx.frame }) = .next t)
        ∧ (calm' → tx.ref = none → ¬ late tx.frame → success fun t => t = put (down y))
        ∧ (calm' → tx.ref = some r → ¬ late tx.frame → success fun t => t = (done r (put y)).updCan c down)
        ∧ (let quiet := x.missedAt = none ∨ ∃ m, x.missedAt = some m ∧ m + 100000000 ≤ s.now
          (quiet → lost (fun t => t = fault (put (missed x)) 0x0907 0) ∧ broken fun t => t = fault (put (missed x)) 0x0907 0)
          ∧ (¬ quiet → lost (fun t => t = put (missed x)) ∧ broken fun t => t = put (missed x))))
      -- a frame of the event queue
      ∧ (active → noRef → noWindow → best → free →
        let y : Can := { x with tdc := tdc tx.frame, clash := unclash (key tx), queue := x.queue.erase tx }
        (late tx.frame → success fun t => Machine.exec (.canErrorDetected c (.transmit true) sof) (put { x with tdc := tdc tx.frame }) = .next t)
        ∧ (calm' → tx.ref = none → ¬ late tx.frame → success fun t => t = put (down y))
        ∧ (calm' → tx.ref = some r → ¬ late tx.frame → success fun t => t = (done r (put y)).updCan c down)
        ∧ (tx.single = false → lost (fun t => t = s) ∧ broken (fun t => t = s)
          -- an error that the transmitter counts, and `ID_CLASH` at the third in a row
          ∧ (calm → x.tec + 8 ≤ 127 → data = false → err fun t =>
              t = put (settle { x with clash := unclash (key tx), tec := x.tec + 8 }))
          ∧ (calm → x.tec + 8 ≤ 127 → data = true →
            let m := min 3 ((((x.clash.find? fun p => p.1 == key tx).map (·.2)).getD 0) + 1)
            let y : Can := { x with clash := (key tx, m) :: unclash (key tx) }
            (m < 3 ∨ s.mayRaise 0x0903 c.val = false → err fun t =>
              t = put (settle { y with tec := x.tec + 8 }))
            ∧ (m = 3 → s.mayRaise 0x0903 c.val = true → err fun t =>
              t = (fault ((put { y with clashId := key tx }).noteRaise 0x0903 c.val) 0x0903 1).updCan c fun z =>
                settle { z with tec := x.tec + 8 }))
          ∧ (x.st = .errorActive → x.rec_ ≤ 127 → x.tec ≤ 127 → 127 < x.tec + 8 → data = false →
              err fun t =>
                t = fault (put { x with clash := unclash (key tx), tec := x.tec + 8, st := .errorPassive }) 0x0902 1)
          ∧ (x.st = .errorPassive → x.tec ≤ 255 → 255 < x.tec + 8 → data = false → (x.queue.filterMap (·.ref)) = [] →
              err fun t => t = fault (put { x with
                clash := unclash (key tx), tec := x.tec + 8, runs := 0, queue := [], refDue := none
                st := if s.dv P.dvCanBorecov c.val = 0 then .recovering else .busOff }) 0x0901 1))
        ∧ (tx.single = true → tx.ref = none → lost fun t => t = put { x with queue := x.queue.erase tx })
        ∧ (tx.single = true → tx.ref = some r → lost fun t =>
            t = (put { x with queue := x.queue.erase tx }).complete r .aborted 0x0101 s.now)))

/-- R456 to R460, R466, Tables 14.5 to 14.8: the time-triggered schedule: reference messages sent, received and missing, the capture of a
slot, the mark of a window and the end of its transmit window. -/
def Obligations.CanSchedule : Prop :=
  ∀ (s : State) (c : Fin 4) (f : CanFrame) (sof : BitVec 64) (k : Fin 64) (e : SmEntry) (started : Bool) (i : Fin 512)
      (mrm cyc : Nat) (gap : Bool),
    let x := s.can[c]
    let put (y : Can) : State := s.updCan c fun _ => y
    let tt := s.dv P.dvCanTt c.val
    let cycleNs := 1000 * s.dv P.dvCanBcycle c.val
    let active := x.st = .errorActive ∨ x.st = .errorPassive
    let winNs := 1000 * s.dv P.dvCanTxenwin c.val
    let quiet := x.missedAt = none ∨ ∃ m, x.missedAt = some m ∧ m + 100000000 ≤ s.now
    let missed (y : Can) (t : State) : Prop := let u := put { y with captured := none, txMissed := satInc 32 x.txMissed, missedAt := some s.now }
      (quiet → t = u.raise { code := 0x0907, cls := 0, scope := .can, unit := c.val, detail := c.val }) ∧ (¬ quiet → t = u)
    -- the instants of the own reference message
    (tt ≠ 1 ∨ ¬ active ∨ x.follow = true → Acts (.canReferenceInstant c) s fun t => t = s)
    ∧ (tt = 1 → active → x.follow = false → Acts (.canReferenceInstant c) s fun t =>
        t = put { x with refDue := some (s.now / cycleNs % 64, s.now / cycleNs * cycleNs) })
    -- a reference message is received
    ∧ (tt = 0 ∨ (x.st ≠ .listen ∧ ¬ active) ∨ f.fmt ≠ 1 ∨ f.ide = true ∨ f.rtr = true ∨ f.data.length ≠ 4
        ∨ f.id.toNat % 2 ^ 11 / 8 ≠ s.dv P.dvCanRefid c.val % 2 ^ 11 / 8 → Acts (.canReferenceReceived c f sof) s fun t => t = s)
    ∧ (tt ≠ 0 → x.st = .listen ∨ active → f.fmt = 1 → f.ide = false → f.rtr = false → cyc < 64 → mrm < 65536 →
        f.data = leBytes 1 (cyc + 128 * b2n gap) ++ zeros 1 ++ leBytes 2 mrm →
        f.id.toNat % 2 ^ 11 / 8 = s.dv P.dvCanRefid c.val % 2 ^ 11 / 8 →
        Acts (.canReferenceReceived c f sof) s fun t => ∃ g : Int, -32768000 ≤ g ∧ g < 32768000
          ∧ (∃ m : Int, (mrm : Int) * 1000 - (sof.toNat / 5 * 5 % 65536000 : Nat) = g + m * 65536000)
          ∧ t = put { x with
            running := true, master := false, follow := x.follow || decide (tt = 1), refDue := none, cycle := cyc
            mark := sof.toNat / 5 * 5, gap := gap, gtOffs := g, refLost := false, missing := 0, suspended := false
            window := none, offered := false })
    -- a reference message is missing
    ∧ (tt = 0 ∨ x.running = false ∨ x.gap = true ∨ s.now < x.mark + cycleNs + winNs → Acts (.canReferenceMissing c) s fun t => t = s)
    ∧ (x.running = true → x.gap = false → x.mark + cycleNs + winNs ≤ s.now →
      (tt = 1 → ¬ active ∨ x.refDue ≠ none → Acts (.canReferenceMissing c) s fun t => t = s)
      ∧ (tt = 1 → active → x.refDue = none → Acts (.canReferenceMissing c) s fun t => t = put { x with refDue := some ((x.cycle + 1) % 64, s.now) })
      ∧ (1 < tt → Acts (.canReferenceMissing c) s fun t =>
        let u := put { x with
          cycle := (x.cycle + 1) % 64, mark := x.mark + cycleNs, missing := x.missing + 1, refLost := true
          suspended := decide (s.dv P.dvCanRefloss c.val ≤ x.missing + 1), window := none, offered := false }
        t = if x.refLost then u else u.raise { code := 0x0906, cls := 1, scope := .can, unit := c.val, detail := c.val }))
    -- 10 µs before the mark of an entry, and the mark
    ∧ ((s.canMatrix c)[k.val]? = none ∨ tt = 0 ∨ x.running = false ∨ x.gap = true →
        Acts (.canSlotCapture c k) s (fun t => t = s) ∧ Acts (.canWindowMark c k) s fun t => t = s)
    ∧ ((s.canMatrix c)[k.val]? = some e → tt ≠ 0 → x.running = true → x.gap = false →
      let sends := e.kind = 1 ∨ e.kind = 2
      let acts (n : Nat) : Prop := n % 2 ^ e.rep = e.ofs
      let n := if e.mark < 10 then (x.cycle + 1) % 64 else x.cycle
      let mark := if e.mark < 10 then x.mark + cycleNs else x.mark
      let owner (i : Fin 512) : Prop := s.overCan i = true ∧ s.ax P.axNetaddr i % 4 = c.val ∧ s.ax P.axNetaddr i / 4 % 32 = e.slot
      e.slot < 32 ∧ (
      let due := mark + e.mark * 1000 ≤ s.now + 10000
      (¬ sends ∨ ¬ acts n ∨ ¬ due → Acts (.canSlotCapture c k) s fun t => t = s)
      ∧ (sends → acts n → due → (∀ j, ¬ owner j) → Acts (.canSlotCapture c k) s fun t => ∀ w : Fin 32, w.val = e.slot →
          t = put { x with captured := (x.slots[w]).map fun z => (w, z) })
      ∧ (sends → acts n → due → owner i → (∀ j < i, ¬ owner j) → Acts (.canSlotCapture c k) s fun t => ∀ w : Fin 32, w.val = e.slot →
          let teff := mark + e.mark * 1000 + 2 ^ e.rep * cycleNs
          let g := s.canWord P.dvCanSlot c (2 * e.slot)
          ∃ z : CanTx, z.ref = none ∧ z.single = false ∧ z.frame.data = NetSp.bytes (s.netSetpoint i teff)
            ∧ z.frame.id.toNat = (if g / 2 ^ 30 = 3 then g % 2 ^ 11 else g % 2 ^ 29) ∧ z.frame.fmt.val = g / 2 ^ 30
            ∧ z.frame.rtr = false ∧ z.frame.ide = g.testBit 29 ∧ z.frame.brs = (s.canWord P.dvCanSlot c (2 * e.slot + 1)).testBit 12
            ∧ t = (s.netSent i teff).updCan c fun y => { y with slots := upd y.slots w fun _ => some z, captured := some (w, z) })
      ∧ (let y : Can := { x with window := some k, offered := false }
        let now := x.mark + e.mark * 1000 ≤ s.now ∧ ∀ j, x.window = some j → j < k
        (¬ now → Acts (.canWindowMark c k) s fun t => t = s)
        ∧ (now →
        (¬ sends ∨ ¬ acts x.cycle → Acts (.canWindowMark c k) s fun t => t = put y)
        ∧ (sends → acts x.cycle → (∀ j, ¬ owner j) →
          (¬ active → Acts (.canWindowMark c k) s (missed y))
          ∧ (active → (∀ w z, x.captured = some (w, z) → w.val ≠ e.slot) → Acts (.canWindowMark c k) s fun t => t = put y)
          ∧ (active → ∀ w z, x.captured = some (w, z) → w.val = e.slot →
            (x.suspended = true → Acts (.canWindowMark c k) s (missed y))
            ∧ (x.suspended = false → Acts (.canWindowMark c k) s fun t => t = put { y with offered := true })))
        ∧ (sends → acts x.cycle → active → x.suspended = false → owner i → (∀ j < i, ¬ owner j) → ∀ w z, x.captured = some (w, z) →
            w.val = e.slot → (s.axes[i]).net.got = true ∨ (s.axes[i]).net.missed + 1 < s.ax P.axNetloss i →
            Acts (.canWindowMark c k) s fun t => t = (s.updAxis i fun a => { a with net := if a.net.got then
              { a.net with got := false } else { a.net with missed := a.net.missed + 1 } }).updCan c fun _ => { y with offered := true })))))
    -- the end of the transmit window
    ∧ (let ripe := ∀ j e, x.window = some j → (s.canMatrix c)[j.val]? = some e → x.mark + e.mark * 1000 + winNs ≤ s.now
      (x.offered = false ∨ started = true ∨ ¬ ripe → Acts (.canTxenwinEnd c started) s fun t => t = s)
      ∧ (x.offered = true → started = false → ripe → Acts (.canTxenwinEnd c started) s (missed { x with offered := false })))

/-- R453, R454, R462 to R465, Tables 14.11 to 14.13: `CAN_TX_QUEUE` and `CAN_RX_ACK`. -/
def Obligations.CanPackets : Prop :=
  ∀ (s : State) (p : Packet) (c : Fin 4) (q : Fin 4) (w : Fin 32) (n m fl fmt id len af seq : Nat) (d : List Byte) (b : List Byte)
      (a z : List (Nat × List Byte)) (old : CanTx),
    let x := s.can[c]
    let rx := x.rx[q]
    let tx (slot : Nat) : List Byte := leBytes 1 n ++ leBytes 1 slot ++ leBytes 1 fl ++ leBytes 1 fmt ++ leBytes 4 id ++ leBytes 2 len
      ++ zeros 2 ++ leBytes 4 af ++ zeros 4 ++ d
    let ide := fl.testBit 3 = true
    let conf := fl.testBit 0 = true
    let single := fl.testBit 1 = true
    -- lengths and values that Table 14.1 and Table 14.12 allow, the XL fields zero
    let lens : Prop := (fmt = 1 ∧ len ≤ 8) ∨ (fmt = 2 ∧ (len ≤ 8 ∨ len = 12 ∨ len = 16 ∨ len = 20 ∨ len = 24 ∨ len = 32 ∨ len = 48 ∨ len = 64))
      ∨ (fmt = 3 ∧ 1 ≤ len ∧ len ≤ 2048)
    let valid (slot : Nat) : Prop := n < 4 ∧ (slot < 32 ∨ slot = 255) ∧ fl < 32 ∧ lens ∧ fmt ≤ s.dv P.dvCanFmt c.val
      ∧ (fl.testBit 4 = true → fmt = 1) ∧ (ide → fmt ≠ 3) ∧ (fl.testBit 2 = true → fmt = 2)
      ∧ id < (if fmt = 3 ∨ ¬ ide then 2 ^ 11 else 2 ^ 29)
      ∧ (fmt ≠ 3 → af = 0)
    let frame (t : CanTx) : Prop := t.frame.fmt.val = fmt ∧ t.frame.id.toNat = id ∧ t.frame.ide = fl.testBit 3 ∧ t.frame.rtr = fl.testBit 4
      ∧ t.frame.brs = fl.testBit 2 ∧ t.frame.esi = false ∧ t.frame.data = d.take len ∧ t.single = fl.testBit 1 ∧ t.at_ = s.now
      ∧ t.frame.sdt = 0 ∧ t.frame.vcid = 0 ∧ t.frame.af.toNat = af ∧ t.frame.sec = false
      ∧ t.ref = if fl.testBit 0 then some (s.refOf (asOp p 0x0704)) else none
    let answers (u t : State) : Prop := (conf → Accepted p 0x0704 s u t) ∧ (¬ conf → Ok p 0x0704 s u t)
    let sending := x.st ≠ .off ∧ x.st ≠ .rateDetect ∧ x.st ≠ .listen
    (Served p 0x0704 s → n % 4 = c.val → n < 256 → fl < 256 → fmt < 256 → id < 2 ^ 32 → len < 65536 → af < 2 ^ 32 →
      d.length = (len + 3) / 4 * 4 →
      -- the event queue
      (p.args = tx 255 →
        (¬ valid 255 → Sends (.canTxQueue p) p s (Refused p 0x0704 s .range 0))
        ∧ (valid 255 → ¬ sending → Sends (.canTxQueue p) p s (Refused p 0x0704 s .state 0x0101))
        ∧ (valid 255 → sending → 64 ≤ x.queue.length → Sends (.canTxQueue p) p s (Refused p 0x0704 s .queueFull 0x0101))
        ∧ (valid 255 → sending → x.queue.length < 64 → Sends (.canTxQueue p) p s fun t => ∃ y : CanTx, frame y
            ∧ answers (s.updCan c fun z => { z with queue := z.queue ++ [y] }) t))
      -- a slot
      ∧ (p.args = tx w.val →
        let g := s.canWord P.dvCanSlot c (2 * w.val)
        let h := s.canWord P.dvCanSlot c (2 * w.val + 1)
        let fits := g / 2 ^ 30 ≠ 0 ∧ g / 2 ^ 30 = fmt ∧ (if fmt = 3 then g % 2 ^ 11 else g % 2 ^ 29) = id ∧ g.testBit 29 = fl.testBit 3
          ∧ (fmt = 2 → h.testBit 12 = fl.testBit 2) ∧ len ≤ h % 2 ^ 12
        let owned := ∃ i : Fin 512, s.overCan i = true ∧ s.ax P.axNetaddr i % 4 = c.val ∧ s.ax P.axNetaddr i / 4 % 32 = w.val
        (¬ valid w.val → Sends (.canTxQueue p) p s (Refused p 0x0704 s .range 0))
        ∧ (valid w.val → ¬ fits → Sends (.canTxQueue p) p s (Refused p 0x0704 s .range 0x0101))
        ∧ (valid w.val → fits → single → Sends (.canTxQueue p) p s (Refused p 0x0704 s .range 0x0102))
        ∧ (valid w.val → fits → ¬ single → ¬ sending → Sends (.canTxQueue p) p s (Refused p 0x0704 s .state 0x0101))
        ∧ (valid w.val → fits → ¬ single → sending → owned → Sends (.canTxQueue p) p s (Refused p 0x0704 s .state 0x0102))
        ∧ (valid w.val → fits → ¬ single → sending → ¬ owned → Sends (.canTxQueue p) p s fun t => ∃ y : CanTx, frame y ∧
          let u := s.updCan c fun z => { z with
            slots := upd z.slots w fun _ => some y
            captured := z.captured.map fun v => if v.1 = w then (v.1, { v.2 with ref := none }) else v }
          (x.slots[w] = none → answers u t)
          ∧ (x.slots[w] = some old → old.ref = none → answers u t)
          ∧ (∀ r, x.slots[w] = some old → old.ref = some r → answers (u.complete r .aborted 0x0102 s.now) t))))
    -- `CAN_RX_ACK`
    ∧ (Served p 0x0705 s → n < 256 → m < 256 → seq < 65536 →
      let ack (ctl que flags : Nat) : List Byte := leBytes 1 ctl ++ leBytes 1 que ++ leBytes 1 m ++ leBytes 1 flags ++ leBytes 2 seq ++ zeros 2
      let used := s.dv P.dvCanRxbytes c.val / 2 ^ (32 * q.val) % 2 ^ 32
      let told (u : CanRx) : State := s.updCan c fun y => { y with rx := upd y.rx q fun _ => { u with told := u.lost } }
      let room := payloadLimit (s.versionOf (asOp p 0x0705)) - 16
      -- the entries returned: the oldest, up to `max` and to the payload limit
      let returned (l : List (Nat × List Byte)) (r : Nat) : Prop := r ≤ m ∧ r ≤ l.length ∧ ((l.take r).map (·.2.length)).sum ≤ room
        ∧ (r < m → r < l.length → room < ((l.take (r + 1)).map (·.2.length)).sum)
      let tells (u : CanRx) (t : State) : Prop := ∃ r : Nat, returned u.entries r ∧ Replied p 0x0705 s .ok 0
        (leBytes 1 c.val ++ leBytes 1 q.val ++ leBytes 2 r ++ leBytes 2 u.entries.length ++ zeros 2 ++ leBytes 4 (u.lost - u.told)
          ++ (u.entries.take r).flatMap (·.2)) (told u) t
      (p.args = ack n q.val 0 ∨ p.args = ack n q.val 1 → 3 < n → Sends (.canRxAck p) p s (Refused p 0x0705 s .range 0))
      ∧ (p.args = ack c.val n 0 ∨ p.args = ack c.val n 1 → 3 < n → Sends (.canRxAck p) p s (Refused p 0x0705 s .range 0))
      ∧ (1 < n → p.args = ack c.val q.val n → Sends (.canRxAck p) p s (Refused p 0x0705 s .range 0))
      ∧ (p.args = ack c.val q.val 0 ∨ p.args = ack c.val q.val 1 → used = 0 → Sends (.canRxAck p) p s (Refused p 0x0705 s .state 0x0101))
      ∧ (p.args = ack c.val q.val 0 → used ≠ 0 → Sends (.canRxAck p) p s (tells rx))
      ∧ (p.args = ack c.val q.val 1 → used ≠ 0 → (∀ e ∈ rx.entries, e.1 ≠ seq) →
          Sends (.canRxAck p) p s (Refused p 0x0705 s .range 0x0102))
      ∧ (p.args = ack c.val q.val 1 → used ≠ 0 → rx.entries = a ++ (seq, b) :: z → (∀ e ∈ a, e.1 ≠ seq) →
          Sends (.canRxAck p) p s (tells { rx with entries := z })))

/-! ### Crossroads and debug (chapters 15 and 17) -/

/-- R469, R470, R479, R481: what Crossroads holds: a write is read back, every other byte keeps its value, an access never depends on
the bank map, and the memory keeps its canonical form; during a relocation every write also reaches the detour, and the switch of the bank
map changes no word but those that could not be corrected, which read as zero. -/
def Obligations.CrossroadsWords : Prop :=
  ∀ (x : Xr) (off : Nat) (bs : List Byte) (r : Relocation) (lost : List Nat) (b : Fin 64) (w : Nat),
    let below (o n : Nat) : Prop := o + n ≤ 0x275C000
    let one := x.retired = none ∨ x.reloc = none
    let detour (w : Nat) : Nat := let k := w / 64 % 63
      (80608 + w / 64 / 63) * 512 + (if k < w % 64 then k else k + 1) * 8
    let inBank (o : Nat) : Prop := o / 8 % 64 = b.val
    -- reads and writes below the detour area
    (x.mem.wf = true → one → below off bs.length →
      (x.write off bs).mem.wf = true ∧ (x.write off bs).read off bs.length = bs
      ∧ ∀ o, below o 1 → o < off ∨ off + bs.length ≤ o → (x.write off bs).read o 1 = x.read o 1)
    -- where the words of a retired bank lie, never in that bank
    ∧ (∀ o, x.retired = some b → below o 1 → inBank o →
        x.read o 1 = [x.mem.read (detour (o / 8) + o % 8)] ∧ ¬ inBank (detour (o / 8)) ∧ 0x275C000 ≤ detour (o / 8)
        ∧ detour (o / 8) < 0x2800000)
    ∧ (∀ o, x.retired = none ∨ (x.retired = some b ∧ ¬ inBank o) → x.read o 1 = [x.mem.read o])
    -- a relocation: writes reach both places
    ∧ (x.mem.wf = true → x.retired = none → x.reloc = some r → r.bank = b.val → below off bs.length →
        ∀ o, off ≤ o → o < off + bs.length → inBank o → ∀ k < 8,
          (x.write off bs).mem.read (detour (o / 8) + k) = (x.write off bs).mem.read (o / 8 * 8 + k))
    -- the copy and the switch
    ∧ (x.mem.wf = true → x.retired = none → x.reloc = some r → r.bank = b.val → r.copied = false →
        (∀ v ∈ r.written, below (8 * v) 8 → inBank (8 * v) → ∀ k < 8, x.mem.read (detour v + k) = x.mem.read (8 * v + k)) →
        (∀ v, v ∉ r.written → below (8 * v) 8 → inBank (8 * v) → ∀ k < 8, x.mem.read (detour v + k) = 0) →
        let y := x.copyBank r lost
        let z : Xr := { y with retired := some b, reloc := none }
        let bad := (w ∈ lost ∨ w ∈ x.bad) ∧ w ∉ r.written ∧ inBank (8 * w)
        y.mem.wf = true ∧ (y.reloc.map (·.copied) = some true)
        ∧ (below (8 * w) 8 → ¬ bad → z.read (8 * w) 8 = x.read (8 * w) 8)
        ∧ (below (8 * w) 8 → bad → z.read (8 * w) 8 = zeros 8))

/-- R470 to R473, R475 to R477, R479, R480, Tables 15.1 to 15.3, 15.6: one access on port L, on port S or on both in one cycle, the
regions, what ECC finds, the scrubber, and a bank's relocation. -/
def Obligations.CrossroadsAccess : Prop :=
  ∀ (s : State) (e f : Fin 24) (m : Fin 10) (wr rewritten again : Bool) (off : BitVec 32) (so : BitVec 26) (be b2 : BitVec 8) (d d2 : BitVec 64)
      (ecc : Ecc) (i : Fin 512) (r : Relocation),
    let a := off.toNat / 8 * 8
    let w := a / 8
    let bank := w % 64
    let grants (m : Nat) (wr : Bool) : Prop := a + 8 ≤ 0x275C000 ∧ (m = 40 ∨ ∃ (h : m < 42) (k : Fin 16),
      let g := ((s.xr.regions[m])[k]).toNat
      g.testBit 0 = true ∧ g.testBit (if wr then 2 else 1) = true ∧ g % 2 ^ 32 / 4096 * 4096 ≤ a ∧ a + 8 ≤ (g / 2 ^ 32 / 4096 + 1) * 4096)
    let clean := w ∉ s.xr.bad
    -- the word as a master reads it
    let seen := s.xrWord a
    let full := be = 0xFF#8
    -- the merged word, and the state after it has been written
    let merged (u : State) (be : BitVec 8) (d : BitVec 64) (v : BitVec 64) : Prop := ∀ k < 8,
      v.extractLsb' (8 * k) 8 = if be.getLsbD k then d.extractLsb' (8 * k) 8 else (u.xr.word a).extractLsb' (8 * k) 8
    let wrote (u : State) (be : BitVec 8) (d : BitVec 64) (t : State) : Prop := ∃ v, merged u be d v
      ∧ t = u.updXr fun x => let y := x.write a (leBytes 8 v.toNat)
        { y with bad := if be = 0xFF#8 then x.bad.filter (· != w) else x.bad }
    -- a violation of an engine without a task, or of another master
    let violated (u : State) (m : Nat) (wr : Bool) : State := { u with xr := { u.xr with viol := (m, wr, a, u.now) } }
    let region (m : Nat) (wr : Bool) : State := (violated s m wr).raise { code := 0x0A03, cls := 1, scope := .master, unit := m, detail := m }
    -- an uncorrectable word that belongs to no axis
    let known (u : State) : State := u.updXr fun x => { x with bad := if w ∈ x.bad then x.bad else w :: x.bad }
    let upset (u : State) : State := ((known u).upset .bank bank).1
    let third := ((known s).upset .bank bank).2 = true
    let lostWord (u : State) : State := (upset u).raise { code := 0x0A02, cls := 1, scope := .bank, unit := bank, detail := bank, permanent := ((known u).upset .bank bank).2 }
    let unowned := s.wordOwner a = none
    let corrected (u : State) : State := let v := u.updXr fun x => { x with
        ecc := upd x.ecc ⟨bank, by omega⟩ (satInc 32), writeBack := if w ∈ x.writeBack then x.writeBack else x.writeBack ++ [w] }
      if s.mayRaise 0x0A01 bank then
        (v.noteRaise 0x0A01 bank).raise { code := 0x0A01, cls := 0, scope := .bank, unit := bank, detail := bank } else v
    let respL (v : BitVec 64) (u : State) : State := u.updXr fun x => { x with respL := v }
    let respS (v : BitVec 64) (u : State) : State := u.updXr fun x => { x with respS := v }
    let s0 : State := s.updXr fun x => { x with collFlag := false }
    -- a failed engine is cut off
    let dma := 4 ≤ m.val
    -- port L
    ((∀ k < 8, s.heldByte (a + k) = none) → seen = s.xr.word a)
    ∧ ((s.eng[e]).role = .retired → Acts (.portLAccess e wr off be d ecc) s fun t => t = s)
    ∧ (¬ grants e.val wr →
      (s.engineAxis e.val = none → (s.eng[e]).role ≠ .retired →
        Acts (.portLAccess e wr off be d ecc) s fun t => t = if wr then region e.val wr else respL 0 (region e.val wr))
      ∧ (s.engineAxis e.val = some i → (s.eng[e]).role ≠ .retired → Acts (.portLAccess e wr off be d ecc) s fun t =>
        let u : State := (violated s e.val wr).raise
            { code := 0x0A03, cls := 4, scope := .master, unit := e.val, axis := i.val, detail := e.val, reach := [i.val] }
        t = if wr then u else respL 0 u))
    ∧ (grants e.val false →
      (clean → ecc = .ok → (s.eng[e]).role ≠ .retired → Acts (.portLAccess e false off be d ecc) s fun t => t = respL seen s)
      ∧ (clean → ecc = .corrected → (s.eng[e]).role ≠ .retired →
        Acts (.portLAccess e false off be d ecc) s fun t => t = respL seen (corrected s))
      ∧ (¬ clean ∨ ecc = .double → unowned → ¬ third → (s.eng[e]).role ≠ .retired →
        Acts (.portLAccess e false off be d ecc) s fun t => t = respL 0 (lostWord s))
      ∧ (¬ clean ∨ ecc = .double → unowned → third → s.xr.retired = none → s.xr.reloc = none → (s.eng[e]).role ≠ .retired →
        Acts (.portLAccess e false off be d ecc) s fun t =>
          t = respL 0 ((lostWord s).updXr fun x => { x with reloc := some { bank := bank, t0 := s.now } })))
    ∧ (grants e.val true → (clean ∨ full → (s.eng[e]).role ≠ .retired → Acts (.portLAccess e true off be d ecc) s (wrote s be d))
      ∧ (¬ clean → ¬ full → unowned → ¬ third → (s.eng[e]).role ≠ .retired →
        Acts (.portLAccess e true off be d ecc) s fun t => t = lostWord s))
    -- port S alone
    ∧ (¬ grants (32 + m.val) wr →
      (wr = false → Acts (.portSAccess m wr off be d ecc none) s fun t => t = respS 0 ((violated s0 (32 + m.val) wr).raise
        { code := 0x0A03, cls := 1, scope := .master, unit := 32 + m.val, detail := 32 + m.val }))
      ∧ (wr = true → dma → Acts (.portSAccess m wr off be d ecc none) s fun t => t = (violated s0 (32 + m.val) wr).raise
        { code := 0x0A03, cls := 1, scope := .master, unit := 32 + m.val, detail := 32 + m.val }))
    ∧ (grants (32 + m.val) false → clean → ecc = .ok → Acts (.portSAccess m false off be d ecc none) s fun t => t = respS seen s0)
    ∧ (grants (32 + m.val) true → clean ∨ full → Acts (.portSAccess m true off be d ecc none) s (wrote s0 be d))
    -- both ports, the same word
    ∧ (clean → grants f.val true → (s.eng[f]).role ≠ .retired →
      let both := some (f, true, b2, d2)
      let hit := ∃ k < 8, be.getLsbD k = true ∧ b2.getLsbD k = true ∧ d.extractLsb' (8 * k) 8 ≠ d2.extractLsb' (8 * k) 8
      (grants (32 + m.val) false → ecc = .ok → Acts (.portSAccess m false off be d ecc both) s fun t => wrote (respS seen s0) b2 d2 t)
      ∧ (grants (32 + m.val) true → grants f.val false → ecc = .ok →
        Acts (.portSAccess m true off be d ecc (some (f, false, b2, d2))) s fun t => wrote (respL seen s0) be d t)
      ∧ (grants (32 + m.val) true → ¬ hit → Acts (.portSAccess m true off be d ecc both) s fun t => ∃ u, wrote s0 b2 d2 u ∧ wrote u be d t)
      ∧ (grants (32 + m.val) true → hit → Acts (.portSAccess m true off be d ecc both) s fun t => ∃ u v : State, wrote s0 b2 d2 u
        ∧ v = ((u.strobe 0x0E 0).updXr fun x => { x with collFlag := true, coll := upd x.coll ⟨m.val, by omega⟩ (satInc 32) })
        ∧ t = if s.dv P.dvCrcollevt = 1 ∧ s.mayRaise 0x0A04 (32 + m.val) = true then (v.noteRaise 0x0A04 (32 + m.val)).raise
            { code := 0x0A04, cls := 0, scope := .master, unit := 32 + m.val, detail := 32 + m.val } else v)
      ∧ (¬ grants (32 + m.val) true → dma → Acts (.portSAccess m true off be d ecc both) s fun t => wrote ((violated s0 (32 + m.val) true).raise
          { code := 0x0A03, cls := 1, scope := .master, unit := 32 + m.val, detail := 32 + m.val }) b2 d2 t))
    -- the scrubber
    ∧ (so.toNat / 8 = w →
      (0x2800000 ≤ a → Acts (.scrubRead so ecc rewritten again) s fun t => t = s)
      ∧ (a < 0x2800000 → clean → ecc = .ok → w ∉ s.xr.writeBack → Acts (.scrubRead so ecc rewritten again) s fun t => t = s)
      ∧ (a < 0x2800000 → clean → ecc = .corrected ∨ (ecc = .ok ∧ w ∈ s.xr.writeBack) →
        let u := (if ecc = .corrected then corrected s else s).updXr fun x => { x with writeBack := x.writeBack.filter (· != w) }
        (rewritten = true ∨ again = false ∨ w ∈ s.xr.weakWords → Acts (.scrubRead so ecc rewritten again) s fun t => t = u)
        ∧ (rewritten = false → again = true → w ∉ s.xr.weakWords → Acts (.scrubRead so ecc rewritten again) s fun t =>
            t = u.updXr fun x => { x with weakWords := w :: x.weakWords, weak := upd x.weak ⟨bank, by omega⟩ (satInc 16) }))
      ∧ (a < 0x2800000 → ecc = .double → unowned → ¬ third → Acts (.scrubRead so ecc rewritten again) s fun t => t = lostWord s))
    -- a bank's relocation
    ∧ (s.xr.reloc = none ∨ (s.xr.reloc = some r ∧ r.copied = true) → Acts (.bankRelocationCopyComplete []) s fun t => t = s)
    ∧ (∀ lost, s.xr.reloc = some r → r.copied = false → Acts (.bankRelocationCopyComplete lost) s fun t =>
        t = s.updXr fun x => x.copyBank r lost)
    ∧ (s.xr.reloc = none ∨ (s.xr.reloc = some r ∧ r.copied = false) → Acts .bankMapSwitch s fun t => t = s)
    ∧ (s.xr.reloc = some r → r.copied = true → r.bank < 64 → r.listed = [] → Acts .bankMapSwitch s fun t =>
        let u : State := ((s.updXr fun x => { x with
              retired := fin? 64 r.bank, reloc := none, bad := x.bad.filter fun v => v % 64 != r.bank }).raise
            { code := 0x0A05, cls := 1, scope := .bank, unit := r.bank, detail := r.bank }).updFaults fun z => { z with lastRetire := s.now }
        t = u.event 0xE007 0xFFFF (leBytes 1 5 ++ leBytes 1 r.bank ++ leBytes 1 0xFF ++ leBytes 1 0 ++ leBytes 4 (s.now - r.t0)
              ++ leBytes 8 r.t0))

/-- R473: a write that is discarded for a region violation never reaches the bank: nothing is stored, the collision flag and the
collision counters stay as they are, and a write that the other port of the bank makes to the same word in the same cycle acts as if
the refused write did not exist. -/
def Obligations.RefusedWrites : Prop :=
  ∀ (s : State) (f : Fin 24) (m : Fin 10) (off : BitVec 32) (be b2 : BitVec 8) (d d2 : BitVec 64) (ecc : Ecc),
    let a := off.toNat / 8 * 8
    let w := a / 8
    let grants (m : Nat) : Prop := a + 8 ≤ 0x275C000 ∧ (m = 40 ∨ ∃ (h : m < 42) (k : Fin 16),
      let g := ((s.xr.regions[m])[k]).toNat
      g.testBit 0 = true ∧ g.testBit 2 = true ∧ g % 2 ^ 32 / 4096 * 4096 ≤ a ∧ a + 8 ≤ (g / 2 ^ 32 / 4096 + 1) * 4096)
    let whole (be : BitVec 8) : Prop := w ∉ s.xr.bad ∨ be = 0xFF#8
    -- the violation of a master, without a collision
    let violated (m : Nat) (x : Xr) : Xr := { x with viol := (m, true, a, s.now) }
    let quiet : Xr := { s.xr with collFlag := false }
    -- the write of the enabled bytes of the word
    let wrote (x : Xr) (be : BitVec 8) (d : BitVec 64) (y : Xr) : Prop := ∃ v : BitVec 64,
      (∀ k < 8, v.extractLsb' (8 * k) 8 = if be.getLsbD k then d.extractLsb' (8 * k) 8 else (s.xr.word a).extractLsb' (8 * k) 8)
      ∧ y = let z := x.write a (leBytes 8 v.toNat); { z with bad := if be = 0xFF#8 then x.bad.filter (· != w) else x.bad }
    -- a refused write on port L, alone and beside a write on port S
    ((s.eng[f]).role ≠ .retired → ¬ grants f.val →
      Acts (.portLAccess f true off be d ecc) s (fun t => t.xr = violated f.val s.xr)
      ∧ (grants (32 + m.val) → whole be → Acts (.portSAccess m true off be d ecc (some (f, true, b2, d2))) s fun t => wrote (violated f.val quiet) be d t.xr)
      ∧ (¬ grants (32 + m.val) → Acts (.portSAccess m true off be d ecc (some (f, true, b2, d2))) s fun t => t.xr = violated f.val quiet))
    -- a refused write on port S, alone and beside a write on port L
    ∧ (¬ grants (32 + m.val) →
      Acts (.portSAccess m true off be d ecc none) s (fun t => t.xr = violated (32 + m.val) quiet)
      ∧ (grants f.val → (s.eng[f]).role ≠ .retired → whole b2 →
        Acts (.portSAccess m true off be d ecc (some (f, true, b2, d2))) s fun t => wrote (violated (32 + m.val) quiet) b2 d2 t.xr)
      ∧ (grants f.val → Acts (.portSAccess m true off be d ecc (some (f, true, b2, d2))) s fun t => t.xr.coll = s.xr.coll
        ∧ t.xr.collFlag = false))

/-- R245, R514 to R517, Tables 17.7 to 17.10: `DBG_UNLOCK`, `TMUX_SELECT`, debug halts of an engine, and the accesses through the JTAG
port, each at the level it needs.

Keys and signatures are free functions of the configuration (log 25). -/
def Obligations.DebugAccess : Prop :=
  ∀ (s : State) (p : Packet) (step level slot n sig inst : Nat) (key sg : List Byte) (e : Fin 24) (mem : EngMem) (a : BitVec 18) (len : BitVec 12)
      (off : BitVec 26) (bs : List Byte) (rc : Fin 4) (pins : List (JPin × Bool)) (port : Fin 64) (wire : Fin 8),
    let d := s.dbg
    let cur := if d.lifecycle = 0x10 then 3 else d.level
    let head := leBytes 1 step ++ leBytes 1 level ++ leBytes 1 slot ++ zeros 1
    let fits := step < 256 ∧ level < 256 ∧ slot < 256
    let used : State := s.updDbg fun d => { d with nonceValid := false }
    let allowed := d.lifecycle = 0x10 ∨ d.lifecycle = 0x20 ∨ (d.lifecycle = 0x30 ∧ d.policy ≠ 0 ∧ d.policy / 2 ^ (8 * slot + 7) % 2 = 1
      ∧ level ≤ d.policy / 2 ^ (8 * slot) % 4)
    -- `DBG_UNLOCK`
    (Served p 0x0C01 s → fits → p.args = head → step ≠ 2 →
      (step = 0 ∨ 3 < step ∨ 3 < level ∨ 3 < slot → Sends (.dbgUnlock p) p s (Refused p 0x0C01 s .range 0))
      ∧ (step = 1 → level ≤ 3 → slot ≤ 3 → Sends (.dbgUnlock p) p s fun t => ∃ nonce : List Byte, nonce.length = 32
        ∧ leNat nonce = (Config.nonce d.nonces).toNat
        ∧ Replied p 0x0C01 s .ok 0 (nonce ++ leBytes 8 Config.serial.toNat)
            (s.updDbg fun d => { d with nonces := d.nonces + 1, nonceValid := true, nonceTime := s.now }) t)
      ∧ (step = 3 → level ≤ 3 → slot ≤ 3 → Sends (.dbgUnlock p) p s fun t =>
          Ok p 0x0C01 s (if d.lifecycle = 0x10 then s.updDbg fun d => { d with level := 0 } else
            s.updDbg fun d => { d with level := 0, tmux := Vector.replicate 16 (0, 0), extest := [] }) t))
    ∧ (Served p 0x0C01 s → fits → step = 2 → p.args = head ++ key ++ sg → key.length = 96 → sg.length = 96 →
      (level = 0 ∨ 3 < level ∨ 3 < slot → Sends (.dbgUnlock p) p s (Refused p 0x0C01 s .range 0))
      ∧ (1 ≤ level → level ≤ 3 → slot ≤ 3 →
        (d.nonceValid = false ∨ d.nonceTime + 60000000000 < s.now → Sends (.dbgUnlock p) p s (Refused p 0x0C01 s .state 0x0101))
        ∧ (d.nonceValid = true → s.now ≤ d.nonceTime + 60000000000 →
          let msg := leBytes 32 (Config.nonce (d.nonces - 1)).toNat ++ leBytes 8 Config.serial.toNat ++ leBytes 1 level
          (¬ allowed → Sends (.dbgUnlock p) p s (Replied p 0x0C01 s .denied 0x0101 [] used))
          ∧ (allowed → Config.debugKey slot key = false ∨ d.revoked.getLsbD slot = true →
            Sends (.dbgUnlock p) p s (Replied p 0x0C01 s .denied 0x0102 [] used))
          ∧ (allowed → Config.debugKey slot key = true → d.revoked.getLsbD slot = false →
            (Config.debugSignature key msg sg = false → Sends (.dbgUnlock p) p s (Replied p 0x0C01 s .denied 0x0103 [] used))
            ∧ (Config.debugSignature key msg sg = true → Sends (.dbgUnlock p) p s fun t => Ok p 0x0C01 s
                ((s.updDbg fun y => { y with
                  nonceValid := false, level := level, extest := if d.lifecycle = 0x10 ∨ level = 3 then y.extest else [] }).raise
                  { code := 0x0C05, cls := 1, scope := .device, detail := level }) t)))))
    -- `TMUX_SELECT`
    ∧ (Served p 0x0C02 s → p.args = leBytes 1 n ++ leBytes 1 sig ++ leBytes 1 inst ++ zeros 1 → n < 256 → sig < 256 → inst < 256 →
      let top := if 1 ≤ sig ∧ sig ≤ 5 then 63 else if sig = 6 ∨ sig = 7 then 23 else if sig = 10 then 7 else if sig = 11 then 191
        else if sig = 15 then 12 else 0
      (cur = 0 → Sends (.tmuxSelect p) p s (Refused p 0x0C02 s .denied 0x0104))
      ∧ (1 ≤ cur → 15 < n ∨ 15 < sig ∨ top < inst → Sends (.tmuxSelect p) p s (Refused p 0x0C02 s .range 0))
      ∧ (1 ≤ cur → sig ≤ 15 → inst ≤ top → ∀ k : Fin 16, k.val = n → Sends (.tmuxSelect p) p s fun t =>
          Ok p 0x0C02 s (s.updDbg fun d => { d with
            tmux := upd d.tmux k fun _ => (sig, inst), strobes := upd d.strobes k fun _ => none }) t))
    -- a debug halt and its end
    ∧ (let owns (q : Fin 64) : Prop := q ∈ s.portsOwned e
      let guarded (q : Fin 64) : Prop := s.tg.cfg.isSome = true ∧ (s.sf P.sfPortsused).testBit q.val = true
      let held := ∃ q, owns q ∧ guarded q ∧ ((s.tg.ports[q]).st = .permit ∨ (s.tg.ports[q]).st = .ss1)
      (cur < 2 ∨ (s.eng[e]).halted = true ∨ held → Acts (.engineDebugHalt e) s fun t => t = s)
      ∧ (2 ≤ cur → (s.eng[e]).halted = false → ¬ held →
        (s.portsOwned e = [] → Acts (.engineDebugHalt e) s fun t => t = s.updEng e fun x => { x with halted := true })
        ∧ (s.portsOwned e = [port] → Acts (.engineDebugHalt e) s fun t =>
            t = (s.updEng e fun x => { x with halted := true }).haltPort port (decide (s.pt P.ptHaltmode port = 0 ∨ guarded port))))
      ∧ (cur < 2 ∨ (s.eng[e]).halted = false → Acts (.engineDebugResume e) s fun t => t = s)
      ∧ (2 ≤ cur → (s.eng[e]).halted = true → s.portsOwned e = [] → (s.eng[e]).run.isSome = true → (s.eng[e]).waiting = [] →
          Acts (.engineDebugResume e) s fun t => t = s.updEng e fun x => { x with halted := false, stepOne := false }))
    -- JTAG
    ∧ (let size := match mem with | .plm => 0x10000 | .clmX => 0x8000 | .clmY => 0x8000 | .dlm => 0x20000
      let x := s.eng[e]
      let store := match mem with | .plm => x.plm | .clmX => x.clmX | .clmY => x.clmY | .dlm => x.dlm
      Acts (.jtagDebugAccess .bypass) s (fun t => t = s) ∧ Acts (.jtagDebugAccess .idcode) s (fun t => t = s.updDbg fun d => { d with jtag := leBytes 4 0x25120C35 })
      ∧ (let pad := s.tg.pad.getLsbD port.val = false ∧ s.boot.safePath = false
          ∧ (match d.extest.find? fun q => q.1 == .pwm port wire with
            | some q => q.2
            | none => (s.ports[port]).gate.getLsbD wire.val) = true
        Acts (.jtagDebugAccess (.sample (.pwm port wire))) s fun t => t = s.updDbg fun d => { d with jtag := [if pad then 1 else 0] })
      ∧ Acts (.jtagDebugAccess (.sample (.gen port))) s (fun t => t = s.updDbg fun d => { d with jtag := leBytes 1 (b2n (s.tg.gen.getLsbD port.val)) })
      ∧ Acts (.jtagDebugAccess (.sample (.brk port))) s (fun t => t = s.updDbg fun d => { d with jtag := leBytes 1 (b2n (s.tg.brk.getLsbD port.val)) })
      ∧ (cur < 1 → Acts (.jtagDebugAccess (.readEngine e mem a len)) s (fun t => t = s)
        ∧ Acts (.jtagDebugAccess (.readXr off len)) s (fun t => t = s) ∧ Acts (.jtagDebugAccess (.readCore rc)) s fun t => t = s)
      ∧ (1 ≤ cur →
        (a.toNat + len.toNat ≤ size → Acts (.jtagDebugAccess (.readEngine e mem a len)) s fun t => ∃ bytes : List Byte,
          t = s.updDbg (fun d => { d with jtag := bytes }) ∧ bytes.length = len.toNat
          ∧ ∀ k < len.toNat, bytes.getD k 0 = store.read (a.toNat + k))
        ∧ (off.toNat + len.toNat ≤ 0x2800000 → Acts (.jtagDebugAccess (.readXr off len)) s fun t =>
            t = s.updDbg fun d => { d with jtag := s.xrBytes off.toNat len.toNat })
        ∧ Acts (.jtagDebugAccess (.readCore rc)) s fun t => ∃ v, t = s.draw.2.updDbg (fun d => { d with jtag := leBytes 8 v })
        ∧ v = s.draw.1)
      ∧ (cur < 2 → Acts (.jtagDebugAccess (.writeEngine e mem a bs)) s (fun t => t = s)
        ∧ Acts (.jtagDebugAccess (.stepEngine e)) s (fun t => t = s)
        ∧ Acts (.jtagDebugAccess (.haltCore rc)) s (fun t => t = s) ∧ Acts (.jtagDebugAccess (.resumeCore rc)) s fun t => t = s)
      ∧ (2 ≤ cur →
        (a.toNat + bs.length ≤ size → Acts (.jtagDebugAccess (.writeEngine e mem a bs)) s fun t => ∃ y : Engine, EngineBecomes e y s t
          ∧ (let m' := (match mem with | .plm => y.plm | .clmX => y.clmX | .clmY => y.clmY | .dlm => y.dlm)
            (store.wf = true → m'.wf = true ∧ ∀ k, m'.read k =
              if a.toNat ≤ k ∧ k < a.toNat + bs.length then bs.getD (k - a.toNat) 0 else store.read k)
            ∧ y = (match mem with
              | .plm => { x with plm := m' } | .clmX => { x with clmX := m' } | .clmY => { x with clmY := m' }
              | .dlm => { x with dlm := m' })))
        ∧ (x.halted = true → Acts (.jtagDebugAccess (.stepEngine e)) s (EngineBecomes e { x with stepOne := true } s))
        ∧ (x.halted = false → Acts (.jtagDebugAccess (.stepEngine e)) s fun t => t = s)
        ∧ Acts (.jtagDebugAccess (.haltCore rc)) s (fun t => ∃ v, t = s.updDbg (fun d => { d with rcHalted := v })
            ∧ ∀ k < 4, v.getLsbD k = if k = rc.val then true else d.rcHalted.getLsbD k)
        ∧ Acts (.jtagDebugAccess (.resumeCore rc)) s (fun t => ∃ v, t = s.updDbg (fun d => { d with rcHalted := v })
            ∧ ∀ k < 4, v.getLsbD k = if k = rc.val then false else d.rcHalted.getLsbD k))
      ∧ Acts (.jtagDebugAccess (.stepCore rc)) s (fun t => t = s)
      ∧ (cur < 3 → Acts (.jtagDebugAccess (.writeXr off bs)) s (fun t => t = s) ∧ Acts (.jtagDebugAccess (.extest pins)) s fun t => t = s)
      ∧ (cur = 3 →
        (off.toNat + bs.length ≤ 0x900000 ∨ (0x910000 ≤ off.toNat ∧ off.toNat + bs.length ≤ 0x275C000) → s.xr.bad = [] →
          Acts (.jtagDebugAccess (.writeXr off bs)) s fun t => t = s.updXr fun x => x.write off.toNat bs)
        ∧ ((∃ k < bs.length, (0x900000 ≤ off.toNat + k ∧ off.toNat + k < 0x910000) ∨ 0x275C000 ≤ off.toNat + k) →
          Acts (.jtagDebugAccess (.writeXr off bs)) s fun t => t = s)
        ∧ (Acts (.jtagDebugAccess (.extest pins)) s fun t => ∃ l, t = s.updDbg (fun d => { d with extest := l })
            ∧ ∀ q, q ∈ l ↔ q ∈ pins ∧ ((∃ p k, q.1 = .pwm p k) ∨ ∃ k, q.1 = .other k))))

/-! ### Waymark (chapter 16) -/

/-- R485 to R491, R494, R495, Tables 16.3, 16.4: what Waymark takes in, stores and loses: the sample of a channel, a record that goes into
the buffer, gaps, and the end of a run. -/
def Obligations.WaymarkRecords : Prop :=
  ∀ (s : State) (ch : Fin 1024) (t : BitVec 64) (tap : Fin 32) (c : WmChan) (n : Fin 32) (b : Fin 8) (kind sub tt value chan B k : Nat)
      (rest : List WmItem) (g : WmGap),
    let w := s.wm
    let cap := s.dv P.dvWmBufbytes / 16
    let recording := w.st = .running ∨ w.st = .post
    let ring := w.run.mode = 0
    let stream := w.run.mode = 1
    let x : WmLast := (assocGet? w.last ch.val).getD { prev := none, recd := 0, at_ := 0, resync := true }
    let used := assocGet? w.run.chans ch.val = some c
    let inTime := 2 * w.start ≤ 5 * t.toNat ∧ ∀ e, w.stopAt = some e → 5 * t.toNat < 2 * e
    let probe := used ∧ c.src = 4 ∧ c.qty = 0 ∧ c.inst = n.val
    let level := b2n (s.probes[n]).level
    let event (u : State) (kind info stamp : Nat) : State :=
      u.event 0xE006 0xFFFF (leBytes 1 kind ++ leBytes 1 info ++ zeros 2 ++ leBytes 4 u.wm.buf.length ++ leBytes 8 stamp)
    let seen (v : Nat) (put : Bool) : List (Nat × WmLast) := assocSet w.last ch.val
      { prev := some v, recd := if put then v else x.recd, at_ := if put then t.toNat else x.at_, resync := x.resync && !put }
    let more (g : Option WmGap) (n t : Nat) : WmGap := match g with
      | none => ⟨n, t, t⟩
      | some g => ⟨g.n + n, min g.first t, max g.last t⟩
    -- samples that are not taken
    (assocGet? w.run.chans ch.val = none ∨ ¬ recording ∨ ¬ inTime → Acts (.waymarkSampleIntake ch t tap) s fun u => u = s)
    -- a FIFO that is full
    ∧ (probe → recording → inTime → 1024 ≤ w.fifo.length → Acts (.waymarkSampleIntake ch t tap) s fun u =>
        u = s.updWm fun y => { y with gapIn := some (more w.gapIn 1 t.toNat), lost := min (2 ^ 32 - 1) (w.lost + 1) })
    -- an edge of a probe, and an edge trigger
    ∧ (probe → recording → inTime → w.fifo.length < 1024 → w.gapIn = none →
      let edge := WmItem.record ch.val 1 (tap.val + 32 * b2n x.resync) t.toNat level
      let cond := (w.run.cond = 3 ∧ level = 1) ∨ (w.run.cond = 4 ∧ level = 0) ∨ w.run.cond = 5
      let fires := w.run.trig = 1 ∧ w.run.trigChan = ch.val ∧ cond ∧ w.st = .running ∧ w.trigged = false
      (¬ fires → Acts (.waymarkSampleIntake ch t tap) s fun u => u = s.updWm fun y => { y with fifo := y.fifo ++ [edge], last := seen level true })
      ∧ (fires → Acts (.waymarkSampleIntake ch t tap) s fun u => u = event (s.updWm fun y => { y with
          fifo := y.fifo ++ [edge, WmItem.record ch.val 4 1 t.toNat level], last := seen level true, trigged := true, st := .post })
          1 0 (t.toNat * 5 / 2)))
    -- a numeric channel: the voltage of a bus
    ∧ (used → c.src = 3 → c.qty = 0 → c.inst = b.val → recording → inTime → w.fifo.length < 1024 → w.gapIn = none → w.run.trig ≠ 1 →
        (∀ k : Fin 8, (w.run.masks[k]).xkind = 0 ∨ (w.run.masks[k]).chan ≠ ch.val) →
      let v := (ratToFp (s.buses[b]).v).toNat
      let gapV : Rat := fpToRat (BitVec.ofNat 32 v) - fpToRat (BitVec.ofNat 32 x.recd)
      let moved := if c.dead % 2 ^ 31 = 0 then gapV ≠ 0
        else fpToRat (BitVec.ofNat 32 c.dead) < fp32 (if gapV < 0 then -gapV else gapV)
      let due := w.run.refresh ≠ 0 ∧ x.prev ≠ none ∧ x.at_ + w.run.refresh * 400000 ≤ t.toNat
      (x.resync = true ∨ due ∨ moved → Acts (.waymarkSampleIntake ch t tap) s fun u => ∃ f : Bool, (f = true ↔ due ∧ x.resync = false)
        ∧ u = s.updWm fun y => { y with
            fifo := y.fifo ++ [WmItem.record ch.val 0 (32 * b2n x.resync + 64 * b2n f) t.toNat v], last := seen v true })
      ∧ (x.resync = false → ¬ due → ¬ moved → Acts (.waymarkSampleIntake ch t tap) s fun u => u = s.updWm fun y => { y with last := seen v false }))
    -- a record goes into the buffer
    ∧ (let next := w.fifo = WmItem.record chan kind sub tt value :: rest
      let d : Int := (tt : Int) - (B * 2 / 5 : Nat)
      let plain := recording ∧ next ∧ w.gap = none ∧ w.stepped = false ∧ w.base = some B ∧ -(2 ^ 31) ≤ d ∧ d < 2 ^ 31
      let stored : Wm := { w with
        fifo := rest, buf := w.buf ++ [⟨chan, kind, sub, d, value⟩], notified := false, wrote := w.wrote + 1
        postCount := if kind = 4 then some 0 else w.postCount.map (· + 1) }
      (¬ recording → Acts .waymarkRecordWrite s fun u => u = s)
      ∧ (recording → w.fifo = [] → w.gap = none → Acts .waymarkRecordWrite s fun u => u = s)
      ∧ (plain → w.st = .running → w.buf.length < cap → ring ∨ (stream
        ∧ w.run.notify = 0) → Acts .waymarkRecordWrite s fun u => u = s.updWm fun _ => stored)
      ∧ (plain → w.st = .running → w.buf.length = cap → 0 < cap → ring → Acts .waymarkRecordWrite s fun u =>
          u = s.updWm fun _ => { stored with buf := stored.buf.drop 1 })
      ∧ (plain → w.st = .running → w.buf.length < cap → stream → 0 < w.run.notify → w.run.notify = w.buf.length + 1 → w.notified = false →
          Acts .waymarkRecordWrite s fun u => u = event (s.updWm fun _ => { stored with notified := true }) 3 0 s.now)
      ∧ (plain → cap ≤ w.buf.length → stream → w.run.notify = 0 → Acts .waymarkRecordWrite s fun u => u = s.updWm fun y => { y with
          fifo := rest, gap := some ⟨1, tt, tt⟩, lost := min (2 ^ 32 - 1) (w.lost + 1), notified := false
          last := w.last.map fun z => (z.1, { z.2 with resync := true }) })
      -- the last record after a trigger
      ∧ (plain → w.st = .post → w.postCount = some k → kind ≠ 4 → k + 1 < w.run.nPost → w.buf.length < cap → ring →
          Acts .waymarkRecordWrite s fun u => u = s.updWm fun _ => stored)
      ∧ (plain → w.st = .post → w.postCount = some k → kind ≠ 4 → w.run.nPost ≤ k + 1 → w.buf.length + 1 < cap → ring →
          Acts .waymarkRecordWrite s fun u => u.wm.st = .stopped ∧ u.wm.fifo = []
            ∧ ∃ dt, u.wm.buf = (stored.buf ++ ([⟨0xFFFF, 6, 1, dt, 0⟩] : List WmRec)).drop
            (w.buf.length + 2 - (w.run.nPre + 1 + (k + 1) + 1)))
      -- a gap
      ∧ (w.st = .running → w.fifo = [] → w.gap = some g → w.buf.length + 2 ≤ cap → stream → w.stepped = false →
          s.mayRaise 0xE006 5 = false → g.n < 2 ^ 32 → Acts .waymarkRecordWrite s fun u => ∃ dt span, span = ((g.last - g.first) * 5 / 2 + 999) / 1000
            ∧ (span < 2 ^ 32 → u = s.draw.2.updWm fun y => { y with
              buf := w.buf ++ [⟨0xFFFF, 2, 0, dt, g.n + 2 ^ 32 * span⟩, ⟨0xFFFF, 3, 0, 0, s.now / 5 * 5⟩], base := some (s.now / 5 * 5), wrote := w.wrote + 2
              postCount := w.postCount.map (· + 2), last := w.last.map (fun z => (z.1, { z.2 with resync := true })), gap := none })))
    -- 1 ms after a stop
    ∧ (¬ recording ∨ w.stopAt = none ∨ (∃ e, w.stopAt = some e ∧ s.now < e + 1000000) → Acts .traceStopWaitEnd s fun u => u = s)
    ∧ (recording → (∃ e, w.stopAt = some e ∧ e + 1000000 ≤ s.now) → w.fifo = [] → w.gapIn = none → w.buf.length < cap → ring ∨ stream →
        Acts .traceStopWaitEnd s fun u => ∃ dt keep,
          (∀ k, ring → w.postCount = some k → keep = w.run.nPre + 1 + k + 1) ∧ (stream ∨ w.postCount = none → keep = w.buf.length + 1)
          ∧ u = event (s.draw.2.updWm fun y => { y with
            st := .stopped, stopAt := none, fifo := [], gap := none, cursor := 0, postCount := w.postCount.map (· + 1), wrote := w.wrote + 1
            buf := (w.buf ++ ([⟨0xFFFF, 6, 2, dt, 0⟩] : List WmRec)).drop (w.buf.length + 1 - keep) }) 2 2 s.now)

/-- R492, R493, R498, R499, Tables 16.5 to 16.8: `TRACE_SETUP`, `TRACE_START`, `TRACE_STOP` and `TRACE_READ`. -/
def Obligations.WaymarkCommands : Prop :=
  ∀ (s : State) (p : Packet) (mode trig tc cond lvl nPre nPost refr ntf src qty inst dead first n f k : Nat) (q : Fin 8),
    let w := s.wm
    let cap := s.dv P.dvWmBufbytes / 16
    let recording := w.st = .running ∨ w.st = .post
    -- not finite
    let nan (v : Nat) : Prop := v / 2 ^ 23 % 256 = 255
    let small := mode < 256 ∧ trig < 256 ∧ tc < 65536 ∧ cond < 256 ∧ lvl < 2 ^ 32 ∧ nPre < 2 ^ 32 ∧ nPost < 2 ^ 32 ∧ refr < 65536
      ∧ ntf < 2 ^ 32
    -- `TRACE_SETUP`: the general settings
    (Served p 0x0601 s → small → p.args = zeros 4 ++ (leBytes 1 mode ++ leBytes 1 trig ++ leBytes 2 tc ++ leBytes 1 cond ++ zeros 3
        ++ leBytes 4 lvl ++ leBytes 4 nPre ++ leBytes 4 nPost ++ leBytes 2 refr ++ zeros 2 ++ leBytes 4 ntf ++ zeros 4) →
      (1 < mode ∨ 2 < trig ∨ 5 < cond → Sends (.traceSetup p) p s (Refused p 0x0601 s .range 0))
      ∧ (mode ≤ 1 → trig ≤ 2 → cond ≤ 5 →
        (1024 ≤ tc ∨ nan lvl ∨ 10000 < refr → Sends (.traceSetup p) p s (Refused p 0x0601 s .range 0x0102))
        ∧ (tc < 1024 → ¬ nan lvl → refr ≤ 10000 →
          (recording → Sends (.traceSetup p) p s (Refused p 0x0601 s .state 0x0101))
          ∧ (¬ recording → Sends (.traceSetup p) p s fun t => Ok p 0x0601 s (s.updWm fun y => { y with setup := { y.setup with
              mode := mode, trig := trig, trigChan := tc, cond := cond, level := lvl, nPre := nPre, nPost := nPost, refresh := refr,
              notify := ntf } }) t))))
    -- one channel descriptor
    ∧ (Served p 0x0601 s → src < 256 → qty < 256 → inst < 65536 → dead < 2 ^ 32 → first < 65536 →
        p.args = leBytes 1 1 ++ zeros 1 ++ leBytes 2 first ++ (leBytes 1 src ++ leBytes 1 qty ++ leBytes 2 inst ++ leBytes 4 dead) →
      let known := (src = 1 ∧ qty ≤ 13 ∧ inst < 512) ∨ (src = 2 ∧ qty ≤ 9 ∧ inst < 64) ∨ (src = 3 ∧ qty ≤ 1 ∧ inst < 8)
        ∨ (src = 4 ∧ qty = 0 ∧ inst < 32) ∨ (src = 5 ∧ qty = 0 ∧ inst < 192) ∨ (src = 6 ∧ qty = 0 ∧ inst < 32) ∨ (src = 7 ∧ qty = 0
          ∧ inst < 32)
      let numeric := (src = 1 ∧ qty ≤ 10) ∨ (src = 2 ∧ qty ≤ 8) ∨ (src = 3 ∧ qty = 0)
      let band := if numeric then ¬ nan dead ∧ (dead < 2 ^ 31 ∨ dead = 2 ^ 31) else dead % 2 ^ 31 = 0
      let plain := ¬ nan dead ∧ (dead < 2 ^ 31 ∨ dead = 2 ^ 31)
      (1024 ≤ first → Sends (.traceSetup p) p s (Refused p 0x0601 s .range 0x0101))
      ∧ (first < 1024 → src = 0 → ¬ plain → Sends (.traceSetup p) p s (Refused p 0x0601 s .range 0x0102))
      ∧ (first < 1024 → 7 < src → Sends (.traceSetup p) p s (Refused p 0x0601 s .range 0))
      ∧ (first < 1024 → src ≠ 0 → src ≤ 7 → ¬ known ∨ ¬ band → Sends (.traceSetup p) p s (Refused p 0x0601 s .range 0x0102))
      ∧ (first < 1024 → (src = 0 ∧ plain) ∨ (known ∧ band) → ¬ recording →
        Sends (.traceSetup p) p s fun t => Ok p 0x0601 s (s.updWm fun y => { y with setup :=
          { y.setup with chans := if src = 0 then assocErase y.setup.chans first else assocSet y.setup.chans first ⟨src, qty, inst, dead⟩ } }) t))
    -- one point of a mask
    ∧ (Served p 0x0601 s → first < 65536 → ∀ (v : Int) (lo hi : Nat), lo < 2 ^ 32 → hi < 2 ^ 32 → -(2 ^ 63) ≤ v → v < 2 ^ 63 →
        p.args = leBytes 1 3 ++ leBytes 1 q.val ++ leBytes 2 first ++ (leInt 8 v ++ leBytes 4 lo ++ leBytes 4 hi) →
      let ok := ¬ nan lo ∧ ¬ nan hi ∧ fpToRat (BitVec.ofNat 32 lo) ≤ fpToRat (BitVec.ofNat 32 hi)
      (512 ≤ first → Sends (.traceSetup p) p s (Refused p 0x0601 s .range 0x0101))
      ∧ (first < 512 → ¬ ok → Sends (.traceSetup p) p s (Refused p 0x0601 s .range 0x0102))
      ∧ (first < 512 → ok → ¬ recording → Sends (.traceSetup p) p s fun t =>
        let masks := upd w.setup.masks q fun m => { m with points := assocSet m.points first (v, lo, hi) }
        Ok p 0x0601 s (s.updWm fun y => { y with setup := { y.setup with masks := masks } }) t))
    -- `TRACE_START`
    ∧ (Served p 0x0602 s → p.args = zeros 4 →
      let z := w.setup
      let noMasks := ∀ k : Fin 8, (z.masks[k]).xkind = 0
      (recording → Sends (.traceStart p) p s (Refused p 0x0602 s .state 0x0101))
      ∧ (¬ recording → z.trig = 1 → assocGet? z.chans z.trigChan = none → Sends (.traceStart p) p s (Refused p 0x0602 s .range 0x0103))
      ∧ (¬ recording → z.trig ≠ 1 → noMasks → z.mode = 0 → cap < z.nPre + z.nPost + 2048 →
        Sends (.traceStart p) p s (Refused p 0x0602 s .range 0x0104))
      ∧ (¬ recording → z.trig ≠ 1 → noMasks → z.mode ≠ 0 ∨ z.nPre + z.nPost + 2048 ≤ cap → Sends (.traceStart p) p s fun t =>
          Ok p 0x0602 s (s.updWm fun _ => { setup := z, run := z, st := .running, start := s.now, base := some (s.now / 5 * 5), wrote := 1,
                                            buf := [⟨0xFFFF, 3, 0, 0, s.now / 5 * 5⟩] }) t))
    -- `TRACE_STOP`
    ∧ (Served p 0x0603 s → n < 256 → p.args = leBytes 1 n ++ zeros 3 →
      (1 < n → Sends (.traceStop p) p s (Refused p 0x0603 s .range 0))
      ∧ (n ≤ 1 → ¬ recording → Sends (.traceStop p) p s (Ok p 0x0603 s s))
      ∧ (n = 0 → recording → Sends (.traceStop p) p s fun t => Ok p 0x0603 s (s.updWm fun y => { y with stopAt := some (y.stopAt.getD s.now) }) t)
      ∧ (n = 1 → w.st = .post ∨ (w.st = .running ∧ w.trigged = true) → Sends (.traceStop p) p s (Ok p 0x0603 s s))
      ∧ (n = 1 → w.st = .running → w.trigged = false → Sends (.traceStop p) p s fun t => Ok p 0x0603 s
          ((s.updWm fun y => { y with fifo := y.fifo ++ [WmItem.record 0xFFFF 4 3 (s.now * 2 / 5) 0], trigged := true, st := .post }).event
            0xE006 0xFFFF (leBytes 1 1 ++ leBytes 1 0 ++ zeros 2 ++ leBytes 4 w.buf.length ++ leBytes 8 (s.now * 2 / 5 * 5 / 2))) t))
    -- `TRACE_READ`
    ∧ (Served p 0x0604 s → n < 65536 → f < 256 → p.args = leBytes 2 n ++ leBytes 1 f ++ zeros 1 →
      let limit := if s.versionOf p = 1 then 62 else 254
      let rec16 (r : WmRec) : List Byte := leBytes 2 r.chan ++ leBytes 1 r.kind ++ leBytes 1 r.sub ++ leInt 4 r.dt ++ leBytes 8 r.value
      let reply (at_ : Nat) : List Byte := let out := (w.buf.drop at_).take n
        let left := w.buf.length - at_ - out.length
        leBytes 2 out.length ++ leBytes 2 ((if left = 0 then 0 else 1) + (if w.st = .stopped then 2 else 0)) ++ leBytes 4 left
          ++ leBytes 4 w.lost ++ out.flatMap rec16
      (n = 0 ∨ limit < n ∨ 1 < f → Sends (.traceRead p) p s (Refused p 0x0604 s .range 0))
      ∧ (1 ≤ n → n ≤ limit → f ≤ 1 →
        (w.run.mode ≠ 1 → w.st ≠ .stopped → Sends (.traceRead p) p s (Refused p 0x0604 s .state 0x0102))
        ∧ (w.run.mode ≠ 1 → w.st = .stopped → Sends (.traceRead p) p s fun t => let at_ := if f = 1 then 0 else w.cursor
            Replied p 0x0604 s .ok 0 (reply at_) (s.updWm fun y => { y with cursor := at_ + ((w.buf.drop at_).take n).length }) t)
        ∧ (w.run.mode = 1 → s.hasControl p = false → Sends (.traceRead p) p s (Tells p 0x0604 s (reply 0)))
        ∧ (w.run.mode = 1 → s.hasControl p = true → w.run.notify = 0 → Sends (.traceRead p) p s fun t =>
            Replied p 0x0604 s .ok 0 (reply 0) (s.updWm fun y => { y with buf := w.buf.drop n, notified := false }) t)))

/-! ### Faults (chapter 17) -/

/-- R500, R503, R507, R509, R518, Tables 1.9, 17.1, 17.2: what raising a fault does: its record, its event and the reaction on an
axis that is in no group; and the die temperature. -/
def Obligations.FaultReactions : Prop :=
  ∀ (s : State) (a : FaultArg) (i j : Fin 512) (code det : Nat) (v : BitVec 32),
    let f := s.faults
    let same (x : FaultRec) : Prop := x.code = a.code ∧ x.scope = a.scope ∧ x.unit = a.unit ∧ (x.scope = .axis → x.axis = a.axis)
    let room := f.table.length < 2048
    let new : FaultRec := { code := a.code, cls := a.cls, axis := a.axis, scope := a.scope, unit := a.unit, time := s.now, detail := a.detail
                            hostId := a.hostId, reach := a.reach, retried := a.retried, permanent := a.permanent
                            consequential := a.consequential, seq := f.crlog.next }
    let logged (l : FaultLog) (cap : Nat) (x : FaultRec) : FaultLog :=
      { recs := ({ x with seq := l.next } :: l.recs).take cap, next := (l.next + 1) % 65536
        overflow := if cap ≤ l.recs.length then (l.overflow + 1) % 2 ^ 32 else l.overflow }
    let kept := 4 ≤ a.cls ∨ a.code / 256 = 0x0B ∨ a.code / 256 = 0x0C ∨ a.code / 256 = 0x0D ∨ a.code = 0x0A05 ∨ a.permanent = true
    let flags := 1 + 4 * b2n a.retried + 8 * b2n a.permanent + 16 * b2n a.consequential
    let body := leBytes 2 a.code ++ leBytes 1 a.cls ++ leBytes 1 flags ++ leBytes 2 a.axis ++ leBytes 1 a.scope.code ++ leBytes 1 a.unit
      ++ leBytes 8 s.now ++ leBytes 4 a.detail ++ leBytes 2 0 ++ leBytes 2 f.crlog.next ++ leBytes 4 a.hostId ++ leBytes 4 0
    -- a fault without a reaction
    (f.cycle = none → a.cls ≤ 1 → (∀ x ∈ f.table, ¬ same x) → room → ∃ l : FaultLog, (kept → l = logged f.plog 64 new)
      ∧ (¬ kept → l = f.plog)
      ∧ s.raise a = (s.updFaults fun z => { z with table := new :: z.table, crlog := logged z.crlog 256 new, plog := l }).event
          0xE002 a.axis body)
    -- the reactions of an axis that is in no group
    ∧ (let up (cls : Nat) : State := s.raise { code := code, cls := cls, scope := .axis, axis := i.val, detail := det }
      let x := s.axes[i]
      let fresh := (∀ y ∈ f.table, ¬ (y.code = code ∧ y.scope = .axis ∧ y.unit = 0 ∧ y.axis = i.val)) ∧ room ∧ s.bound i = true
        ∧ s.ax P.axGroup i = 0 ∧ code ≠ 0x040C ∧ x.handling < 4
      f.cycle = none → fresh →
      -- C4: `FAULT` at once, and a torque-off request for its port
      (x.st ≠ .retired → ((up 4).axes[i]).st = .fault) ∧ (x.st = .retired → ((up 4).axes[i]).st = .retired)
      ∧ (∀ q : Fin 64, ((up 4).ports[q]).offFault = ((s.ports[q]).offFault || decide (s.portOf i = some q)))
      ∧ (∀ q : Fin 64, s.portOf i ≠ some q → (up 4).ports[q] = s.ports[q])
      -- C2 and C3: a controlled or a quick stop of an axis that moves, `FAULT` for one that stands
      ∧ (x.st = .disabled ∨ x.st = .ready ∨ x.st = .enabledIdle → x.handling = 0 →
          ((up 2).axes[i]).st = .fault ∧ ((up 3).axes[i]).st = .fault ∧ (up 2).ports = s.ports ∧ (up 3).ports = s.ports)
      ∧ (x.st = .moving ∨ x.st = .homing → x.handling = 0 →
          ((up 2).axes[i]).st = .stopping ∧ ((up 2).axes[i]).stop = .controlled ∧ ((up 2).axes[i]).handling = 2
          ∧ ((up 3).axes[i]).st = .stopping ∧ ((up 3).axes[i]).stop = .quick ∧ ((up 3).axes[i]).handling = 3)
      -- a fault in handling: a higher class takes over, an equal or lower one is merged
      ∧ (x.st = .stopping → x.stop = .controlled → x.handling = 2 →
          ((up 3).axes[i]).stop = .quick ∧ ((up 3).axes[i]).handling = 3 ∧ ((up 4).axes[i]).st = .fault
          ∧ (up 2).axes = s.axes ∧ ((up 2).faults.table.head?).map (·.merged) = some true)
      ∧ (x.st = .fault → (up 2).axes = s.axes ∧ (up 4).axes = s.axes ∧ ((up 4).faults.table.head?).map (·.merged) = some true)
      -- no other axis reacts
      ∧ (i ≠ j → (up 2).axes[j] = s.axes[j] ∧ (up 3).axes[j] = s.axes[j] ∧ (up 4).axes[j] = s.axes[j]))
    -- the die temperature
    ∧ (f.cycle = none → Acts (.dieTempSample v) s fun t =>
        let T := fpToRat v
        let u : State := { s with dbg := { s.dbg with temp := T } }
        let dev (w : State) (code cls : Nat) : State :=
          if ∃ r ∈ f.table, r.code = code ∧ r.scope = .device ∧ r.unit = 0 then w
          else w.raiseNow { code := code, cls := cls, scope := .device }
        -- of the two the higher class goes first
        t = if T < 115 then u else if T < 125 then dev u 0x0D04 1 else dev (dev u 0x0D05 4) 0x0D04 1)
    -- the faults of one cycle act after it, in descending class and, of one class, in ascending code
    ∧ (∀ (g : State → State) (l : List FaultArg), f.cycle = none →
        let u := g (s.updFaults fun z => { z with cycle := some [] })
        u.faults.cycle = some l → ∃ m : List FaultArg, m.Perm l
          ∧ m.Pairwise (fun a b => b.cls < a.cls ∨ (b.cls = a.cls ∧ a.code ≤ b.code))
          ∧ s.axisCycle g = m.foldl State.raiseNow (u.updFaults fun z => { z with cycle := none }))
    ∧ (∀ l, f.cycle = some l → s.raise a = s.updFaults fun z => { z with cycle := some (l ++ [a]) })

/-- R504, R508: a fault that is active writes no new record and sends no event: it counts on the active record, and with a higher class
it acts again and raises the recorded class. The active table holds 2,048 records: when it is full, a new fault takes the place of the
oldest active record of the lowest class below its own, which counts as cleared; when no such record exists, the fault still acts, and
its log record carries `UNTRACKED`. `GROUP_FAULT` (R296) follows on the other members of a group in every case. -/
def Obligations.FaultRecords : Prop :=
  ∀ (s : State) (a : FaultArg) (r : FaultRec) (before after : List FaultRec),
    let f := s.faults
    let same (x : FaultRec) : Prop := x.code = a.code ∧ x.scope = a.scope ∧ x.unit = a.unit ∧ (x.scope = .axis → x.axis = a.axis)
    let group (u : State) : State := (s.groupVictims a).foldl (fun u v => u.raiseOne
      { code := 0x040C, cls := a.cls, scope := .axis, axis := v.2.val, detail := v.1.val }) u
    f.cycle = none →
    (f.table = before ++ r :: after → same r → (∀ x ∈ before ++ after, ¬ same x) →
      let again : FaultRec := { r with repeats := min (r.repeats + 1) 65535 }
      let put (x : FaultRec) : State := s.updFaults fun z => { z with table := before ++ x :: after }
      (a.cls ≤ r.cls → s.raise a = put again)
      ∧ (r.cls < a.cls → s.raise a = group ((put { again with cls := a.cls }).react { again with cls := a.cls })))
    ∧ (f.table.length ≤ 2048 → (s.raise a).faults.table.length ≤ 2048)
    ∧ (f.table.length = 2048 → (∀ x ∈ f.table, ¬ same x) →
      (f.table = before ++ r :: after → r.cls < a.cls → (∀ x ∈ before, r.cls ≤ x.cls) → (∀ x ∈ after, r.cls < x.cls) → r ∉ before →
        let u : State := (s.clearRec r).raiseOne a
        s.raise a = group (if 2 ≤ r.cls then u.afterClear else u))
      ∧ ((∀ x ∈ f.table, a.cls ≤ x.cls) →
        let acts : FaultRec := { code := a.code, cls := a.cls, axis := a.axis, scope := a.scope, unit := a.unit, time := s.now
                                 detail := a.detail, reach := a.reach }
        let merged : Bool := (List.finRange 512).any fun i => s.reachesAxis acts i && s.merges i a.cls
        s.raise a = group ((s.logRec { acts with hostId := a.hostId, merged := merged, retried := a.retried, permanent := a.permanent
                                                 consequential := a.consequential, untracked := true, active := false }).react acts)))

/-- R128, R506, R507, R509, R513, R519, Tables 3.27, 17.5: `FAULT_READ`, `FAULT_ACK` and `RETIRE_STATUS`. -/
def Obligations.FaultCommands : Prop :=
  ∀ (s : State) (p : Packet) (log first count ax code : Nat) (r : FaultRec) (c : Fin 4) (q : Fin 64) (i : Fin 512),
    let f := s.faults
    let bytes (r : FaultRec) : List Byte := leBytes 2 r.code ++ leBytes 1 r.cls
      ++ leBytes 1 (b2n r.active + 2 * b2n r.merged + 4 * b2n r.retried + 8 * b2n r.permanent + 16 * b2n r.consequential
        + 32 * b2n r.prior + 64 * b2n r.untracked)
      ++ leBytes 2 r.axis ++ leBytes 1 r.scope.code ++ leBytes 1 r.unit ++ leBytes 8 r.time ++ leBytes 4 r.detail ++ leBytes 2 r.repeats
      ++ leBytes 2 r.seq ++ leBytes 4 r.hostId ++ leBytes 4 r.clearMs
    -- `FAULT_READ`
    (Served p 0x0901 s → log < 256 → first < 65536 → count < 65536 → ax < 65536 →
        p.args = leBytes 1 log ++ zeros 1 ++ leBytes 2 first ++ leBytes 2 count ++ leBytes 2 ax →
      let most := if s.versionOf p = 1 then 31 else 127
      let recs := if log = 0 then f.crlog.recs else if log = 1 then f.plog.recs else f.table
      let lost := if log = 0 then f.crlog.overflow else if log = 1 then f.plog.overflow else 0
      let sel := recs.filter fun r => decide (ax = 65535 ∨ r.axis = ax)
      let out := (sel.drop first).take count
      let bad := 2 < log ∨ count = 0 ∨ most < count ∨ (512 ≤ ax ∧ ax ≠ 65535)
      (bad → Sends (.faultRead p) p s (Refused p 0x0901 s .range 0))
      ∧ (¬ bad → s.boot.recovery = true → log ≠ 1 → Sends (.faultRead p) p s (Refused p 0x0901 s .state 0x00FF))
      ∧ (¬ bad → s.boot.recovery = false ∨ log = 1 → Sends (.faultRead p) p s (Tells p 0x0901 s
          (leBytes 2 sel.length ++ leBytes 2 out.length ++ leBytes 4 lost ++ out.flatMap bytes))))
    -- `FAULT_ACK`
    ∧ (Served p 0x0902 s → ax < 65536 → code < 65536 → p.args = leBytes 2 ax ++ leBytes 2 code →
      let names (r : FaultRec) : Prop := (ax = 65535 ∨ ∃ i : Fin 512, i.val = ax ∧ s.reachesAxis r i = true) ∧ (code = 0 ∨ r.code = code)
      let valid := ax < 512 ∨ ax = 65535
      let cleared : FaultRec := { r with active := false, clearMs := min ((s.now - r.time) / 1000000) (2 ^ 32 - 1) }
      let u : State := ((s.updFaults fun z => { z with table := [] }).logRec cleared)
      (¬ valid → Sends (.faultAck p) p s (Refused p 0x0902 s .range 0))
      ∧ (valid → (∀ x ∈ f.table, ¬ names x) → Sends (.faultAck p) p s (Ok p 0x0902 s s.afterClear))
      -- a cause that never persists, one that persists, one that only a reset clears
      ∧ (valid → f.table = [r] → names r → r.code = 0x0903 ∨ r.code = 0x0A01 ∨ r.code = 0x0A03 ∨ r.code = 0x0C05 ∨ r.code = 0x0B03 →
          Sends (.faultAck p) p s (Ok p 0x0902 s u.afterClear))
      ∧ (valid → f.table = [r] → names r → r.code = 0x0D04 →
        (s.dbg.temp ≤ 110 → Sends (.faultAck p) p s (Ok p 0x0902 s u.afterClear))
        ∧ (110 < s.dbg.temp → Sends (.faultAck p) p s (Replied p 0x0902 s .clearRefused 0x0D04 [] s.afterClear)))
      ∧ (valid → f.table = [r] → names r → r.code = 0x070C ∨ r.code = 0x070E ∨ r.code = 0x0A06 ∨ r.code = 0x0C02 →
          Sends (.faultAck p) p s (Replied p 0x0902 s .clearRefused r.code [] s.afterClear))
      -- recovery of a CAN controller that waits for it (R452)
      ∧ (valid → f.table = [r] → names r → r.code = 0x0901 → r.unit = c.val → (s.can[c]).st = .busOff → s.dv P.dvCanBorecov c.val = 1 →
          Sends (.faultAck p) p s (Ok p 0x0902 s (u.updCan c fun x => { x with st := .recovering, runs := 0 }).afterClear)))
    -- what follows a clear
    ∧ ((s.afterClear.ports[q]).offFault = ((s.ports[q]).offFault
        && decide (∃ r ∈ f.table, s.reachesPort r q = true)))
    ∧ ((s.axes[i]).st = .fault → (∃ r ∈ f.table, 2 ≤ r.cls ∧ s.reachesAxis r i = true) → (s.afterClear.axes[i]).st = .fault)
    ∧ ((s.axes[i]).st = .fault → (∀ r ∈ f.table, 2 ≤ r.cls → s.reachesAxis r i = false) →
        (s.afterClear.axes[i]).st = .ready ∨ (s.afterClear.axes[i]).st = .disabled)
    -- `RETIRE_STATUS`
    ∧ (Served p 0x0903 s → p.args = [] → Sends (.retireStatus p) p s fun t => ∃ d : List Byte, Tells p 0x0903 s d t ∧ d.length = 40
        ∧ (f.enginesRetired < 2 ^ 24 → u32 d 0 = f.enginesRetired)
        ∧ (∀ e : Fin 24, (u32 d 4).testBit e.val = decide ((s.eng[e]).role = .shoulder))
        ∧ (f.portsRetired < 2 ^ 64 → u64 d 8 = f.portsRetired) ∧ (f.fbRetired < 2 ^ 64 → u64 d 16 = f.fbRetired)
        ∧ u8 d 24 = ((s.xr.retired.map (·.val)).getD 255)
        ∧ u8 d 25 = ((List.finRange 24).filter fun e => (s.eng[e]).role == .shoulder).length
        ∧ (f.migrations < 65536 → u16 d 26 = f.migrations) ∧ (f.totalUpsets < 2 ^ 32 → u32 d 28 = f.totalUpsets)
        ∧ (f.lastRetire < 2 ^ 64 → u64 d 32 = f.lastRetire))

/-! ### Firmware and programs (chapters 2, 3, 5) -/

/-- R68 to R72, R129, R130, Table 3.28: firmware update: the slot, the data, the end of an update, and what activates, confirms or
reverts it. -/
def Obligations.FirmwareUpdate : Prop :=
  ∀ (s : State) (p : Packet) (n crc off act : Nat) (d : List Byte) (f : FwUpdate) (r : CmdRef) (slot : Fin 2) (m : BitVec 17) (tp bw : ImageFacts),
    let b := s.boot
    let inUse : Fin 2 := if (b.dirs[0]).valid = false then 1 else if (b.dirs[1]).valid = false then 0
      else if (b.dirs[0]).seq < (b.dirs[1]).seq then 1 else 0
    let dir := b.dirs[inUse]
    let other (k : Fin 2) : Fin 2 := if k = 0 then 1 else 0
    -- the directory is written into the copy not in use
    let written (g : Directory → Directory) (y : Boot) : Boot :=
      { y with dirs := upd b.dirs (other inUse) fun _ => { g dir with valid := true, seq := dir.seq + 1 } }
    let open_ (g : FwUpdate) : State := s.updBoot fun y => { y with fw := some g }
    -- the target slot holds these bytes
    let hold (bs : List Byte) (u : State) : State := u.updBoot fun y => { y with slots := upd b.slots f.target fun _ => some bs }
    let enabled := ∃ i : Fin 512, (s.axes[i]).st = .enabledIdle ∨ (s.axes[i]).st = .moving ∨ (s.axes[i]).st = .homing
      ∨ (s.axes[i]).st = .stopping
    let ref (op : Nat) := s.refOf (asOp p op)
    -- `FW_BEGIN`
    (Served p 0x0A01 s → n < 2 ^ 32 → p.args = leBytes 4 n ++ zeros 4 →
      (b.fw.isSome = true → Sends (.fwBegin p) p s (Refused p 0x0A01 s .busy 0x0003))
      ∧ (b.fw = none → n < 272 ∨ 15728640 < n ∨ n % 4 ≠ 0 → Sends (.fwBegin p) p s (Refused p 0x0A01 s .range 0))
      ∧ (b.fw = none → 272 ≤ n → n ≤ 15728640 → n % 4 = 0 →
        (b.onTrial = true ∨ dir.trial.isSome = true → Sends (.fwBegin p) p s (Refused p 0x0A01 s .state 0x0102))
        ∧ (b.onTrial = false → dir.trial = none → Sends (.fwBegin p) p s fun t => Accepted p 0x0A01 s
            (s.updBoot fun y => { y with fw := some { target := other dir.active, total := n, ref := ref 0x0A01 }, fwPassed := none }) t)))
    ∧ (b.fw = none ∨ (b.fw = some f ∧ f.erased = true) → Acts .slotEraseComplete s fun t => t = s)
    ∧ (b.fw = some f → f.erased = false → Acts .slotEraseComplete s fun t =>
        t = (hold [] (open_ { f with erased := true })).complete f.ref .done 0 s.now)
    -- `FW_DATA`
    ∧ (Served p 0x0A02 s → off < 2 ^ 32 → 4 ≤ d.length → d.length ≤ 4076 → p.args = leBytes 4 off ++ d →
      (b.fw = none ∨ (b.fw = some f ∧ f.ending = true) → Sends (.fwData p) p s (Refused p 0x0A02 s .state 0x0103))
      ∧ (b.fw = some f → f.ending = false →
        (off ≠ f.got.length → Sends (.fwData p) p s (Refused p 0x0A02 s .range 0x0101))
        ∧ (off = f.got.length → f.total < off + d.length → Sends (.fwData p) p s (Refused p 0x0A02 s .range 0x0102))
        ∧ (off = f.got.length → off + d.length ≤ f.total → 65536 < f.staged + d.length →
            Sends (.fwData p) p s (Refused p 0x0A02 s .queueFull 0x0003))
        ∧ (off = f.got.length → off + d.length ≤ f.total → f.staged + d.length ≤ 65536 → Sends (.fwData p) p s fun t =>
            Ok p 0x0A02 s (open_ { f with got := f.got ++ d, staged := f.staged + d.length }) t)))
    ∧ (b.fw = none ∨ (b.fw = some f ∧ f.erased = false) → Acts (.stagingBufferWritten m) s fun t => t = s)
    ∧ (b.fw = some f → f.erased = true → Acts (.stagingBufferWritten m) s fun t =>
        t = hold (f.got.take (f.got.length - (f.staged - m.toNat))) (open_ { f with staged := f.staged - m.toNat }))
    -- `FW_END`
    ∧ (Served p 0x0A03 s → n < 2 ^ 32 → crc < 2 ^ 32 → p.args = leBytes 4 n ++ leBytes 4 crc →
      (b.fw = none ∨ (b.fw = some f ∧ f.ending = true) → Sends (.fwEnd p) p s (Refused p 0x0A03 s .state 0x0103))
      ∧ (b.fw = some f → f.ending = false →
        (f.got.length < f.total ∨ n ≠ f.total → Sends (.fwEnd p) p s fun t =>
            Replied p 0x0A03 s .range 0x0103 [] (s.updBoot fun y => { y with fw := none }) t)
        ∧ (f.total ≤ f.got.length → n = f.total → Sends (.fwEnd p) p s fun t => Accepted p 0x0A03 s
            (open_ { f with ending := true, ref := ref 0x0A03, crc := crc }) t)))
    ∧ (b.fw = none ∨ (b.fw = some f ∧ (f.ending = false ∨ f.erased = false)) → Acts (.slotProgramComplete tp bw) s fun t => t = s)
    ∧ (b.fw = some f → f.ending = true → f.erased = true → f.got = d →
      -- the checks of an image in their order
      let head (byway : Bool) (im : List Byte) : Prop := 272 ≤ im.length ∧ u32 im 0 = 0x4D495853 ∧ u16 im 4 = 1
        ∧ u16 im 6 = (if byway then 2 else 1) ∧ u32 im 8 ≤ 64 ∧ u32 im 12 ≤ (if byway then 0x800000 else 0x18000)
        ∧ 272 + u32 im 12 ≤ im.length ∧ u32 im 16 + u32 im 12 ≤ (if byway then 0x800000 else 0x20000) ∧ u32 im 20 < u32 im 12
        ∧ u8 im 24 ≤ 3 ∧ rsvZero im 25 7 = true
      let verdict (byway : Bool) (im : List Byte) (x : ImageFacts) : Nat :=
        if ¬ head byway im then 2
        else if x.key = false ∨ s.dbg.revoked.getLsbD (u8 im 24) = true then 3
        else if x.sig = false then 4
        else if x.hash = false then 5
        else if u32 im 8 < (if byway then b.rollBw else b.rollTp) then 6 else 0
      let second := d.drop ((272 + u32 d 12 + 4095) / 4096 * 4096)
      let det := if (crc32c d).toNat ≠ f.crc then 1 else if verdict false d tp ≠ 0 then verdict false d tp else verdict true second bw
      (det = 0 → Acts (.slotProgramComplete tp bw) s fun t =>
        t = (hold d <| s.updBoot fun y => { (written (fun g => { g with failed := g.failed &&& (3 - 2 ^ f.target.val) }) y) with
              fw := none, fwPassed := some f.target }).complete f.ref .done 0 s.now)
      ∧ (det ≠ 0 → Acts (.slotProgramComplete tp bw) s fun t =>
        t = (hold d <| s.updBoot fun y => { y with fw := none, fwPassed := none }).complete f.ref .denied
              (0x0100 + det) s.now))
    -- `FW_ACTIVATE`
    ∧ (Served p 0x0A04 s → act < 256 → p.args = leBytes 1 act ++ zeros 3 →
      (act = 0 ∨ 3 < act → Sends (.fwActivate p) p s (Refused p 0x0A04 s .range 0))
      ∧ (act = 1 → enabled → Sends (.fwActivate p) p s (Refused p 0x0A04 s .state 0x0104))
      ∧ (act = 1 → ¬ enabled → b.fwPassed = none → Sends (.fwActivate p) p s (Refused p 0x0A04 s .state 0x0105))
      ∧ (act = 1 → ¬ enabled → b.fwPassed = some slot → Sends (.fwActivate p) p s fun t => Ok p 0x0A04 s
          (s.updBoot fun y => { (written (fun g => { g with trial := some slot }) y) with fwReset := true }) t)
      ∧ (act = 2 ∨ act = 3 → b.onTrial = false → Sends (.fwActivate p) p s (Refused p 0x0A04 s .state 0x0106))
      ∧ (act = 2 → b.onTrial = true → Sends (.fwActivate p) p s fun t => Accepted p 0x0A04 s
          (s.updBoot fun y => { (written (fun g => { g with active := b.slot }) y) with confirm := some (ref 0x0A04) }) t)
      ∧ (act = 3 → b.onTrial = true → Sends (.fwActivate p) p s fun t =>
          Ok p 0x0A04 s (s.updBoot fun y => { y with fwReset := true }) t))
    -- the rollback counters follow the images that run
    ∧ (b.confirm = none → Acts .rollbackFuseComplete s fun t => t = s)
    ∧ (b.confirm = some r → Acts .rollbackFuseComplete s fun t => t = (s.updBoot fun y => { y with
        confirm := none, onTrial := false, rollTp := max b.rollTp b.secTp, rollBw := max b.rollBw b.secBw }).complete r .done 0 s.now)

/-- R146, R177, R180, R181, Tables 5.14, 5.17 to 5.20: the program store: `LEP_LOAD`, the end of an image's verification, `LEP_INFO`;
and the end of the migration of an engine's tasks.

The versions of the standard programs are constants of the configuration (log 7). -/
def Obligations.ProgramStore : Prop :=
  ∀ (s : State) (p : Packet) (id off total : Nat) (d im : List Byte) (r : CmdRef) (rest : List (Nat × List Byte × CmdRef)) (win : List Nat)
      (prog : Program) (e h g : Fin 24),
    let c := s.cfg
    -- `LEP_LOAD`
    (Served p 0x0B01 s → id < 65536 → off < 2 ^ 32 → total < 2 ^ 32 → 4 ≤ d.length → d.length ≤ 4068 →
        p.args = leBytes 2 id ++ zeros 2 ++ leBytes 4 off ++ leBytes 4 total ++ d →
      let user := 0x0100 ≤ id ∧ id ≤ 0x7FFF
      let foreign := off ≠ 0 ∧ ∃ o, c.lepLoad = some o ∧ o.1 ≠ id
      let got : List Byte := if off = 0 then [] else (c.lepLoad.map (·.2.2.1)).getD []
      let sized := total ≤ 266240 ∧ total % 4 = 0 ∧ off + d.length ≤ total
      let used := ∃ t ∈ c.tasks, t.prog = id
      let others := c.programs.filter fun q => q.id != id
      let fits := others.length < 64 ∧ (others.map (·.image.length)).sum + total ≤ 4194304
      let ref := s.refOf (asOp p 0x0B01)
      (¬ user → Sends (.lepLoad p) p s (Refused p 0x0B01 s .range 0x0103))
      ∧ (user → foreign → Sends (.lepLoad p) p s (Refused p 0x0B01 s .busy 0x0101))
      ∧ (user → ¬ foreign → off ≠ got.length → Sends (.lepLoad p) p s (Refused p 0x0B01 s .range 0x0101))
      ∧ (user → ¬ foreign → off = got.length →
        (¬ sized → Sends (.lepLoad p) p s (Refused p 0x0B01 s .range 0x0102))
        ∧ (sized → used → Sends (.lepLoad p) p s (Refused p 0x0B01 s .state 0x0101))
        ∧ (sized → ¬ used → ¬ fits → Sends (.lepLoad p) p s (Refused p 0x0B01 s .queueFull 0x0101))
        ∧ (sized → ¬ used → fits → off + d.length < total → Sends (.lepLoad p) p s fun t =>
            Ok p 0x0B01 s (s.updCfg fun c => { c with lepLoad := some (id, total, got ++ d, ref) }) t)
        ∧ (sized → ¬ used → fits → off + d.length = total → Sends (.lepLoad p) p s fun t =>
            Accepted p 0x0B01 s (s.updCfg fun c => { c with lepLoad := none, lepVerify := c.lepVerify ++ [(id, got ++ d, ref)] }) t)))
    -- an image has been verified
    ∧ (c.lepVerify = [] → Acts (.imageVerifyComplete win) s fun t => t = s)
    ∧ (c.lepVerify = (id, im, r) :: rest →
      let u : State := s.updCfg fun c => { c with lepVerify := rest }
      let crc := crc32c (im.take 60 ++ zeros 4 ++ im.drop 64)
      (crc.toNat ≠ u32 im 60 → Acts (.imageVerifyComplete win) s fun t =>
        t = u.complete r .denied 0x0101 s.now (leBytes 4 0xFFFFFFFF))
      ∧ (crc.toNat = u32 im 60 → u32 im 0 ≠ 0x50454C58 ∨ u16 im 4 ≠ 1 ∨ u16 im 6 ≠ id ∨ u8 im 12 = 0 ∨ 8 < u8 im 12 ∨ u32 im 56 ≠ im.length →
          Acts (.imageVerifyComplete win) s fun t => t = u.complete r .denied 0x0102 s.now (leBytes 4 0xFFFFFFFF))
      ∧ (∀ det at_, verifyImage im id win = .error (det, at_) → Acts (.imageVerifyComplete win) s fun t =>
          t = u.complete r .denied det s.now (leBytes 4 at_))
      ∧ (∀ fs, verifyImage im id win = .ok fs → Acts (.imageVerifyComplete win) s fun t => t = (u.updCfg fun c => { c with
          programs := (c.programs.filter fun q => q.id != id) ++ [{ id := id, image := im, figures := fs }] }).complete r .done 0 s.now))
    -- `LEP_INFO`
    ∧ (Served p 0x0B02 s → id < 65536 → p.args = leBytes 2 id ++ zeros 2 →
      let loaded := ∃ q ∈ c.programs, q.id = id
      let std (kind cc hh plm cx cy dlm haul : Nat) : Prop := Sends (.lepInfo p) p s (Tells p 0x0B02 s
        (leBytes 2 id ++ leBytes 2 1 ++ leBytes 4 (Config.stdVersion id).toNat ++ leBytes 4 plm ++ leBytes 4 cx ++ leBytes 4 cy ++ leBytes 4 dlm
          ++ leBytes 1 0 ++ leBytes 1 kind ++ leBytes 2 0 ++ leBytes 4 0 ++ leBytes 4 0 ++ leBytes 4 cc ++ leBytes 4 hh ++ leBytes 4 haul
          ++ leBytes 4 0))
      (¬ loaded → id = 0 ∨ 4 < id → Sends (.lepInfo p) p s (Refused p 0x0B02 s .range 0x0103))
      ∧ (¬ loaded → (id = 1 → std 0 1560 240 6144 1024 1024 4096 12) ∧ (id = 2 → std 0 1180 180 5120 512 512 3072 12)
        ∧ (id = 3 → std 1 2400 360 4096 512 512 3072 16) ∧ (id = 4 → std 1 960 120 12288 256 256 6144 24))
      ∧ (c.programs.filter (fun q => q.id == id) = [prog] → let im := prog.image
        Sends (.lepInfo p) p s fun t => ∃ body : List Byte, Tells p 0x0B02 s body t ∧ body.length = 24 + 28 * u8 im 12
          ∧ u16 body 0 = id ∧ u16 body 2 = u8 im 12 ∧ u32 body 4 = u32 im 8 ∧ u32 body 8 = u32 im 20 ∧ u32 body 12 = u32 im 28
          ∧ u32 body 16 = u32 im 36 ∧ (u32 im 44 ≤ 131072 → u32 body 20 = u32 im 44 + 1280 * u8 im 12)
          ∧ ∀ k < u8 im 12, u8 body (24 + 28 * k) = k ∧ u8 body (25 + 28 * k) = u8 im (u32 im 48 + 32 * k + 4)
            ∧ u16 body (26 + 28 * k) = u16 im (u32 im 48 + 32 * k + 6) ∧ u32 body (28 + 28 * k) = u32 im (u32 im 48 + 32 * k + 8)))
    -- an engine's tasks have moved to its hard shoulder
    ∧ ((s.eng[e]).migrateTo = none → Acts (.migrationComplete e) s fun t => t = s)
    ∧ ((s.eng[e]).migrateTo = some h → h ≠ e → Acts (.migrationComplete e) s fun t =>
        (t.eng[h]).role = .service ∧ (t.eng[h]).table = (s.eng[e]).table.map (fun k => { k with engine := h.val })
        ∧ (t.eng[e]).table = [] ∧ (t.eng[e]).migrateTo = none ∧ (t.eng[e]).role = (s.eng[e]).role ∧ (t.eng[e]).dlm = (s.eng[e]).dlm
        ∧ (g ≠ e → g ≠ h → t.eng[g] = s.eng[g])
        ∧ t.cfg.tasks = (c.tasks.map fun k => if k.engine = e.val then { k with engine := h.val } else k)
        ∧ t.faults.migrations = s.faults.migrations + 1 ∧ t.faults.lastRetire = s.now ∧ t.faults.table = s.faults.table
        ∧ t.xr = { s.xr with regions := t.xr.regions } ∧ t.ports = s.ports ∧ t.tg = s.tg)

/-! ### Steps -/

/-- The queue: a step runs the command at the front, on the queue's rest. -/
def Obligations.StepRunsFront : Prop :=
  ∀ (s : State) (c : Instr) (rest : List Instr),
    step { s with pending := c :: rest } = exec c { s with pending := rest }
    ∧ (s.pending = c :: rest → step s = exec c { s with pending := rest })

/-- R17, R145, R474, R492, Tables 1.9, 12.14, 13.2, 14.4: the state right after reset. The main domain is in reset, no output of
Tollgate is high and every pad block is engaged, no region of Crossroads is enabled; the last two engines are hard shoulders. The
invariant holds.

That unlisted bytes read zero and that the rails of Tollgate are good at first is the model's choice (logs 8, 89). -/
def Obligations.ResetState : Prop :=
  let s := State.reset
  s.pending = [] ∧ s.now = 0 ∧ s.time.servo = .freeRun ∧ s.boot.inReset = true ∧ s.boot.ready = false
  ∧ s.tg.st = .selftest ∧ s.tg.gen = 0 ∧ s.tg.brk = 0 ∧ s.tg.pad = BitVec.allOnes 64
  ∧ (∀ i : Fin 512, (s.axes[i]).st = .disabled) ∧ (∀ c : Fin 4, (s.can[c]).st = .off) ∧ s.wm.st = .idle
  ∧ (∀ (m : Fin 42) (k : Fin 16), ((s.xr.regions[m])[k]).getLsbD 0 = false) ∧ s.xr.mem = [] ∧ s.xr.retired = none
  ∧ (∀ e : Fin 24, (s.eng[e]).role = if 22 ≤ e.val then .shoulder else .service)
  ∧ s.faults.table = [] ∧ s.cfg.draft = none ∧ s.host.pcie = none ∧ Inv s

/-- Whatever the state, a step answers a next state; it takes exactly the front command off the queue and puts none on; and it keeps the
ranges of line time (R6, R414) and the canonical form of every memory (R140, R469).

The canonical form of memory and the tick on an empty queue are the model's own (logs 8, 28). -/
def Obligations.EveryStep : Prop :=
  ∀ s : State, ∃ t : State, step s = .next t ∧ t.pending = s.pending.tail ∧ (Inv s → Inv t)
end

