-- ==== Sys2Proof/Laws/State.lean ====
section
/-!
SUPPORT. What an update of one field of the state leaves in every field; entries of updated vectors. All by `rfl`.
-/
namespace Sys2Proof.Machine

/-! ### Entries of an updated vector -/

@[simp] theorem upd_self {α : Type} {n : Nat} (v : Vector α n) (i : Fin n) (f : α → α) : (upd v i f)[i.val] = f v[i.val] := by
  simp [upd]

@[simp] theorem upd_ne {α : Type} {n : Nat} (v : Vector α n) {i j : Fin n} (f : α → α) (h : i ≠ j) : (upd v i f)[j.val] = v[j.val] := by
  have h' : i.val ≠ j.val := fun e => h (Fin.ext e)
  simp [upd, h']

theorem upd_apply {α : Type} {n : Nat} (v : Vector α n) (i j : Fin n) (f : α → α) :
    (upd v i f)[j] = if i = j then f v[j] else v[j] := by
  by_cases h : i = j
  · subst h; simp
  · simp [h]

theorem upd_upd {α : Type} {n : Nat} (v : Vector α n) (i : Fin n) (f g : α → α) : upd (upd v i f) i g = upd v i fun x => g (f x) := by
  simp [upd]

/-! ### `updAxis` -/

section

variable (s : State) (i : Fin 512) (f : _ → _)

@[simp] theorem State.updAxis_pending : (s.updAxis i f).pending = s.pending := rfl
@[simp] theorem State.updAxis_ticks : (s.updAxis i f).ticks = s.ticks := rfl
@[simp] theorem State.updAxis_free : (s.updAxis i f).free = s.free := rfl
@[simp] theorem State.updAxis_time : (s.updAxis i f).time = s.time := rfl
@[simp] theorem State.updAxis_boot : (s.updAxis i f).boot = s.boot := rfl
@[simp] theorem State.updAxis_tg : (s.updAxis i f).tg = s.tg := rfl
@[simp] theorem State.updAxis_host : (s.updAxis i f).host = s.host := rfl
@[simp] theorem State.updAxis_cfg : (s.updAxis i f).cfg = s.cfg := rfl
@[simp] theorem State.updAxis_faults : (s.updAxis i f).faults = s.faults := rfl
@[simp] theorem State.updAxis_dbg : (s.updAxis i f).dbg = s.dbg := rfl
@[simp] theorem State.updAxis_eng : (s.updAxis i f).eng = s.eng := rfl
@[simp] theorem State.updAxis_xr : (s.updAxis i f).xr = s.xr := rfl
@[simp] theorem State.updAxis_axes : (s.updAxis i f).axes = upd s.axes i f := rfl
@[simp] theorem State.updAxis_ports : (s.updAxis i f).ports = s.ports := rfl
@[simp] theorem State.updAxis_buses : (s.updAxis i f).buses = s.buses := rfl
@[simp] theorem State.updAxis_fb : (s.updAxis i f).fb = s.fb := rfl
@[simp] theorem State.updAxis_probes : (s.updAxis i f).probes = s.probes := rfl
@[simp] theorem State.updAxis_emus : (s.updAxis i f).emus = s.emus := rfl
@[simp] theorem State.updAxis_rex : (s.updAxis i f).rex = s.rex := rfl
@[simp] theorem State.updAxis_net : (s.updAxis i f).net = s.net := rfl
@[simp] theorem State.updAxis_can : (s.updAxis i f).can = s.can := rfl
@[simp] theorem State.updAxis_wm : (s.updAxis i f).wm = s.wm := rfl
@[simp] theorem State.updAxis_gpio : (s.updAxis i f).gpio = s.gpio := rfl
@[simp] theorem State.updAxis_outs : (s.updAxis i f).outs = s.outs := rfl
@[simp] theorem State.updAxis_tables : (s.updAxis i f).tables = s.tables := rfl

end

/-! ### `updPort` -/

section

variable (s : State) (i : Fin 64) (f : _ → _)

@[simp] theorem State.updPort_pending : (s.updPort i f).pending = s.pending := rfl
@[simp] theorem State.updPort_ticks : (s.updPort i f).ticks = s.ticks := rfl
@[simp] theorem State.updPort_free : (s.updPort i f).free = s.free := rfl
@[simp] theorem State.updPort_time : (s.updPort i f).time = s.time := rfl
@[simp] theorem State.updPort_boot : (s.updPort i f).boot = s.boot := rfl
@[simp] theorem State.updPort_tg : (s.updPort i f).tg = s.tg := rfl
@[simp] theorem State.updPort_host : (s.updPort i f).host = s.host := rfl
@[simp] theorem State.updPort_cfg : (s.updPort i f).cfg = s.cfg := rfl
@[simp] theorem State.updPort_faults : (s.updPort i f).faults = s.faults := rfl
@[simp] theorem State.updPort_dbg : (s.updPort i f).dbg = s.dbg := rfl
@[simp] theorem State.updPort_eng : (s.updPort i f).eng = s.eng := rfl
@[simp] theorem State.updPort_xr : (s.updPort i f).xr = s.xr := rfl
@[simp] theorem State.updPort_axes : (s.updPort i f).axes = s.axes := rfl
@[simp] theorem State.updPort_ports : (s.updPort i f).ports = upd s.ports i f := rfl
@[simp] theorem State.updPort_buses : (s.updPort i f).buses = s.buses := rfl
@[simp] theorem State.updPort_fb : (s.updPort i f).fb = s.fb := rfl
@[simp] theorem State.updPort_probes : (s.updPort i f).probes = s.probes := rfl
@[simp] theorem State.updPort_emus : (s.updPort i f).emus = s.emus := rfl
@[simp] theorem State.updPort_rex : (s.updPort i f).rex = s.rex := rfl
@[simp] theorem State.updPort_net : (s.updPort i f).net = s.net := rfl
@[simp] theorem State.updPort_can : (s.updPort i f).can = s.can := rfl
@[simp] theorem State.updPort_wm : (s.updPort i f).wm = s.wm := rfl
@[simp] theorem State.updPort_gpio : (s.updPort i f).gpio = s.gpio := rfl
@[simp] theorem State.updPort_outs : (s.updPort i f).outs = s.outs := rfl
@[simp] theorem State.updPort_tables : (s.updPort i f).tables = s.tables := rfl

end

/-! ### `updBus` -/

section

variable (s : State) (i : Fin 8) (f : _ → _)

@[simp] theorem State.updBus_pending : (s.updBus i f).pending = s.pending := rfl
@[simp] theorem State.updBus_ticks : (s.updBus i f).ticks = s.ticks := rfl
@[simp] theorem State.updBus_free : (s.updBus i f).free = s.free := rfl
@[simp] theorem State.updBus_time : (s.updBus i f).time = s.time := rfl
@[simp] theorem State.updBus_boot : (s.updBus i f).boot = s.boot := rfl
@[simp] theorem State.updBus_tg : (s.updBus i f).tg = s.tg := rfl
@[simp] theorem State.updBus_host : (s.updBus i f).host = s.host := rfl
@[simp] theorem State.updBus_cfg : (s.updBus i f).cfg = s.cfg := rfl
@[simp] theorem State.updBus_faults : (s.updBus i f).faults = s.faults := rfl
@[simp] theorem State.updBus_dbg : (s.updBus i f).dbg = s.dbg := rfl
@[simp] theorem State.updBus_eng : (s.updBus i f).eng = s.eng := rfl
@[simp] theorem State.updBus_xr : (s.updBus i f).xr = s.xr := rfl
@[simp] theorem State.updBus_axes : (s.updBus i f).axes = s.axes := rfl
@[simp] theorem State.updBus_ports : (s.updBus i f).ports = s.ports := rfl
@[simp] theorem State.updBus_buses : (s.updBus i f).buses = upd s.buses i f := rfl
@[simp] theorem State.updBus_fb : (s.updBus i f).fb = s.fb := rfl
@[simp] theorem State.updBus_probes : (s.updBus i f).probes = s.probes := rfl
@[simp] theorem State.updBus_emus : (s.updBus i f).emus = s.emus := rfl
@[simp] theorem State.updBus_rex : (s.updBus i f).rex = s.rex := rfl
@[simp] theorem State.updBus_net : (s.updBus i f).net = s.net := rfl
@[simp] theorem State.updBus_can : (s.updBus i f).can = s.can := rfl
@[simp] theorem State.updBus_wm : (s.updBus i f).wm = s.wm := rfl
@[simp] theorem State.updBus_gpio : (s.updBus i f).gpio = s.gpio := rfl
@[simp] theorem State.updBus_outs : (s.updBus i f).outs = s.outs := rfl
@[simp] theorem State.updBus_tables : (s.updBus i f).tables = s.tables := rfl

end

/-! ### `updEng` -/

section

variable (s : State) (i : Fin 24) (f : _ → _)

@[simp] theorem State.updEng_pending : (s.updEng i f).pending = s.pending := rfl
@[simp] theorem State.updEng_ticks : (s.updEng i f).ticks = s.ticks := rfl
@[simp] theorem State.updEng_free : (s.updEng i f).free = s.free := rfl
@[simp] theorem State.updEng_time : (s.updEng i f).time = s.time := rfl
@[simp] theorem State.updEng_boot : (s.updEng i f).boot = s.boot := rfl
@[simp] theorem State.updEng_tg : (s.updEng i f).tg = s.tg := rfl
@[simp] theorem State.updEng_host : (s.updEng i f).host = s.host := rfl
@[simp] theorem State.updEng_cfg : (s.updEng i f).cfg = s.cfg := rfl
@[simp] theorem State.updEng_faults : (s.updEng i f).faults = s.faults := rfl
@[simp] theorem State.updEng_dbg : (s.updEng i f).dbg = s.dbg := rfl
@[simp] theorem State.updEng_eng : (s.updEng i f).eng = upd s.eng i f := rfl
@[simp] theorem State.updEng_xr : (s.updEng i f).xr = s.xr := rfl
@[simp] theorem State.updEng_axes : (s.updEng i f).axes = s.axes := rfl
@[simp] theorem State.updEng_ports : (s.updEng i f).ports = s.ports := rfl
@[simp] theorem State.updEng_buses : (s.updEng i f).buses = s.buses := rfl
@[simp] theorem State.updEng_fb : (s.updEng i f).fb = s.fb := rfl
@[simp] theorem State.updEng_probes : (s.updEng i f).probes = s.probes := rfl
@[simp] theorem State.updEng_emus : (s.updEng i f).emus = s.emus := rfl
@[simp] theorem State.updEng_rex : (s.updEng i f).rex = s.rex := rfl
@[simp] theorem State.updEng_net : (s.updEng i f).net = s.net := rfl
@[simp] theorem State.updEng_can : (s.updEng i f).can = s.can := rfl
@[simp] theorem State.updEng_wm : (s.updEng i f).wm = s.wm := rfl
@[simp] theorem State.updEng_gpio : (s.updEng i f).gpio = s.gpio := rfl
@[simp] theorem State.updEng_outs : (s.updEng i f).outs = s.outs := rfl
@[simp] theorem State.updEng_tables : (s.updEng i f).tables = s.tables := rfl

end

/-! ### `updFb` -/

section

variable (s : State) (i : Fin 64) (f : _ → _)

@[simp] theorem State.updFb_pending : (s.updFb i f).pending = s.pending := rfl
@[simp] theorem State.updFb_ticks : (s.updFb i f).ticks = s.ticks := rfl
@[simp] theorem State.updFb_free : (s.updFb i f).free = s.free := rfl
@[simp] theorem State.updFb_time : (s.updFb i f).time = s.time := rfl
@[simp] theorem State.updFb_boot : (s.updFb i f).boot = s.boot := rfl
@[simp] theorem State.updFb_tg : (s.updFb i f).tg = s.tg := rfl
@[simp] theorem State.updFb_host : (s.updFb i f).host = s.host := rfl
@[simp] theorem State.updFb_cfg : (s.updFb i f).cfg = s.cfg := rfl
@[simp] theorem State.updFb_faults : (s.updFb i f).faults = s.faults := rfl
@[simp] theorem State.updFb_dbg : (s.updFb i f).dbg = s.dbg := rfl
@[simp] theorem State.updFb_eng : (s.updFb i f).eng = s.eng := rfl
@[simp] theorem State.updFb_xr : (s.updFb i f).xr = s.xr := rfl
@[simp] theorem State.updFb_axes : (s.updFb i f).axes = s.axes := rfl
@[simp] theorem State.updFb_ports : (s.updFb i f).ports = s.ports := rfl
@[simp] theorem State.updFb_buses : (s.updFb i f).buses = s.buses := rfl
@[simp] theorem State.updFb_fb : (s.updFb i f).fb = upd s.fb i f := rfl
@[simp] theorem State.updFb_probes : (s.updFb i f).probes = s.probes := rfl
@[simp] theorem State.updFb_emus : (s.updFb i f).emus = s.emus := rfl
@[simp] theorem State.updFb_rex : (s.updFb i f).rex = s.rex := rfl
@[simp] theorem State.updFb_net : (s.updFb i f).net = s.net := rfl
@[simp] theorem State.updFb_can : (s.updFb i f).can = s.can := rfl
@[simp] theorem State.updFb_wm : (s.updFb i f).wm = s.wm := rfl
@[simp] theorem State.updFb_gpio : (s.updFb i f).gpio = s.gpio := rfl
@[simp] theorem State.updFb_outs : (s.updFb i f).outs = s.outs := rfl
@[simp] theorem State.updFb_tables : (s.updFb i f).tables = s.tables := rfl

end

/-! ### `updProbe` -/

section

variable (s : State) (i : Fin 32) (f : _ → _)

@[simp] theorem State.updProbe_pending : (s.updProbe i f).pending = s.pending := rfl
@[simp] theorem State.updProbe_ticks : (s.updProbe i f).ticks = s.ticks := rfl
@[simp] theorem State.updProbe_free : (s.updProbe i f).free = s.free := rfl
@[simp] theorem State.updProbe_time : (s.updProbe i f).time = s.time := rfl
@[simp] theorem State.updProbe_boot : (s.updProbe i f).boot = s.boot := rfl
@[simp] theorem State.updProbe_tg : (s.updProbe i f).tg = s.tg := rfl
@[simp] theorem State.updProbe_host : (s.updProbe i f).host = s.host := rfl
@[simp] theorem State.updProbe_cfg : (s.updProbe i f).cfg = s.cfg := rfl
@[simp] theorem State.updProbe_faults : (s.updProbe i f).faults = s.faults := rfl
@[simp] theorem State.updProbe_dbg : (s.updProbe i f).dbg = s.dbg := rfl
@[simp] theorem State.updProbe_eng : (s.updProbe i f).eng = s.eng := rfl
@[simp] theorem State.updProbe_xr : (s.updProbe i f).xr = s.xr := rfl
@[simp] theorem State.updProbe_axes : (s.updProbe i f).axes = s.axes := rfl
@[simp] theorem State.updProbe_ports : (s.updProbe i f).ports = s.ports := rfl
@[simp] theorem State.updProbe_buses : (s.updProbe i f).buses = s.buses := rfl
@[simp] theorem State.updProbe_fb : (s.updProbe i f).fb = s.fb := rfl
@[simp] theorem State.updProbe_probes : (s.updProbe i f).probes = upd s.probes i f := rfl
@[simp] theorem State.updProbe_emus : (s.updProbe i f).emus = s.emus := rfl
@[simp] theorem State.updProbe_rex : (s.updProbe i f).rex = s.rex := rfl
@[simp] theorem State.updProbe_net : (s.updProbe i f).net = s.net := rfl
@[simp] theorem State.updProbe_can : (s.updProbe i f).can = s.can := rfl
@[simp] theorem State.updProbe_wm : (s.updProbe i f).wm = s.wm := rfl
@[simp] theorem State.updProbe_gpio : (s.updProbe i f).gpio = s.gpio := rfl
@[simp] theorem State.updProbe_outs : (s.updProbe i f).outs = s.outs := rfl
@[simp] theorem State.updProbe_tables : (s.updProbe i f).tables = s.tables := rfl

end

/-! ### `updEmu` -/

section

variable (s : State) (i : Fin 8) (f : _ → _)

@[simp] theorem State.updEmu_pending : (s.updEmu i f).pending = s.pending := rfl
@[simp] theorem State.updEmu_ticks : (s.updEmu i f).ticks = s.ticks := rfl
@[simp] theorem State.updEmu_free : (s.updEmu i f).free = s.free := rfl
@[simp] theorem State.updEmu_time : (s.updEmu i f).time = s.time := rfl
@[simp] theorem State.updEmu_boot : (s.updEmu i f).boot = s.boot := rfl
@[simp] theorem State.updEmu_tg : (s.updEmu i f).tg = s.tg := rfl
@[simp] theorem State.updEmu_host : (s.updEmu i f).host = s.host := rfl
@[simp] theorem State.updEmu_cfg : (s.updEmu i f).cfg = s.cfg := rfl
@[simp] theorem State.updEmu_faults : (s.updEmu i f).faults = s.faults := rfl
@[simp] theorem State.updEmu_dbg : (s.updEmu i f).dbg = s.dbg := rfl
@[simp] theorem State.updEmu_eng : (s.updEmu i f).eng = s.eng := rfl
@[simp] theorem State.updEmu_xr : (s.updEmu i f).xr = s.xr := rfl
@[simp] theorem State.updEmu_axes : (s.updEmu i f).axes = s.axes := rfl
@[simp] theorem State.updEmu_ports : (s.updEmu i f).ports = s.ports := rfl
@[simp] theorem State.updEmu_buses : (s.updEmu i f).buses = s.buses := rfl
@[simp] theorem State.updEmu_fb : (s.updEmu i f).fb = s.fb := rfl
@[simp] theorem State.updEmu_probes : (s.updEmu i f).probes = s.probes := rfl
@[simp] theorem State.updEmu_emus : (s.updEmu i f).emus = upd s.emus i f := rfl
@[simp] theorem State.updEmu_rex : (s.updEmu i f).rex = s.rex := rfl
@[simp] theorem State.updEmu_net : (s.updEmu i f).net = s.net := rfl
@[simp] theorem State.updEmu_can : (s.updEmu i f).can = s.can := rfl
@[simp] theorem State.updEmu_wm : (s.updEmu i f).wm = s.wm := rfl
@[simp] theorem State.updEmu_gpio : (s.updEmu i f).gpio = s.gpio := rfl
@[simp] theorem State.updEmu_outs : (s.updEmu i f).outs = s.outs := rfl
@[simp] theorem State.updEmu_tables : (s.updEmu i f).tables = s.tables := rfl

end

/-! ### `updCan` -/

section

variable (s : State) (i : Fin 4) (f : _ → _)

@[simp] theorem State.updCan_pending : (s.updCan i f).pending = s.pending := rfl
@[simp] theorem State.updCan_ticks : (s.updCan i f).ticks = s.ticks := rfl
@[simp] theorem State.updCan_free : (s.updCan i f).free = s.free := rfl
@[simp] theorem State.updCan_time : (s.updCan i f).time = s.time := rfl
@[simp] theorem State.updCan_boot : (s.updCan i f).boot = s.boot := rfl
@[simp] theorem State.updCan_tg : (s.updCan i f).tg = s.tg := rfl
@[simp] theorem State.updCan_host : (s.updCan i f).host = s.host := rfl
@[simp] theorem State.updCan_cfg : (s.updCan i f).cfg = s.cfg := rfl
@[simp] theorem State.updCan_faults : (s.updCan i f).faults = s.faults := rfl
@[simp] theorem State.updCan_dbg : (s.updCan i f).dbg = s.dbg := rfl
@[simp] theorem State.updCan_eng : (s.updCan i f).eng = s.eng := rfl
@[simp] theorem State.updCan_xr : (s.updCan i f).xr = s.xr := rfl
@[simp] theorem State.updCan_axes : (s.updCan i f).axes = s.axes := rfl
@[simp] theorem State.updCan_ports : (s.updCan i f).ports = s.ports := rfl
@[simp] theorem State.updCan_buses : (s.updCan i f).buses = s.buses := rfl
@[simp] theorem State.updCan_fb : (s.updCan i f).fb = s.fb := rfl
@[simp] theorem State.updCan_probes : (s.updCan i f).probes = s.probes := rfl
@[simp] theorem State.updCan_emus : (s.updCan i f).emus = s.emus := rfl
@[simp] theorem State.updCan_rex : (s.updCan i f).rex = s.rex := rfl
@[simp] theorem State.updCan_net : (s.updCan i f).net = s.net := rfl
@[simp] theorem State.updCan_can : (s.updCan i f).can = upd s.can i f := rfl
@[simp] theorem State.updCan_wm : (s.updCan i f).wm = s.wm := rfl
@[simp] theorem State.updCan_gpio : (s.updCan i f).gpio = s.gpio := rfl
@[simp] theorem State.updCan_outs : (s.updCan i f).outs = s.outs := rfl
@[simp] theorem State.updCan_tables : (s.updCan i f).tables = s.tables := rfl

end

/-! ### `updHost` -/

section

variable (s : State) (f : _ → _)

@[simp] theorem State.updHost_pending : (s.updHost f).pending = s.pending := rfl
@[simp] theorem State.updHost_ticks : (s.updHost f).ticks = s.ticks := rfl
@[simp] theorem State.updHost_free : (s.updHost f).free = s.free := rfl
@[simp] theorem State.updHost_time : (s.updHost f).time = s.time := rfl
@[simp] theorem State.updHost_boot : (s.updHost f).boot = s.boot := rfl
@[simp] theorem State.updHost_tg : (s.updHost f).tg = s.tg := rfl
@[simp] theorem State.updHost_host : (s.updHost f).host = f s.host := rfl
@[simp] theorem State.updHost_cfg : (s.updHost f).cfg = s.cfg := rfl
@[simp] theorem State.updHost_faults : (s.updHost f).faults = s.faults := rfl
@[simp] theorem State.updHost_dbg : (s.updHost f).dbg = s.dbg := rfl
@[simp] theorem State.updHost_eng : (s.updHost f).eng = s.eng := rfl
@[simp] theorem State.updHost_xr : (s.updHost f).xr = s.xr := rfl
@[simp] theorem State.updHost_axes : (s.updHost f).axes = s.axes := rfl
@[simp] theorem State.updHost_ports : (s.updHost f).ports = s.ports := rfl
@[simp] theorem State.updHost_buses : (s.updHost f).buses = s.buses := rfl
@[simp] theorem State.updHost_fb : (s.updHost f).fb = s.fb := rfl
@[simp] theorem State.updHost_probes : (s.updHost f).probes = s.probes := rfl
@[simp] theorem State.updHost_emus : (s.updHost f).emus = s.emus := rfl
@[simp] theorem State.updHost_rex : (s.updHost f).rex = s.rex := rfl
@[simp] theorem State.updHost_net : (s.updHost f).net = s.net := rfl
@[simp] theorem State.updHost_can : (s.updHost f).can = s.can := rfl
@[simp] theorem State.updHost_wm : (s.updHost f).wm = s.wm := rfl
@[simp] theorem State.updHost_gpio : (s.updHost f).gpio = s.gpio := rfl
@[simp] theorem State.updHost_outs : (s.updHost f).outs = s.outs := rfl
@[simp] theorem State.updHost_tables : (s.updHost f).tables = s.tables := rfl

end

/-! ### `updCfg` -/

section

variable (s : State) (f : _ → _)

@[simp] theorem State.updCfg_pending : (s.updCfg f).pending = s.pending := rfl
@[simp] theorem State.updCfg_ticks : (s.updCfg f).ticks = s.ticks := rfl
@[simp] theorem State.updCfg_free : (s.updCfg f).free = s.free := rfl
@[simp] theorem State.updCfg_time : (s.updCfg f).time = s.time := rfl
@[simp] theorem State.updCfg_boot : (s.updCfg f).boot = s.boot := rfl
@[simp] theorem State.updCfg_tg : (s.updCfg f).tg = s.tg := rfl
@[simp] theorem State.updCfg_host : (s.updCfg f).host = s.host := rfl
@[simp] theorem State.updCfg_cfg : (s.updCfg f).cfg = f s.cfg := rfl
@[simp] theorem State.updCfg_faults : (s.updCfg f).faults = s.faults := rfl
@[simp] theorem State.updCfg_dbg : (s.updCfg f).dbg = s.dbg := rfl
@[simp] theorem State.updCfg_eng : (s.updCfg f).eng = s.eng := rfl
@[simp] theorem State.updCfg_xr : (s.updCfg f).xr = s.xr := rfl
@[simp] theorem State.updCfg_axes : (s.updCfg f).axes = s.axes := rfl
@[simp] theorem State.updCfg_ports : (s.updCfg f).ports = s.ports := rfl
@[simp] theorem State.updCfg_buses : (s.updCfg f).buses = s.buses := rfl
@[simp] theorem State.updCfg_fb : (s.updCfg f).fb = s.fb := rfl
@[simp] theorem State.updCfg_probes : (s.updCfg f).probes = s.probes := rfl
@[simp] theorem State.updCfg_emus : (s.updCfg f).emus = s.emus := rfl
@[simp] theorem State.updCfg_rex : (s.updCfg f).rex = s.rex := rfl
@[simp] theorem State.updCfg_net : (s.updCfg f).net = s.net := rfl
@[simp] theorem State.updCfg_can : (s.updCfg f).can = s.can := rfl
@[simp] theorem State.updCfg_wm : (s.updCfg f).wm = s.wm := rfl
@[simp] theorem State.updCfg_gpio : (s.updCfg f).gpio = s.gpio := rfl
@[simp] theorem State.updCfg_outs : (s.updCfg f).outs = s.outs := rfl
@[simp] theorem State.updCfg_tables : (s.updCfg f).tables = s.tables := rfl

end

/-! ### `updFaults` -/

section

variable (s : State) (f : _ → _)

@[simp] theorem State.updFaults_pending : (s.updFaults f).pending = s.pending := rfl
@[simp] theorem State.updFaults_ticks : (s.updFaults f).ticks = s.ticks := rfl
@[simp] theorem State.updFaults_free : (s.updFaults f).free = s.free := rfl
@[simp] theorem State.updFaults_time : (s.updFaults f).time = s.time := rfl
@[simp] theorem State.updFaults_boot : (s.updFaults f).boot = s.boot := rfl
@[simp] theorem State.updFaults_tg : (s.updFaults f).tg = s.tg := rfl
@[simp] theorem State.updFaults_host : (s.updFaults f).host = s.host := rfl
@[simp] theorem State.updFaults_cfg : (s.updFaults f).cfg = s.cfg := rfl
@[simp] theorem State.updFaults_faults : (s.updFaults f).faults = f s.faults := rfl
@[simp] theorem State.updFaults_dbg : (s.updFaults f).dbg = s.dbg := rfl
@[simp] theorem State.updFaults_eng : (s.updFaults f).eng = s.eng := rfl
@[simp] theorem State.updFaults_xr : (s.updFaults f).xr = s.xr := rfl
@[simp] theorem State.updFaults_axes : (s.updFaults f).axes = s.axes := rfl
@[simp] theorem State.updFaults_ports : (s.updFaults f).ports = s.ports := rfl
@[simp] theorem State.updFaults_buses : (s.updFaults f).buses = s.buses := rfl
@[simp] theorem State.updFaults_fb : (s.updFaults f).fb = s.fb := rfl
@[simp] theorem State.updFaults_probes : (s.updFaults f).probes = s.probes := rfl
@[simp] theorem State.updFaults_emus : (s.updFaults f).emus = s.emus := rfl
@[simp] theorem State.updFaults_rex : (s.updFaults f).rex = s.rex := rfl
@[simp] theorem State.updFaults_net : (s.updFaults f).net = s.net := rfl
@[simp] theorem State.updFaults_can : (s.updFaults f).can = s.can := rfl
@[simp] theorem State.updFaults_wm : (s.updFaults f).wm = s.wm := rfl
@[simp] theorem State.updFaults_gpio : (s.updFaults f).gpio = s.gpio := rfl
@[simp] theorem State.updFaults_outs : (s.updFaults f).outs = s.outs := rfl
@[simp] theorem State.updFaults_tables : (s.updFaults f).tables = s.tables := rfl

end

/-! ### `updNet` -/

section

variable (s : State) (f : _ → _)

@[simp] theorem State.updNet_pending : (s.updNet f).pending = s.pending := rfl
@[simp] theorem State.updNet_ticks : (s.updNet f).ticks = s.ticks := rfl
@[simp] theorem State.updNet_free : (s.updNet f).free = s.free := rfl
@[simp] theorem State.updNet_time : (s.updNet f).time = s.time := rfl
@[simp] theorem State.updNet_boot : (s.updNet f).boot = s.boot := rfl
@[simp] theorem State.updNet_tg : (s.updNet f).tg = s.tg := rfl
@[simp] theorem State.updNet_host : (s.updNet f).host = s.host := rfl
@[simp] theorem State.updNet_cfg : (s.updNet f).cfg = s.cfg := rfl
@[simp] theorem State.updNet_faults : (s.updNet f).faults = s.faults := rfl
@[simp] theorem State.updNet_dbg : (s.updNet f).dbg = s.dbg := rfl
@[simp] theorem State.updNet_eng : (s.updNet f).eng = s.eng := rfl
@[simp] theorem State.updNet_xr : (s.updNet f).xr = s.xr := rfl
@[simp] theorem State.updNet_axes : (s.updNet f).axes = s.axes := rfl
@[simp] theorem State.updNet_ports : (s.updNet f).ports = s.ports := rfl
@[simp] theorem State.updNet_buses : (s.updNet f).buses = s.buses := rfl
@[simp] theorem State.updNet_fb : (s.updNet f).fb = s.fb := rfl
@[simp] theorem State.updNet_probes : (s.updNet f).probes = s.probes := rfl
@[simp] theorem State.updNet_emus : (s.updNet f).emus = s.emus := rfl
@[simp] theorem State.updNet_rex : (s.updNet f).rex = s.rex := rfl
@[simp] theorem State.updNet_net : (s.updNet f).net = f s.net := rfl
@[simp] theorem State.updNet_can : (s.updNet f).can = s.can := rfl
@[simp] theorem State.updNet_wm : (s.updNet f).wm = s.wm := rfl
@[simp] theorem State.updNet_gpio : (s.updNet f).gpio = s.gpio := rfl
@[simp] theorem State.updNet_outs : (s.updNet f).outs = s.outs := rfl
@[simp] theorem State.updNet_tables : (s.updNet f).tables = s.tables := rfl

end

/-! ### `updWm` -/

section

variable (s : State) (f : _ → _)

@[simp] theorem State.updWm_pending : (s.updWm f).pending = s.pending := rfl
@[simp] theorem State.updWm_ticks : (s.updWm f).ticks = s.ticks := rfl
@[simp] theorem State.updWm_free : (s.updWm f).free = s.free := rfl
@[simp] theorem State.updWm_time : (s.updWm f).time = s.time := rfl
@[simp] theorem State.updWm_boot : (s.updWm f).boot = s.boot := rfl
@[simp] theorem State.updWm_tg : (s.updWm f).tg = s.tg := rfl
@[simp] theorem State.updWm_host : (s.updWm f).host = s.host := rfl
@[simp] theorem State.updWm_cfg : (s.updWm f).cfg = s.cfg := rfl
@[simp] theorem State.updWm_faults : (s.updWm f).faults = s.faults := rfl
@[simp] theorem State.updWm_dbg : (s.updWm f).dbg = s.dbg := rfl
@[simp] theorem State.updWm_eng : (s.updWm f).eng = s.eng := rfl
@[simp] theorem State.updWm_xr : (s.updWm f).xr = s.xr := rfl
@[simp] theorem State.updWm_axes : (s.updWm f).axes = s.axes := rfl
@[simp] theorem State.updWm_ports : (s.updWm f).ports = s.ports := rfl
@[simp] theorem State.updWm_buses : (s.updWm f).buses = s.buses := rfl
@[simp] theorem State.updWm_fb : (s.updWm f).fb = s.fb := rfl
@[simp] theorem State.updWm_probes : (s.updWm f).probes = s.probes := rfl
@[simp] theorem State.updWm_emus : (s.updWm f).emus = s.emus := rfl
@[simp] theorem State.updWm_rex : (s.updWm f).rex = s.rex := rfl
@[simp] theorem State.updWm_net : (s.updWm f).net = s.net := rfl
@[simp] theorem State.updWm_can : (s.updWm f).can = s.can := rfl
@[simp] theorem State.updWm_wm : (s.updWm f).wm = f s.wm := rfl
@[simp] theorem State.updWm_gpio : (s.updWm f).gpio = s.gpio := rfl
@[simp] theorem State.updWm_outs : (s.updWm f).outs = s.outs := rfl
@[simp] theorem State.updWm_tables : (s.updWm f).tables = s.tables := rfl

end

/-! ### `updTg` -/

section

variable (s : State) (f : _ → _)

@[simp] theorem State.updTg_pending : (s.updTg f).pending = s.pending := rfl
@[simp] theorem State.updTg_ticks : (s.updTg f).ticks = s.ticks := rfl
@[simp] theorem State.updTg_free : (s.updTg f).free = s.free := rfl
@[simp] theorem State.updTg_time : (s.updTg f).time = s.time := rfl
@[simp] theorem State.updTg_boot : (s.updTg f).boot = s.boot := rfl
@[simp] theorem State.updTg_tg : (s.updTg f).tg = f s.tg := rfl
@[simp] theorem State.updTg_host : (s.updTg f).host = s.host := rfl
@[simp] theorem State.updTg_cfg : (s.updTg f).cfg = s.cfg := rfl
@[simp] theorem State.updTg_faults : (s.updTg f).faults = s.faults := rfl
@[simp] theorem State.updTg_dbg : (s.updTg f).dbg = s.dbg := rfl
@[simp] theorem State.updTg_eng : (s.updTg f).eng = s.eng := rfl
@[simp] theorem State.updTg_xr : (s.updTg f).xr = s.xr := rfl
@[simp] theorem State.updTg_axes : (s.updTg f).axes = s.axes := rfl
@[simp] theorem State.updTg_ports : (s.updTg f).ports = s.ports := rfl
@[simp] theorem State.updTg_buses : (s.updTg f).buses = s.buses := rfl
@[simp] theorem State.updTg_fb : (s.updTg f).fb = s.fb := rfl
@[simp] theorem State.updTg_probes : (s.updTg f).probes = s.probes := rfl
@[simp] theorem State.updTg_emus : (s.updTg f).emus = s.emus := rfl
@[simp] theorem State.updTg_rex : (s.updTg f).rex = s.rex := rfl
@[simp] theorem State.updTg_net : (s.updTg f).net = s.net := rfl
@[simp] theorem State.updTg_can : (s.updTg f).can = s.can := rfl
@[simp] theorem State.updTg_wm : (s.updTg f).wm = s.wm := rfl
@[simp] theorem State.updTg_gpio : (s.updTg f).gpio = s.gpio := rfl
@[simp] theorem State.updTg_outs : (s.updTg f).outs = s.outs := rfl
@[simp] theorem State.updTg_tables : (s.updTg f).tables = s.tables := rfl

end

/-! ### `updXr` -/

section

variable (s : State) (f : _ → _)

@[simp] theorem State.updXr_pending : (s.updXr f).pending = s.pending := rfl
@[simp] theorem State.updXr_ticks : (s.updXr f).ticks = s.ticks := rfl
@[simp] theorem State.updXr_free : (s.updXr f).free = s.free := rfl
@[simp] theorem State.updXr_time : (s.updXr f).time = s.time := rfl
@[simp] theorem State.updXr_boot : (s.updXr f).boot = s.boot := rfl
@[simp] theorem State.updXr_tg : (s.updXr f).tg = s.tg := rfl
@[simp] theorem State.updXr_host : (s.updXr f).host = s.host := rfl
@[simp] theorem State.updXr_cfg : (s.updXr f).cfg = s.cfg := rfl
@[simp] theorem State.updXr_faults : (s.updXr f).faults = s.faults := rfl
@[simp] theorem State.updXr_dbg : (s.updXr f).dbg = s.dbg := rfl
@[simp] theorem State.updXr_eng : (s.updXr f).eng = s.eng := rfl
@[simp] theorem State.updXr_xr : (s.updXr f).xr = f s.xr := rfl
@[simp] theorem State.updXr_axes : (s.updXr f).axes = s.axes := rfl
@[simp] theorem State.updXr_ports : (s.updXr f).ports = s.ports := rfl
@[simp] theorem State.updXr_buses : (s.updXr f).buses = s.buses := rfl
@[simp] theorem State.updXr_fb : (s.updXr f).fb = s.fb := rfl
@[simp] theorem State.updXr_probes : (s.updXr f).probes = s.probes := rfl
@[simp] theorem State.updXr_emus : (s.updXr f).emus = s.emus := rfl
@[simp] theorem State.updXr_rex : (s.updXr f).rex = s.rex := rfl
@[simp] theorem State.updXr_net : (s.updXr f).net = s.net := rfl
@[simp] theorem State.updXr_can : (s.updXr f).can = s.can := rfl
@[simp] theorem State.updXr_wm : (s.updXr f).wm = s.wm := rfl
@[simp] theorem State.updXr_gpio : (s.updXr f).gpio = s.gpio := rfl
@[simp] theorem State.updXr_outs : (s.updXr f).outs = s.outs := rfl
@[simp] theorem State.updXr_tables : (s.updXr f).tables = s.tables := rfl

end

/-! ### `updDbg` -/

section

variable (s : State) (f : _ → _)

@[simp] theorem State.updDbg_pending : (s.updDbg f).pending = s.pending := rfl
@[simp] theorem State.updDbg_ticks : (s.updDbg f).ticks = s.ticks := rfl
@[simp] theorem State.updDbg_free : (s.updDbg f).free = s.free := rfl
@[simp] theorem State.updDbg_time : (s.updDbg f).time = s.time := rfl
@[simp] theorem State.updDbg_boot : (s.updDbg f).boot = s.boot := rfl
@[simp] theorem State.updDbg_tg : (s.updDbg f).tg = s.tg := rfl
@[simp] theorem State.updDbg_host : (s.updDbg f).host = s.host := rfl
@[simp] theorem State.updDbg_cfg : (s.updDbg f).cfg = s.cfg := rfl
@[simp] theorem State.updDbg_faults : (s.updDbg f).faults = s.faults := rfl
@[simp] theorem State.updDbg_dbg : (s.updDbg f).dbg = f s.dbg := rfl
@[simp] theorem State.updDbg_eng : (s.updDbg f).eng = s.eng := rfl
@[simp] theorem State.updDbg_xr : (s.updDbg f).xr = s.xr := rfl
@[simp] theorem State.updDbg_axes : (s.updDbg f).axes = s.axes := rfl
@[simp] theorem State.updDbg_ports : (s.updDbg f).ports = s.ports := rfl
@[simp] theorem State.updDbg_buses : (s.updDbg f).buses = s.buses := rfl
@[simp] theorem State.updDbg_fb : (s.updDbg f).fb = s.fb := rfl
@[simp] theorem State.updDbg_probes : (s.updDbg f).probes = s.probes := rfl
@[simp] theorem State.updDbg_emus : (s.updDbg f).emus = s.emus := rfl
@[simp] theorem State.updDbg_rex : (s.updDbg f).rex = s.rex := rfl
@[simp] theorem State.updDbg_net : (s.updDbg f).net = s.net := rfl
@[simp] theorem State.updDbg_can : (s.updDbg f).can = s.can := rfl
@[simp] theorem State.updDbg_wm : (s.updDbg f).wm = s.wm := rfl
@[simp] theorem State.updDbg_gpio : (s.updDbg f).gpio = s.gpio := rfl
@[simp] theorem State.updDbg_outs : (s.updDbg f).outs = s.outs := rfl
@[simp] theorem State.updDbg_tables : (s.updDbg f).tables = s.tables := rfl

end

/-! ### `updBoot` -/

section

variable (s : State) (f : _ → _)

@[simp] theorem State.updBoot_pending : (s.updBoot f).pending = s.pending := rfl
@[simp] theorem State.updBoot_ticks : (s.updBoot f).ticks = s.ticks := rfl
@[simp] theorem State.updBoot_free : (s.updBoot f).free = s.free := rfl
@[simp] theorem State.updBoot_time : (s.updBoot f).time = s.time := rfl
@[simp] theorem State.updBoot_boot : (s.updBoot f).boot = f s.boot := rfl
@[simp] theorem State.updBoot_tg : (s.updBoot f).tg = s.tg := rfl
@[simp] theorem State.updBoot_host : (s.updBoot f).host = s.host := rfl
@[simp] theorem State.updBoot_cfg : (s.updBoot f).cfg = s.cfg := rfl
@[simp] theorem State.updBoot_faults : (s.updBoot f).faults = s.faults := rfl
@[simp] theorem State.updBoot_dbg : (s.updBoot f).dbg = s.dbg := rfl
@[simp] theorem State.updBoot_eng : (s.updBoot f).eng = s.eng := rfl
@[simp] theorem State.updBoot_xr : (s.updBoot f).xr = s.xr := rfl
@[simp] theorem State.updBoot_axes : (s.updBoot f).axes = s.axes := rfl
@[simp] theorem State.updBoot_ports : (s.updBoot f).ports = s.ports := rfl
@[simp] theorem State.updBoot_buses : (s.updBoot f).buses = s.buses := rfl
@[simp] theorem State.updBoot_fb : (s.updBoot f).fb = s.fb := rfl
@[simp] theorem State.updBoot_probes : (s.updBoot f).probes = s.probes := rfl
@[simp] theorem State.updBoot_emus : (s.updBoot f).emus = s.emus := rfl
@[simp] theorem State.updBoot_rex : (s.updBoot f).rex = s.rex := rfl
@[simp] theorem State.updBoot_net : (s.updBoot f).net = s.net := rfl
@[simp] theorem State.updBoot_can : (s.updBoot f).can = s.can := rfl
@[simp] theorem State.updBoot_wm : (s.updBoot f).wm = s.wm := rfl
@[simp] theorem State.updBoot_gpio : (s.updBoot f).gpio = s.gpio := rfl
@[simp] theorem State.updBoot_outs : (s.updBoot f).outs = s.outs := rfl
@[simp] theorem State.updBoot_tables : (s.updBoot f).tables = s.tables := rfl

end

/-! ### `updTime` -/

section

variable (s : State) (f : _ → _)

@[simp] theorem State.updTime_pending : (s.updTime f).pending = s.pending := rfl
@[simp] theorem State.updTime_ticks : (s.updTime f).ticks = s.ticks := rfl
@[simp] theorem State.updTime_free : (s.updTime f).free = s.free := rfl
@[simp] theorem State.updTime_time : (s.updTime f).time = f s.time := rfl
@[simp] theorem State.updTime_boot : (s.updTime f).boot = s.boot := rfl
@[simp] theorem State.updTime_tg : (s.updTime f).tg = s.tg := rfl
@[simp] theorem State.updTime_host : (s.updTime f).host = s.host := rfl
@[simp] theorem State.updTime_cfg : (s.updTime f).cfg = s.cfg := rfl
@[simp] theorem State.updTime_faults : (s.updTime f).faults = s.faults := rfl
@[simp] theorem State.updTime_dbg : (s.updTime f).dbg = s.dbg := rfl
@[simp] theorem State.updTime_eng : (s.updTime f).eng = s.eng := rfl
@[simp] theorem State.updTime_xr : (s.updTime f).xr = s.xr := rfl
@[simp] theorem State.updTime_axes : (s.updTime f).axes = s.axes := rfl
@[simp] theorem State.updTime_ports : (s.updTime f).ports = s.ports := rfl
@[simp] theorem State.updTime_buses : (s.updTime f).buses = s.buses := rfl
@[simp] theorem State.updTime_fb : (s.updTime f).fb = s.fb := rfl
@[simp] theorem State.updTime_probes : (s.updTime f).probes = s.probes := rfl
@[simp] theorem State.updTime_emus : (s.updTime f).emus = s.emus := rfl
@[simp] theorem State.updTime_rex : (s.updTime f).rex = s.rex := rfl
@[simp] theorem State.updTime_net : (s.updTime f).net = s.net := rfl
@[simp] theorem State.updTime_can : (s.updTime f).can = s.can := rfl
@[simp] theorem State.updTime_wm : (s.updTime f).wm = s.wm := rfl
@[simp] theorem State.updTime_gpio : (s.updTime f).gpio = s.gpio := rfl
@[simp] theorem State.updTime_outs : (s.updTime f).outs = s.outs := rfl
@[simp] theorem State.updTime_tables : (s.updTime f).tables = s.tables := rfl

end

end Sys2Proof.Machine
end

