-- ==== Sys2Proof/Laws/Frames.lean ====
section
/-!
SUPPORT. What the shared operations leave alone: packets and events touch the host interface only; raising a fault, its reactions
and the ends of commands touch the axes, ports, buses, the host interface, the fault records and the configuration only.
-/
namespace Sys2Proof.Machine

/-! ### The host interface only -/

/-- `t` is `s` but for the host interface. -/
def HostOnly (s t : State) : Prop := t = { s with host := t.host }

theorem HostOnly.refl (s : State) : HostOnly s s := rfl

theorem HostOnly.of_host (s : State) (h : HostIf) : HostOnly s { s with host := h } := rfl

theorem HostOnly.trans {s t u : State} (h : HostOnly s t) (g : HostOnly t u) : HostOnly s u := by
  unfold HostOnly at *; rw [g, h]

theorem HostOnly.updHost (s : State) (f : HostIf → HostIf) : HostOnly s (s.updHost f) := rfl

theorem State.updQueue_hostOnly (s : State) (q : Fin 16) (f : Queue → Queue) : HostOnly s (s.updQueue q f) := rfl

theorem State.setInt_hostOnly (s : State) (b v : Fin 32) : HostOnly s (s.setInt b v) := rfl

theorem State.setSession_hostOnly (s : State) (src : Src) (x : Option Session) : HostOnly s (s.setSession src x) := rfl

theorem State.coalesce_hostOnly (s : State) (q : Fin 16) : HostOnly s (s.coalesce q) := by
  unfold State.coalesce
  dsimp only
  split
  · exact (State.updQueue_hostOnly s q _).trans (State.setInt_hostOnly _ _ _)
  · exact .refl s

theorem State.toQueue_hostOnly (s : State) (q : Fin 16) (o : OutPkt) : HostOnly s (s.toQueue q o) := by
  unfold State.toQueue
  dsimp only
  split
  · split
    · exact State.updQueue_hostOnly s q _
    · exact .refl s
  · split
    · exact (State.updQueue_hostOnly s q _).trans (State.coalesce_hostOnly _ _)
    · exact State.updQueue_hostOnly s q _

theorem State.emit_hostOnly (s : State) (src : Src) (o : OutPkt) : HostOnly s (s.emit src o) := by
  cases src with
  | pcie q => exact State.toQueue_hostOnly s q o
  | qspi => exact rfl
  | leader => exact rfl

theorem State.emitTo_hostOnly (s : State) (r : CmdRef) (o : OutPkt) : HostOnly s (s.emitTo r o) := by
  unfold State.emitTo
  split
  · exact State.emit_hostOnly s _ _
  · exact .refl s

theorem State.complete_hostOnly (s : State) (r : CmdRef) (st : Status) (det t : Nat) (x : List Byte) :
    HostOnly s (s.complete r st det t x) := by
  unfold State.complete
  split
  · exact .refl s
  · split
    · exact .refl s
    · exact (State.setSession_hostOnly s _ _).trans (State.emitTo_hostOnly _ _ _)

theorem State.complete?_hostOnly (s : State) (r : Option CmdRef) (st : Status) (det t : Nat) : HostOnly s (s.complete? r st det t) := by
  cases r with
  | none => exact .refl s
  | some r => exact State.complete_hostOnly s r st det t []

theorem HostOnly.foldl {α : Type} (l : List α) (f : State → α → State) (h : ∀ s x, HostOnly s (f s x)) (s : State) :
    HostOnly s (l.foldl f s) := by
  induction l generalizing s with
  | nil => exact .refl s
  | cons x l ih => exact (h s x).trans (ih _)

theorem State.completeAll_hostOnly (s : State) (l : List CmdRef) (st : Status) (det : Nat) : HostOnly s (s.completeAll l st det) :=
  HostOnly.foldl l _ (fun s r => State.complete_hostOnly s r st det s.now []) s

theorem State.eventTo_hostOnly (s : State) (src : Src) (op ax : Nat) (b : List Byte) (path : BitVec 32) :
    HostOnly s (s.eventTo src op ax b path) := by
  unfold State.eventTo
  split
  · exact .refl s
  · split
    · exact .refl s
    · dsimp only
      split
      · exact State.setSession_hostOnly s _ _
      · exact (State.setSession_hostOnly s _ _).trans (State.emit_hostOnly _ _ _)

/-- An event changes the host interface only. -/
theorem State.event_hostOnly (s : State) (op ax : Nat) (b : List Byte) : HostOnly s (s.event op ax b) := by
  unfold State.event
  split
  · exact .refl s
  · exact ((State.eventTo_hostOnly s _ _ _ _ _).trans (State.eventTo_hostOnly _ _ _ _ _ _)).trans (State.eventTo_hostOnly _ _ _ _ _ _)

/-! ### Reactions -/

/-- `t` is `s` but for the axes, ports and buses, the host interface, the fault records and the configuration. -/
def Reacts (s t : State) : Prop :=
  t = { s with axes := t.axes, ports := t.ports, buses := t.buses, host := t.host, faults := t.faults, cfg := t.cfg }

theorem Reacts.refl (s : State) : Reacts s s := rfl

theorem Reacts.trans {s t u : State} (h : Reacts s t) (g : Reacts t u) : Reacts s u := by
  unfold Reacts at *; rw [g, h]

theorem HostOnly.reacts {s t : State} (h : HostOnly s t) : Reacts s t := by
  unfold HostOnly at h; unfold Reacts; rw [h]

theorem Reacts.foldl {α : Type} (l : List α) (f : State → α → State) (h : ∀ s x, Reacts s (f s x)) (s : State) :
    Reacts s (l.foldl f s) := by
  induction l generalizing s with
  | nil => exact .refl s
  | cons x l ih => exact (h s x).trans (ih _)

theorem Reacts.updAxis (s : State) (i : Fin 512) (f : Axis → Axis) : Reacts s (s.updAxis i f) := rfl
theorem Reacts.updPort (s : State) (p : Fin 64) (f : Port → Port) : Reacts s (s.updPort p f) := rfl
theorem Reacts.updBus (s : State) (b : Fin 8) (f : Bus → Bus) : Reacts s (s.updBus b f) := rfl
theorem Reacts.updFaults (s : State) (f : Faults → Faults) : Reacts s (s.updFaults f) := rfl
theorem Reacts.updCfg (s : State) (f : Cfg → Cfg) : Reacts s (s.updCfg f) := rfl

theorem State.finishMotion_hostOnly (s : State) (i : Fin 512) (m : MotionCmd) (st : Status) (det : Nat) :
    HostOnly s (s.finishMotion i m st det) := by
  unfold State.finishMotion
  split
  · exact .refl s
  · exact (State.complete?_hostOnly s _ _ _ _).trans (State.event_hostOnly _ _ _ _)

theorem State.finishMotion?_hostOnly (s : State) (i : Fin 512) (m : Option MotionCmd) (st : Status) (det : Nat) :
    HostOnly s (s.finishMotion? i m st det) := by
  cases m with
  | none => exact .refl s
  | some m => exact State.finishMotion_hostOnly s i m st det

theorem State.endMotion_reacts (s : State) (i : Fin 512) (st : Status) (det : Nat) : Reacts s (s.endMotion i st det) :=
  (((State.finishMotion?_hostOnly s i _ st det).trans (State.finishMotion?_hostOnly _ i _ st det)).reacts).trans (Reacts.updAxis _ _ _)

theorem State.endStop_reacts (s : State) (i : Fin 512) (st : Status) (det : Nat) : Reacts s (s.endStop i st det) :=
  (State.finishMotion?_hostOnly s i _ st det).reacts.trans (Reacts.updAxis _ _ _)

theorem State.endEnable_reacts (s : State) (i : Fin 512) (st : Status) (det : Nat) : Reacts s (s.endEnable i st det) := by
  unfold State.endEnable
  split
  · exact .refl s
  · exact (State.completeAll_hostOnly s _ _ _).reacts.trans (Reacts.updAxis _ _ _)

theorem State.endDisable_reacts (s : State) (i : Fin 512) (st : Status) (det : Nat) : Reacts s (s.endDisable i st det) :=
  (State.completeAll_hostOnly s _ _ _).reacts.trans (Reacts.updAxis _ _ _)

theorem State.clearHold_reacts (s : State) (i : Fin 512) : Reacts s (s.clearHold i) := rfl

/-- What ends on an axis when it leaves its motion state. -/
theorem State.endAll_reacts (s : State) (i : Fin 512) (st : Status) (d1 d2 d3 d4 : Nat) :
    Reacts s ((((s.endMotion i st d1).endStop i st d2).endEnable i st d3).endDisable i st d4) :=
  (((State.endMotion_reacts s i _ _).trans (State.endStop_reacts _ i _ _)).trans (State.endEnable_reacts _ i _ _)).trans
    (State.endDisable_reacts _ i _ _)

theorem State.enterFault_reacts (s : State) (i : Fin 512) : Reacts s (s.enterFault i) :=
  ((State.endAll_reacts s i _ _ _ _ _).trans (State.clearHold_reacts _ i)).trans (Reacts.updAxis _ _ _)

theorem State.enterRetired_reacts (s : State) (i : Fin 512) : Reacts s (s.enterRetired i) :=
  (State.endAll_reacts s i _ _ _ _ _).trans (Reacts.updAxis _ _ _)

theorem State.enterRest_reacts (s : State) (i : Fin 512) (det : Nat) : Reacts s (s.enterRest i det) :=
  ((((State.endMotion_reacts s i _ _).trans (State.endStop_reacts _ i _ _)).trans (State.endEnable_reacts _ i _ _)).trans
    (Reacts.updAxis _ _ _)).trans (State.endDisable_reacts _ i _ _)

theorem State.energiseStart_reacts (s : State) (i : Fin 512) : Reacts s (s.energiseStart i) := by
  unfold State.energiseStart
  split
  · exact Reacts.updPort _ _ _
  · exact .refl s

theorem State.prereqChange_reacts (s : State) (i : Fin 512) : Reacts s (s.prereqChange i) := by
  unfold State.prereqChange
  dsimp only
  split
  · exact .refl s
  · split
    · refine Reacts.trans ?_ (Reacts.updAxis _ _ _)
      split
      · exact State.energiseStart_reacts s i
      · exact .refl s
    · refine Reacts.trans ?_ (Reacts.updAxis _ _ _)
      split
      · split
        · exact .refl s
        · exact State.endEnable_reacts s i _ _
      · exact State.endEnable_reacts s i _ _
    · exact .refl s

theorem State.prereqAll_reacts (s : State) : Reacts s s.prereqAll := Reacts.foldl _ _ State.prereqChange_reacts s

theorem State.startStop_reacts (s : State) (i : Fin 512) (k : StopKind) (det : Nat) : Reacts s (s.startStop i k det) := by
  unfold State.startStop
  dsimp only
  refine Reacts.trans ?_ (Reacts.updAxis _ _ _)
  split
  · exact .refl s
  · exact State.endMotion_reacts s i _ _

theorem State.logRec_reacts (s : State) (r : FaultRec) : Reacts s (s.logRec r) :=
  (Reacts.updFaults s _).trans (State.event_hostOnly _ _ _ _).reacts

theorem State.clearRec_reacts (s : State) (r : FaultRec) : Reacts s (s.clearRec r) :=
  (Reacts.updFaults s _).trans (State.logRec_reacts _ _)

theorem State.makeRoom_reacts (s : State) (c : Nat) : Reacts s (s.makeRoom c) := by
  unfold State.makeRoom
  split
  · exact .refl s
  · split
    · exact State.clearRec_reacts s _
    · exact .refl s

theorem State.enterActive_reacts (s : State) (r : FaultRec) : Reacts s (s.enterActive r).1 := by
  unfold State.enterActive
  dsimp only
  split
  · refine (State.makeRoom_reacts s r.cls).trans ?_
    exact rfl
  · exact State.makeRoom_reacts s _

theorem State.record_reacts (s : State) (a : FaultArg) (m : Bool) : Reacts s (s.record a m) :=
  (State.enterActive_reacts s _).trans (State.logRec_reacts _ _)

theorem State.reactAxis_reacts (s : State) (cls : Nat) (i : Fin 512) : Reacts s (s.reactAxis cls i) := by
  unfold State.reactAxis
  dsimp only
  split
  · exact .refl s
  · split
    · exact .refl s
    · exact .refl s
    · exact State.enterFault_reacts s i
    · exact State.enterFault_reacts s i
    · exact State.enterFault_reacts s i
    · split
      · exact State.enterFault_reacts s i
      · exact (State.startStop_reacts s i _ _).trans (Reacts.updAxis _ _ _)
    · split
      · exact State.enterFault_reacts s i
      · exact (State.startStop_reacts s i _ _).trans (Reacts.updAxis _ _ _)
    · split
      · exact State.enterFault_reacts s i
      · refine Reacts.trans ?_ ((State.startStop_reacts _ i _ _).trans (Reacts.updAxis _ _ _))
        split
        · exact .refl s
        · exact State.endStop_reacts s i _ _

theorem State.requestOff_reacts (s : State) (r : FaultRec) : Reacts s (s.requestOff r) := by
  unfold State.requestOff
  split
  · exact .refl s
  · refine Reacts.foldl _ _ (fun s p => ?_) s
    split
    · exact Reacts.updPort _ _ _
    · exact .refl _

theorem State.c5Port_reacts (s : State) (p : Fin 64) : Reacts s (s.c5Port p) := by
  unfold State.c5Port
  split
  · split
    · exact Reacts.updPort _ _ _
    · dsimp only
      split
      · exact Reacts.updFaults _ _
      · exact State.record_reacts _ _ _
  · exact .refl s

theorem State.c5Group_reacts (s : State) (b : Fin 8) : Reacts s (s.c5Group b) :=
  (Reacts.foldl _ _ State.c5Port_reacts s).trans (Reacts.updBus _ _ _)

theorem State.react_reacts (s : State) (r : FaultRec) : Reacts s (s.react r) := by
  refine ((State.requestOff_reacts s r).trans (Reacts.foldl _ _ State.c5Group_reacts _)).trans (Reacts.foldl _ _ (fun s i => ?_) _)
  split
  · exact State.reactAxis_reacts _ _ _
  · exact .refl _

theorem State.afterClear_reacts (s : State) : Reacts s s.afterClear := by
  refine ((Reacts.trans (Reacts.foldl _ _ (fun s p => Reacts.updPort _ _ _) s) (Reacts.foldl _ _ (fun s i => ?_) _)).trans
    (Reacts.foldl _ _ (fun s b => ?_) _)).trans (State.prereqAll_reacts _)
  · split
    · exact Reacts.updAxis _ _ _
    · exact .refl _
  · split
    · exact Reacts.updBus _ _ _
    · exact .refl _

theorem State.raiseOne_reacts (s : State) (a : FaultArg) : Reacts s (s.raiseOne a) := by
  unfold State.raiseOne
  split
  · dsimp only
    split
    · exact (Reacts.updFaults s _).trans (State.react_reacts _ _)
    · exact Reacts.updFaults s _
  · dsimp only
    split
    · exact ((State.record_reacts s _ _).trans (State.react_reacts _ _)).trans (State.afterClear_reacts _)
    · exact (State.record_reacts s _ _).trans (State.react_reacts _ _)

theorem State.raiseNow_reacts (s : State) (a : FaultArg) : Reacts s (s.raiseNow a) :=
  (State.raiseOne_reacts s a).trans (Reacts.foldl _ _ (fun s v => State.raiseOne_reacts s _) _)

/-- Raising a fault leaves everything but the axes, ports, buses, host interface, fault records and configuration as it was. -/
theorem State.raise_reacts (s : State) (a : FaultArg) : Reacts s (s.raise a) := by
  unfold State.raise
  split
  · exact Reacts.updFaults s _
  · exact State.raiseNow_reacts s a

theorem Reacts.same {s t : State} (h : Reacts s t) :
    t.pending = s.pending ∧ t.time = s.time ∧ t.boot = s.boot ∧ t.tg = s.tg ∧ t.dbg = s.dbg ∧ t.eng = s.eng ∧ t.xr = s.xr
      ∧ t.fb = s.fb ∧ t.probes = s.probes ∧ t.emus = s.emus ∧ t.net = s.net ∧ t.can = s.can ∧ t.wm = s.wm ∧ t.tables = s.tables := by
  unfold Reacts at h; rw [h]; simp

theorem Reacts.pending {s t : State} (h : Reacts s t) : t.pending = s.pending := h.same.1
theorem Reacts.time {s t : State} (h : Reacts s t) : t.time = s.time := h.same.2.1
theorem Reacts.xr {s t : State} (h : Reacts s t) : t.xr = s.xr := h.same.2.2.2.2.2.2.1
theorem Reacts.eng {s t : State} (h : Reacts s t) : t.eng = s.eng := h.same.2.2.2.2.2.1

@[simp] theorem State.raise_pending (s : State) (a : FaultArg) : (s.raise a).pending = s.pending := (State.raise_reacts s a).pending
@[simp] theorem State.raise_time (s : State) (a : FaultArg) : (s.raise a).time = s.time := (State.raise_reacts s a).time
@[simp] theorem State.raise_xr (s : State) (a : FaultArg) : (s.raise a).xr = s.xr := (State.raise_reacts s a).xr
@[simp] theorem State.raise_eng (s : State) (a : FaultArg) : (s.raise a).eng = s.eng := (State.raise_reacts s a).eng

end Sys2Proof.Machine
end

