-- ==== Sys2Proof/Laws/Memory.lean ====
section
/-!
SUPPORT. Sparse data: what a key reads after a write, and that every operation on a memory keeps its canonical form.
-/
namespace Sys2Proof.Machine

/-! ### Lists of keys and values -/

/-- Every key of the list lies above `k`. -/
def assocAbove {α : Type} (k : Nat) (m : List (Nat × α)) : Prop := ∀ c ∈ m, k < c.1

theorem assocSorted_cons {α : Type} (c : Nat × α) (m : List (Nat × α)) :
    assocSorted (c :: m) = true ↔ assocAbove c.1 m ∧ assocSorted m = true := by
  induction m generalizing c with
  | nil => simp [assocSorted, assocAbove]
  | cons d m ih =>
    obtain ⟨k, v⟩ := c
    obtain ⟨k', v'⟩ := d
    have := ih (k', v')
    constructor
    · intro h
      simp only [assocSorted, Bool.and_eq_true, decide_eq_true_eq] at h
      refine ⟨?_, h.2⟩
      intro e he
      rcases List.mem_cons.1 he with rfl | he
      · exact h.1
      · exact Nat.lt_trans h.1 ((this.1 h.2).1 e he)
    · rintro ⟨h1, h2⟩
      simp only [assocSorted, Bool.and_eq_true, decide_eq_true_eq]
      exact ⟨h1 (k', v') (by simp), h2⟩

theorem assocGet?_above {α : Type} {k : Nat} {m : List (Nat × α)} (h : assocAbove k m) : assocGet? m k = none := by
  induction m with
  | nil => rfl
  | cons c m ih =>
    obtain ⟨k', v⟩ := c
    have hk : k < k' := h (k', v) (by simp)
    simp only [assocGet?]
    rw [if_neg (by omega)]
    exact ih fun d hd => h d (by simp [hd])

theorem assocSet_mem {α : Type} {m : List (Nat × α)} {k : Nat} {v : α} {c : Nat × α} (h : c ∈ assocSet m k v) :
    c = (k, v) ∨ c ∈ m := by
  induction m with
  | nil => simpa [assocSet] using h
  | cons d m ih =>
    obtain ⟨k', v'⟩ := d
    simp only [assocSet] at h
    split at h
    · rcases List.mem_cons.1 h with rfl | h
      · exact .inl rfl
      · exact .inr h
    · split at h
      · rcases List.mem_cons.1 h with rfl | h
        · exact .inl rfl
        · exact .inr (by simp [h])
      · rcases List.mem_cons.1 h with rfl | h
        · simp
        · rcases ih h with rfl | h
          · simp
          · simp [h]

theorem assocErase_mem {α : Type} {m : List (Nat × α)} {k : Nat} {c : Nat × α} (h : c ∈ assocErase m k) : c ∈ m := by
  induction m with
  | nil => simp [assocErase] at h
  | cons d m ih =>
    obtain ⟨k', v'⟩ := d
    simp only [assocErase] at h
    split at h
    · simp [h]
    · rcases List.mem_cons.1 h with rfl | h
      · simp
      · simp [ih h]

theorem assocSet_sorted {α : Type} {m : List (Nat × α)} (k : Nat) (v : α) (h : assocSorted m = true) :
    assocSorted (assocSet m k v) = true := by
  induction m with
  | nil => rfl
  | cons c m ih =>
    obtain ⟨k', v'⟩ := c
    have hc := (assocSorted_cons (k', v') m).1 h
    simp only [assocSet]
    split
    · rename_i hk
      refine (assocSorted_cons _ _).2 ⟨fun d hd => ?_, h⟩
      rcases List.mem_cons.1 hd with rfl | hd
      · exact hk
      · exact Nat.lt_trans hk (hc.1 d hd)
    · split
      · rename_i hk
        subst hk
        exact (assocSorted_cons _ _).2 hc
      · refine (assocSorted_cons _ _).2 ⟨fun d hd => ?_, ih hc.2⟩
        rcases assocSet_mem hd with rfl | hd
        · simp only; omega
        · exact hc.1 d hd

theorem assocErase_sorted {α : Type} {m : List (Nat × α)} (k : Nat) (h : assocSorted m = true) :
    assocSorted (assocErase m k) = true := by
  induction m with
  | nil => rfl
  | cons c m ih =>
    obtain ⟨k', v'⟩ := c
    have hc := (assocSorted_cons (k', v') m).1 h
    simp only [assocErase]
    split
    · exact hc.2
    · exact (assocSorted_cons _ _).2 ⟨fun d hd => hc.1 d (assocErase_mem hd), ih hc.2⟩

theorem assocGet?_set {α : Type} {m : List (Nat × α)} (k j : Nat) (v : α) (h : assocSorted m = true) :
    assocGet? (assocSet m k v) j = if j = k then some v else assocGet? m j := by
  induction m with
  | nil => simp [assocSet, assocGet?]
  | cons c m ih =>
    obtain ⟨k', v'⟩ := c
    have hc := (assocSorted_cons (k', v') m).1 h
    simp only [assocSet]
    split
    · rename_i hk
      simp only [assocGet?]
    · split
      · rename_i hk
        subst hk
        simp only [assocGet?]
        split <;> rfl
      · simp only [assocGet?, ih hc.2]
        split
        · rename_i h1 h2 h3
          rw [if_neg (by omega)]
        · rfl

theorem assocGet?_erase {α : Type} {m : List (Nat × α)} (k j : Nat) (h : assocSorted m = true) :
    assocGet? (assocErase m k) j = if j = k then none else assocGet? m j := by
  induction m with
  | nil => simp [assocErase, assocGet?]
  | cons c m ih =>
    obtain ⟨k', v'⟩ := c
    have hc := (assocSorted_cons (k', v') m).1 h
    simp only [assocErase]
    split
    · rename_i hk
      subst hk
      by_cases hj : j = k
      · subst hj; simp [assocGet?_above hc.1]
      · simp [assocGet?, hj]
    · rename_i hk
      simp only [assocGet?, ih hc.2]
      split
      · rename_i h3
        rw [if_neg (by omega)]
      · rfl

/-! ### Memories -/

theorem Memory.wf_iff (m : Memory) : m.wf = true ↔ assocSorted m = true ∧ ∀ c ∈ m, c.2 ≠ 0#8 := by
  simp [Memory.wf, List.all_eq_true]

@[simp] theorem Memory.wf_nil : Memory.wf [] = true := rfl

@[simp] theorem Memory.read_nil (a : Nat) : Memory.read [] a = 0#8 := rfl

/-- A byte written reads back, every other byte as before. -/
theorem Memory.read_write (m : Memory) (a j : Nat) (b : Byte) (h : m.wf = true) :
    (m.write a b).read j = if j = a then b else m.read j := by
  have hs := ((Memory.wf_iff m).1 h).1
  unfold Memory.write Memory.read
  split
  · rename_i hb
    rw [assocGet?_erase a j hs]
    split
    · simp [hb]
    · rfl
  · rw [assocGet?_set a j b hs]
    split <;> rfl

theorem Memory.write_wf {m : Memory} (a : Nat) (b : Byte) (h : m.wf = true) : (m.write a b).wf = true := by
  rw [Memory.wf_iff] at h ⊢
  unfold Memory.write
  split
  · exact ⟨assocErase_sorted a h.1, fun c hc => h.2 c (assocErase_mem hc)⟩
  · rename_i hb
    refine ⟨assocSet_sorted a b h.1, fun c hc => ?_⟩
    rcases assocSet_mem hc with rfl | hc
    · exact hb
    · exact h.2 c hc

theorem Memory.writeN_wf {m : Memory} (a : Nat) (bs : List Byte) (h : m.wf = true) : (m.writeN a bs).wf = true := by
  induction bs generalizing m a with
  | nil => exact h
  | cons b bs ih => exact ih (a + 1) (Memory.write_wf a b h)

/-- A block of bytes written reads back, every byte outside as before. -/
theorem Memory.read_writeN (m : Memory) (a j : Nat) (bs : List Byte) (h : m.wf = true) :
    (m.writeN a bs).read j = if a ≤ j ∧ j < a + bs.length then bs.getD (j - a) 0#8 else m.read j := by
  induction bs generalizing m a with
  | nil => rw [if_neg (by simp)]; rfl
  | cons b bs ih =>
    rw [Memory.writeN, ih (m.write a b) (a + 1) (Memory.write_wf a b h), Memory.read_write m a j b h]
    by_cases h1 : j = a
    · subst h1
      rw [if_neg (by omega), if_pos rfl, if_pos (by simp)]
      simp
    · by_cases h2 : a + 1 ≤ j ∧ j < a + 1 + bs.length
      · have : j - a = (j - (a + 1)) + 1 := by omega
        rw [if_pos h2, if_pos (by simp; omega), this]
        simp
      · rw [if_neg h2, if_neg h1, if_neg (by simp; omega)]

@[simp] theorem Memory.readN_length (m : Memory) (a n : Nat) : (m.readN a n).length = n := by
  induction n generalizing a with
  | zero => rfl
  | succ n ih => simp [Memory.readN, ih]

theorem Memory.filter_wf {m : Memory} (p : Host.Cell → Bool) (h : m.wf = true) : Memory.wf (m.filter p) = true := by
  rw [Memory.wf_iff] at h ⊢
  refine ⟨?_, fun c hc => h.2 c (List.mem_filter.1 hc).1⟩
  obtain ⟨h, -⟩ := h
  induction m with
  | nil => rfl
  | cons c m ih =>
    have hc := (assocSorted_cons c m).1 h
    simp only [List.filter_cons]
    split
    · exact (assocSorted_cons _ _).2 ⟨fun d hd => hc.1 d (List.mem_filter.1 hd).1, ih hc.2⟩
    · exact ih hc.2

theorem Memory.clear_wf {m : Memory} (lo hi : Nat) (h : m.wf = true) : (m.clear lo hi).wf = true := Memory.filter_wf _ h

theorem Memory.copy_wf {m : Memory} (src dst n : Nat) (h : m.wf = true) : (m.copy src dst n).wf = true := by
  induction n generalizing m src dst with
  | zero => exact h
  | succ n ih => exact ih _ _ (Memory.write_wf _ _ h)

/-! ### Crossroads -/

theorem Xr.writeByte_none {x : Xr} (a : Nat) (b : Byte) (h : x.reloc = none) :
    x.writeByte a b = { x with mem := x.mem.write (x.phys a) b } := by
  simp only [Xr.writeByte, h]

theorem Xr.writeByte_some {x : Xr} {r : Relocation} (a : Nat) (b : Byte) (h : x.reloc = some r) :
    x.writeByte a b =
      if xrBank a = r.bank ∧ a < detourBase then
        { x with
          mem := (x.mem.write (x.phys a) b).copy (a / 8 * 8) (detourWord r.bank (xrRow a)) 8
          reloc := some { r with written := if r.written.contains (a / 8) then r.written else a / 8 :: r.written } }
      else { x with mem := x.mem.write (x.phys a) b } := by
  simp only [Xr.writeByte, h]

theorem Xr.writeByte_wf {x : Xr} (a : Nat) (b : Byte) (h : x.mem.wf = true) : (x.writeByte a b).mem.wf = true := by
  cases hr : x.reloc with
  | none => rw [Xr.writeByte_none a b hr]; exact Memory.write_wf _ _ h
  | some r =>
    rw [Xr.writeByte_some a b hr]
    by_cases hc : xrBank a = r.bank ∧ a < detourBase
    · rw [if_pos hc]; dsimp only; exact Memory.copy_wf _ _ _ (Memory.write_wf _ _ h)
    · rw [if_neg hc]; dsimp only; exact Memory.write_wf _ _ h

theorem Xr.write_wf {x : Xr} (a : Nat) (bs : List Byte) (h : x.mem.wf = true) : (x.write a bs).mem.wf = true := by
  induction bs generalizing x a with
  | nil => exact h
  | cons b bs ih => exact ih (a + 1) (Xr.writeByte_wf a b h)

theorem Xr.copyBank_wf {x : Xr} (r : Relocation) (lost : List Nat) (h : x.mem.wf = true) : (x.copyBank r lost).mem.wf = true := by
  simp only [Xr.copyBank]
  generalize List.filter _ x.mem = l
  suffices ∀ m : Memory, m.wf = true →
      (l.foldl (fun m c => m.write (detourWord r.bank (xrRow c.1) + c.1 % 8) c.2) m).wf = true from this _ h
  induction l with
  | nil => exact fun m h => h
  | cons c l ih => exact fun m h => ih _ (Memory.write_wf _ _ h)

/-- With no relocation under way a byte written to Crossroads is what its place reads, and every other place reads as before. -/
theorem Xr.read_writeByte (x : Xr) (a j : Nat) (b : Byte) (h : x.mem.wf = true) (hr : x.reloc = none) :
    (x.writeByte a b).mem.read j = if j = x.phys a then b else x.mem.read j := by
  rw [Xr.writeByte_none a b hr]
  exact Memory.read_write _ _ _ _ h

theorem Xr.writeByte_frame (x : Xr) (a : Nat) (b : Byte) :
    x.writeByte a b = { x with mem := (x.writeByte a b).mem, reloc := (x.writeByte a b).reloc } := by
  cases hr : x.reloc with
  | none => simp only [Xr.writeByte_none a b hr, hr]
  | some r =>
    by_cases hc : xrBank a = r.bank ∧ a < detourBase
    · simp only [Xr.writeByte_some a b hr, if_pos hc]
    · simp only [Xr.writeByte_some a b hr, if_neg hc]

/-- A write changes only what Crossroads stores and, during a relocation, the words it notes as written. -/
theorem Xr.write_frame (x : Xr) (a : Nat) (bs : List Byte) :
    x.write a bs = { x with mem := (x.write a bs).mem, reloc := (x.write a bs).reloc } := by
  induction bs generalizing x a with
  | nil => rfl
  | cons b bs ih =>
    have h := Xr.writeByte_frame x a b
    rw [Xr.write, ih]
    rw [h]

end Sys2Proof.Machine
end

