-- ==== Sys2Proof/Machine/Balls.lean ====
section
/-!
DEFINITION. The balls (R520 to R529): which ball carries which signal or supply, and the properties of the signals. Static data; no
command reads it.
-/
namespace Sys2Proof.Machine

/-- The letters of row names, in order (R520). -/
def rowLetters : List Char := "ABCDEFGHJKLMNPTUVWY".toList

/-- Name of row 1 to 54 (Table 18.1). -/
def rowName (r : Nat) : String :=
  let c := rowLetters.getD ((r - 1) % 19) 'A'
  let first : List Char := if r ≤ 19 then [] else if r ≤ 38 then ['A'] else ['B']
  String.ofList (first ++ [c])

/-- Row and column of the place at depth `d` and length `l` of bank n (Table 18.5). -/
def bankPlace (n d l : Nat) : Nat × Nat :=
  match n with
  | 0 => (d, l)
  | 1 => (d, 22 + l)
  | 2 => (l, 55 - d)
  | 3 => (22 + l, 55 - d)
  | 4 => (55 - d, 55 - l)
  | 5 => (55 - d, 33 - l)
  | 6 => (55 - l, d)
  | _ => (33 - l, d)

/-- Signals of a port by depth in columns a and b (Table 18.3). -/
def portCell : List (String × String) :=
  [("AH", "AL"), ("BH", "BL"), ("CH", "CL"), ("DH", "DL"), ("GEN", "DRVFLT_N"), ("SNSA", "SNSB"), ("SNSC", "SNSD"), ("SDC", "SD0"),
   ("SD1", "SD2"), ("SD3", "BRK"), ("BRKFB", "FBZ"), ("FBA", "FBB")]

/-- Depth and column of a signal of a port: 0 column a, 1 column b. -/
def cellPlace (sig : String) : Option (Nat × Nat) :=
  portCell.zipIdx.findSome? fun x =>
    if x.1.1 = sig then some (x.2 + 1, 0) else if x.1.2 = sig then some (x.2 + 1, 1) else none

/-- Ball of a signal of port p (R522, R523). -/
def portBall (p : Nat) (sig : String) : Option (Nat × Nat) :=
  (cellPlace sig).map fun x => bankPlace (p / 8) x.1 (5 * (p % 8 / 2) + 2 * (p % 2) + 1 + x.2)

/-- Depth and shared column of the other signals of a bank (Table 18.4). -/
inductive BankPin where
  | vsd | chfb | chop | pre | rex | emuA | emuB | emuZ
  | prb (k : Fin 4)
  deriving DecidableEq, Repr

def BankPin.place : BankPin → Nat × Nat
  | .vsd => (1, 0) | .chfb => (2, 0) | .chop => (3, 0) | .pre => (1, 1) | .rex => (2, 1) | .emuA => (3, 1) | .emuB => (1, 2)
  | .emuZ => (2, 2) | .prb 0 => (3, 2) | .prb 1 => (1, 3) | .prb 2 => (2, 3) | .prb _ => (3, 3)

/-- Ball of a shared signal of bank n. -/
def bankBall (n : Nat) (x : BankPin) : Nat × Nat := bankPlace n x.place.1 (5 * x.place.2 + 5)

/-- A ball by its name (R520). -/
def ballName (b : Nat × Nat) : String := rowName b.1 ++ toString b.2

/-! ### Gaps and core (R525 to R528) -/

/-- What a ball carries: a signal or a supply of Table 18.2. -/
inductive BallUse where
  | sig (name : String)
  | vss | vdd | vddm | vddio33 | vddio18 | vdda18 | vddsSx | vddhSx | vddTgio | vddTg
  deriving DecidableEq, Repr

/-- Two digits of a number below 100. -/
def two (n : Nat) : String := toString (n / 10 % 10) ++ toString (n % 10)

/-- Signals with consecutive numbers. -/
def numbered (stem : String) (wide : Bool) (lo n : Nat) : List BallUse :=
  (List.range n).map fun k => .sig (stem ++ (if wide then two (lo + k) else toString (lo + k)))

def pairNet (name : String) : BallUse × BallUse := (.sig (name ++ "_P"), .sig (name ++ "_N"))
def twoSig (a b : String) : BallUse × BallUse := (.sig a, .sig b)
def twoVss : BallUse × BallUse := (.vss, .vss)

/-- Table 18.7 by depth: top, right, bottom and left gap. -/
def topGap : List (BallUse × BallUse) :=
  [pairNet "PCIE_TX0", pairNet "PCIE_TX1", twoVss, pairNet "PCIE_TX2", pairNet "PCIE_TX3", twoVss,
   pairNet "PCIE_RX0", pairNet "PCIE_RX1", twoVss, pairNet "PCIE_RX2", pairNet "PCIE_RX3", pairNet "PCIE_REFCLK"]
def rightGap : List (BallUse × BallUse) :=
  ["E0_TX", "E1_TX", "E2_TX", "E3_TX"].map pairNet ++ [twoVss] ++ ["E0_RX", "E1_RX", "E2_RX", "E3_RX"].map pairNet
    ++ [twoVss, pairNet "ETH_REFCLK0", pairNet "ETH_REFCLK1"]
def bottomGap : List (BallUse × BallUse) :=
  [twoSig "C0_TX" "C0_RX", twoSig "C1_TX" "C1_RX", twoSig "C2_TX" "C2_RX", twoSig "C3_TX" "C3_RX", twoVss,
   twoSig "HQ_CLK" "HQ_CS_N", twoSig "HQ_IO0" "HQ_IO1", twoSig "HQ_IO2" "HQ_IO3", (.sig "HQ_IRQ_N", .vss),
   twoSig "BQ_CLK" "BQ_CS_N", twoSig "BQ_IO0" "BQ_IO1", twoSig "BQ_IO2" "BQ_IO3"]
def leftGap : List (BallUse × BallUse) :=
  [twoSig "TCK" "TMS", twoSig "TDI" "TDO", (.sig "TRST_N", .vss), twoVss]
    ++ (List.range 8).map fun k => twoSig ("TMUX" ++ toString (2 * k)) ("TMUX" ++ toString (2 * k + 1))

/-- Table 18.8: rows N to AC of the Tollgate block, columns 13 to 22. -/
def tollgateBlock : List (List BallUse) :=
  [numbered "SI" true 0 10, numbered "SI" true 10 10, numbered "SI" true 20 10,
   numbered "SI" true 30 2 ++ numbered "TPO" false 0 8,
   numbered "SO" true 0 10, numbered "SO" true 10 6 ++ numbered "EDM" true 8 4,
   numbered "EDM" true 12 4 ++ [.sig "POR_N"] ++ numbered "PSEQ" false 0 4 ++ [.sig "PGOOD0"],
   numbered "PGOOD" false 1 3 ++ [.sig "SAFE_N", .sig "FAULT_N"] ++ List.replicate 5 .vddTgio,
   List.replicate 3 .vddTgio ++ List.replicate 7 .vddTg, .vddTg :: List.replicate 9 .vss]

/-- Table 18.9: rows N to AC of the I/O block, columns 23 to 42. -/
def ioBlock : List (List BallUse) :=
  [numbered "GPIO" true 0 20,
   numbered "GPIO" true 20 12
     ++ ["REFCLK_IN", "RST_N", "TESTMODE", "PCIE_PERST_N", "PCIE_CLKREQ_N", "PCIE_WAKE_N"].map BallUse.sig ++ [.vss, .vss],
   ["ETH_MDC", "ETH_MDIO", "PPS_IN", "PPS_OUT", "ATEST", "RBIAS"].map BallUse.sig ++ List.replicate 14 .vss,
   List.replicate 20 .vddio18, List.replicate 20 .vddio18, List.replicate 20 .vddio18,
   List.replicate 4 .vddio18 ++ List.replicate 16 .vdda18, List.replicate 20 .vdda18,
   List.replicate 4 .vdda18 ++ List.replicate 16 .vddsSx, List.replicate 8 .vddsSx ++ List.replicate 12 .vddhSx]

/-- Memory band and core array (R528). -/
def coreNet (r c : Nat) : BallUse :=
  if r ≤ 26 then (if [15, 20, 25, 30, 35, 40].contains c then .vss else .vddm)
  else if [13, 15, 18, 20, 23, 25, 28, 30, 33, 35, 38, 40].contains c || (c == 42 && r % 2 == 0) then .vss else .vdd

/-! ### Regions (R521, Table 18.2) -/

/-- Regions of the ball array. -/
inductive BallRegion where
  | bank (n : Nat)
  | top | right | bottom | left
  | tollgate | io | core
  deriving DecidableEq, Repr

/-- Region of a ball: four bands in a pinwheel around the core, each of two banks with a gap between them. -/
def ballRegion (r c : Nat) : BallRegion :=
  if r ≤ 12 ∧ c ≤ 42 then (if c ≤ 20 then .bank 0 else if c ≤ 22 then .top else .bank 1)
  else if 43 ≤ c ∧ r ≤ 42 then (if r ≤ 20 then .bank 2 else if r ≤ 22 then .right else .bank 3)
  else if 43 ≤ r ∧ 13 ≤ c then (if 35 ≤ c then .bank 4 else if 33 ≤ c then .bottom else .bank 5)
  else if c ≤ 12 then (if 35 ≤ r then .bank 6 else if 33 ≤ r then .left else .bank 7)
  else if r ≤ 22 then (if c ≤ 22 then .tollgate else .io)
  else .core

/-- Local depth and length of a ball of a bank: the inverse of `bankPlace`. -/
def bankLocal (n r c : Nat) : Nat × Nat :=
  match n with
  | 0 => (r, c)
  | 1 => (r, c - 22)
  | 2 => (55 - c, r)
  | 3 => (55 - c, r - 22)
  | 4 => (55 - r, 55 - c)
  | 5 => (55 - r, 33 - c)
  | 6 => (c, 55 - r)
  | _ => (c, 33 - r)

/-- Signals of the shared columns of bank n (Table 18.4). -/
def sharedSignals (n : Nat) : List (List String) :=
  let d := "DCB" ++ toString n
  let e := "EMU" ++ toString n
  let p (k : Nat) := "PRB" ++ two (4 * n + k)
  [[d ++ "_VSD", d ++ "_CHFB", d ++ "_CHOP"], [d ++ "_PRE", "REX" ++ toString n, e ++ "_A"], [e ++ "_B", e ++ "_Z", p 0],
   [p 1, p 2, p 3]]

/-- What the ball at depth `d` and length `l` of bank n carries (R523, Tables 18.3, 18.4). -/
def bankNet (n d l : Nat) : BallUse :=
  let g := (l - 1) / 5
  let w := (l - 1) % 5
  if w = 4 then
    if d ≤ 3 then .sig (((sharedSignals n).getD g []).getD (d - 1) "")
    else if d % 2 = 0 || (d == 11 && g == 3) then .vss else .vddio33
  else
    let x := portCell.getD (d - 1) ("", "")
    .sig ("P" ++ two (8 * n + 2 * g + w / 2) ++ "_" ++ (if w % 2 = 0 then x.1 else x.2))

def firstOr (snd : Bool) (x : BallUse × BallUse) : BallUse := if snd then x.2 else x.1

/-- What the ball in row `r` and column `c` carries, both from 1 to 54 (R521 to R528). -/
def ballNet (r c : Nat) : BallUse :=
  match ballRegion r c with
  | .bank n => let x := bankLocal n r c; bankNet n x.1 x.2
  | .top => firstOr (c == 22) (topGap.getD (r - 1) twoVss)
  | .right => firstOr (r == 22) (rightGap.getD (54 - c) twoVss)
  | .bottom => firstOr (c == 33) (bottomGap.getD (54 - r) twoVss)
  | .left => firstOr (r == 33) (leftGap.getD (c - 1) twoVss)
  | .tollgate => (tollgateBlock.getD (r - 13) []).getD (c - 13) .vss
  | .io => (ioBlock.getD (r - 13) []).getD (c - 23) .vss
  | .core => coreNet r c

/-! ### Signal properties (R529, Tables 18.10, 18.11) -/

inductive PinDir where
  | inp | out | inOut | none
  deriving DecidableEq, Repr

/-- I/O types of Table 18.10; `od` marks an open drain. -/
inductive IoType where
  | p33 | a33 | t33 (od : Bool) | p18 (od : Bool) | sxo | sxi | sxc | an
  deriving DecidableEq, Repr

/-- A row of Table 18.11: stems of the signals, direction, type, supplies. -/
structure PinGroup where
  stems : List String
  dir : PinDir
  type : IoType
  supply : List BallUse
  deriving DecidableEq, Repr

def pinGroups : List PinGroup :=
  [⟨["AH", "AL", "BH", "BL", "CH", "CL", "DH", "DL"], .out, .p33, [.vddio33]⟩,
   ⟨["GEN", "BRK"], .out, .p33, [.vddio33]⟩,
   ⟨["DRVFLT_N"], .inp, .p33, [.vddio33]⟩,
   ⟨["SNSA", "SNSB", "SNSC", "SNSD"], .inp, .a33, [.vddio33]⟩,
   ⟨["SD0", "SD1", "SD2", "SD3"], .inp, .p33, [.vddio33]⟩,
   ⟨["SDC"], .out, .p33, [.vddio33]⟩,
   ⟨["FBA"], .inOut, .p33, [.vddio33]⟩,
   ⟨["FBB", "FBZ", "BRKFB"], .inp, .p33, [.vddio33]⟩,
   ⟨["VSD", "CHFB"], .inp, .p33, [.vddio33]⟩,
   ⟨["CHOP", "PRE", "REX", "EMU"], .out, .p33, [.vddio33]⟩,
   ⟨["PRB"], .inp, .p33, [.vddio33]⟩,
   ⟨["SI", "EDM"], .inp, .t33 false, [.vddTgio]⟩,
   ⟨["TPO", "SO"], .out, .t33 false, [.vddTgio]⟩,
   ⟨["POR_N", "PGOOD"], .inp, .t33 false, [.vddTgio]⟩,
   ⟨["PSEQ"], .out, .t33 false, [.vddTgio]⟩,
   ⟨["FAULT_N", "SAFE_N"], .out, .t33 true, [.vddTgio]⟩]
  ++
  [⟨["REFCLK_IN"], .inp, .p18 false, [.vddio18]⟩,
   ⟨["RST_N", "TESTMODE"], .inp, .p18 false, [.vddio18]⟩,
   ⟨["GPIO"], .inOut, .p18 false, [.vddio18]⟩,
   ⟨["TMUX"], .out, .p18 false, [.vddio18]⟩,
   ⟨["TCK", "TMS", "TDI", "TRST_N"], .inp, .p18 false, [.vddio18]⟩,
   ⟨["TDO"], .out, .p18 false, [.vddio18]⟩,
   ⟨["HQ_CS_N", "HQ_CLK"], .inp, .p18 false, [.vddio18]⟩,
   ⟨["HQ_IO"], .inOut, .p18 false, [.vddio18]⟩,
   ⟨["HQ_IRQ_N"], .out, .p18 false, [.vddio18]⟩,
   ⟨["BQ_CS_N", "BQ_CLK"], .out, .p18 false, [.vddio18]⟩,
   ⟨["BQ_IO"], .inOut, .p18 false, [.vddio18]⟩,
   ⟨["C0_TX", "C1_TX", "C2_TX", "C3_TX"], .out, .p18 false, [.vddio18]⟩,
   ⟨["C0_RX", "C1_RX", "C2_RX", "C3_RX"], .inp, .p18 false, [.vddio18]⟩,
   ⟨["ETH_MDC"], .out, .p18 false, [.vddio18]⟩,
   ⟨["ETH_MDIO"], .inOut, .p18 false, [.vddio18]⟩,
   ⟨["PPS_OUT"], .out, .p18 false, [.vddio18]⟩,
   ⟨["PPS_IN", "PCIE_PERST_N"], .inp, .p18 false, [.vddio18]⟩,
   ⟨["PCIE_CLKREQ_N", "PCIE_WAKE_N"], .out, .p18 true, [.vddio18]⟩,
   ⟨["PCIE_TX", "E0_TX", "E1_TX", "E2_TX", "E3_TX"], .out, .sxo, [.vddsSx, .vddhSx]⟩,
   ⟨["PCIE_RX", "E0_RX", "E1_RX", "E2_RX", "E3_RX"], .inp, .sxi, [.vddsSx, .vddhSx]⟩,
   ⟨["PCIE_REFCLK", "ETH_REFCLK"], .inp, .sxc, [.vddhSx]⟩,
   ⟨["RBIAS", "ATEST"], .none, .an, [.vdda18]⟩]

end Sys2Proof.Machine
end

