-- ==== Sys2Proof/Machine/Pins.lean ====
section
/-!
DEFINITION. What the output pins show (R517, R529, Tables 17.10 and 18.11): a level, or none where the pin is an input, released or
carries bits that the model does not hold. Every level is a function of the state; nothing here changes it.
-/
namespace Sys2Proof.Machine

/-- Output pins of Table 18.11 whose level the state gives. -/
inductive OutPin where
  | pwm (p : Fin 64) (k : Fin 8)
  | gen (p : Fin 64)
  | brk (p : Fin 64)
  | sdc (p : Fin 64)
  | fba (p : Fin 64)
  | chop (b : Fin 8)
  | pre (b : Fin 8)
  | rex (n : Fin 8)
  | emuA (n : Fin 8)
  | emuB (n : Fin 8)
  | emuZ (n : Fin 8)
  | tpo (n : Fin 8)
  | so (o : Fin 16)
  | pseq (k : Fin 4)
  | faultN
  | safeN
  | tmux (n : Fin 16)
  | hqIrqN
  | canTx (c : Fin 4)
  | ppsOut
  deriving DecidableEq, Repr

/-- The event of a signal lies 4 ticks back (R517). -/
def State.strobed (s : State) (n : Fin 16) : Bool := (s.dbg.strobes[n]).any fun t => s.ticks == t + 4

/-- Level of the signal that a pin selects (Table 17.10). Signals that last are shown without the delay of 4 ticks (DESIGN CHOICE, log
116). -/
def State.tmuxSignal (s : State) (n : Fin 16) (signal inst : Nat) : Bool :=
  let eng : Fin 24 := ⟨inst % 24, Nat.mod_lt _ (by decide)⟩
  let port : Fin 64 := ⟨inst % 64, Nat.mod_lt _ (by decide)⟩
  match signal with
  | 0x04 => (s.ports[port]).trip != .armed
  | 0x06 => (s.eng[eng]).run.isSome || !(s.eng[eng]).preempted.isEmpty || !(s.eng[eng]).waiting.isEmpty
  | 0x09 => s.time.servo == .locked
  | 0x0A => (s.buses[(⟨inst % 8, Nat.mod_lt _ (by decide)⟩ : Fin 8)]).chop
  | 0x0B => (s.fb[(⟨inst / 3 % 64, Nat.mod_lt _ (by decide)⟩ : Fin 64)]).pin (inst % 3)
  | 0x0D => decide (512 < s.wm.fifo.length)
  | 0x0F => s.ticks / 2 ^ (inst + 3) % 2 == 1
  | 0x00 => false
  | _ => s.strobed n

/-- `TMUXn`: low below level 1. -/
def State.tmuxPin (s : State) (n : Fin 16) : Bool :=
  decide (1 ≤ s.dbgLevel) && s.tmuxSignal n (s.dbg.tmux[n]).1 (s.dbg.tmux[n]).2

/-- A pin that is open drain: low, or released. -/
def openDrain (low : Bool) : Option Bool := if low then some false else none

/-- Level of an output pin (Table 18.11); `Cn_TX` is recessive where the controller does not send (Table 14.4). -/
def State.outPin (s : State) : OutPin → Option Bool
  | .pwm p k => some (s.pwmPad p k)
  | .gen p => some (s.tg.gen.getLsbD p.val)
  | .brk p => some (s.tg.brk.getLsbD p.val)
  | .sdc p => some (s.sdc p)
  | .fba p => s.fbaOut p
  | .chop b => some (s.buses[b]).chop
  | .pre b => some (s.buses[b]).pre
  | .rex n => some (s.rex[n]).level
  | .emuA n => some (s.emus[n]).a
  | .emuB n => some (s.emus[n]).b
  | .emuZ n => some (s.emus[n]).z
  | .tpo n => some (s.tpoPin n.val)
  | .so o => some (s.soPin o)
  | .pseq k => some (s.boot.pseq.getLsbD k.val)
  | .faultN => openDrain s.faultN
  | .safeN => openDrain s.safeN
  | .tmux n => some (s.tmuxPin n)
  | .hqIrqN => some (!s.hqIrq)
  | .canTx c => if (s.can[c]).active then none else some true
  | .ppsOut => some s.time.pps

end Sys2Proof.Machine
end

