-- ==== Sys2Proof/Tests/Slice0.lean ====
section
/-!
SUPPORT. Small tests, and the witnesses of the statements' hypotheses: `witness_<Name>` shows a concrete state and operands for the
hypotheses of the statement `<Name>`, clause by clause.
-/
open Sys2Proof Sys2Proof.Machine
namespace Sys2Proof.Tests

-- One declaration at a time: many threads at once, each with a stack of its own, would exceed the check's memory limit.
set_option Elab.async false

/-! ### Ill-formed commands, one for each check of `Instr.wf` -/

/-- A request on queue pair 0, in version 3, with CRC. -/
def packet (op : Nat) (args : List Byte) (axis : BitVec 16 := 0xFFFF) : Packet :=
  { src := .pcie 0, version := 3, flags := 0, opcode := BitVec.ofNat 16 op, tag := 7, axis := axis, path := 0, payload := args, crc := true }

/-- A slot of a word on engine 0. -/
def slot (last : Bool) : Issue := { e := 0, last := last, ecc := .ok }

theorem test_wf_packet : (Instr.ping (packet 3 [])).wf = true ∧ (Instr.ping (packet 4 [])).wf = false
    ∧ (Instr.ping { packet 3 [] with version := 4 }).wf = false ∧ (Instr.ping { packet 3 [] with flags := 16 }).wf = false
    ∧ (Instr.ping { packet 3 [] with path := 1 }).wf = false ∧ (Instr.ping { packet 3 [] with flags := 4 }).wf = false
    ∧ (Instr.ping { packet 3 (zeros 1021) with version := 1 }).wf = false := by decide +kernel

theorem test_wf_forward : (Instr.packetForward (packet 3 [])).wf = false ∧ (Instr.packetForward { packet 3 [] with path := 1 }).wf = true
    ∧ (Instr.replyRelay 0 (packet 3 [])).wf = false ∧ (Instr.groupEnd (packet 3 [])).wf = false
    ∧ (Instr.groupEnd { packet 3 [] with flags := 2 }).wf = true := by decide

theorem test_wf_transport : (Instr.sqDoorbell 0 0 [⟨0, 0, zeros 59⟩] false).wf = false
    ∧ (Instr.registerWrite .bar0 0x4000 4 0).wf = false ∧ (Instr.registerWrite .bar0 2 4 0).wf = false
    ∧ (Instr.registerWrite .bar2 0x2000 4 0).wf = false ∧ (Instr.registerWrite .bar2 0x1FFC 4 0).wf = true := by decide

theorem test_wf_qspi : (Instr.qspiWrite (zeros 4105)).wf = false := by decide +kernel

theorem test_wf_engine : (Instr.vcmp (slot false) 0 0 3).wf = false ∧ (Instr.fcmp (slot false) 0 0 3).wf = false
    ∧ (Instr.vperm (slot false) 0 0 5).wf = false ∧ (Instr.ldV (slot false) 0 ⟨0, 6, 0⟩).wf = false
    ∧ (Instr.ldA (slot false) 0 ⟨8, 4, 0⟩).wf = false ∧ (Instr.ldL (slot false) 0 0 ⟨8, 5, 0⟩).wf = false
    ∧ (Instr.stV (slot false) 0 ⟨0, 7, 0⟩).wf = false ∧ (Instr.stA (slot false) 0 ⟨0, 6, 0⟩).wf = false
    ∧ (Instr.stL (slot false) 0 0 ⟨0, 6, 0⟩).wf = false ∧ (Instr.ldD (slot false) 1 ⟨0, 0, 0⟩).wf = false
    ∧ (Instr.ldD (slot false) 0 ⟨8, 0, 0⟩).wf = false ∧ (Instr.lsD (slot false) 0 ⟨8, 0, 0⟩).wf = false
    ∧ (Instr.hstart (slot false) 3).wf = false ∧ (Instr.hwait (slot false) 3).wf = false ∧ (Instr.br (slot false) 9 0 0).wf = false
    ∧ (Instr.call (slot false) 9 0 0).wf = false ∧ (Instr.ret (slot false) 9 0).wf = false
    ∧ (Instr.haulTransferComplete 0 [4096] [] 0).wf = false ∧ (Instr.haulTransferComplete 0 [] [(4096, true)] 0).wf = false := by decide

/-- A CAN frame of a format with an 11-bit identifier and `n` bytes. -/
def frame (fmt : Fin 4) (n : Nat) : CanFrame :=
  { fmt := fmt, id := 1, ide := false, rtr := false, brs := false, esi := false, sdt := 0, vcid := 0, af := 0, sec := false, data := zeros n }

theorem test_wf_can : (Instr.canFrameEnd 0 (frame 1 9) 0).wf = false ∧ (Instr.canFrameEnd 0 (frame 2 9) 0).wf = false
    ∧ (Instr.canFrameEnd 0 (frame 3 0) 0).wf = false ∧ (Instr.canFrameEnd 0 (frame 0 1) 0).wf = false
    ∧ (Instr.canFrameEnd 0 { frame 1 8 with id := 2048 } 0).wf = false ∧ (Instr.canFrameEnd 0 { frame 3 8 with ide := true } 0).wf = false
    ∧ (Instr.canReferenceReceived 0 { frame 2 8 with rtr := true } 0).wf = false := by decide

/-- A `NET` setpoint, a report and a master image of an axis. -/
def netSp (a : BitVec 16) : NetSp := { axis := a, enable := true, quick := false, ack := false, t := 0, p := 0, v := 0, a := 0, limPos := 0, limNeg := 0 }
def netRep (a : BitVec 16) : NetRep :=
  { axis := a, ready := true, enabled := true, fault := false, regen := false, code := 0, t := 0, p := 0, v := 0 }
def mImg (a : BitVec 16) : MImg := { axis := a, path := 0, t := 0, p := 0, v := 0, a := 0 }
def found (k : BitVec 8) : Found :=
  { serial := 1, pos := 1, jalut := 1, lo := 1, hi := 3, state := 0, index := k, byway := 0, mask := 0, enabled := false }

theorem test_wf_line : (Instr.jalutFramePass 0 0 0 0 0 true true [netSp 512] []).wf = false
    ∧ (Instr.jalutFramePass 0 0 0 0 0 true true [] [mImg 512]).wf = false
    ∧ (Instr.jalutUpstreamArrival 0 0 true [netRep 512] []).wf = false
    ∧ (Instr.jalutPacketFragment 1 0 1 1 [] false).wf = false ∧ (Instr.discoveryFrame (.reply (found 16))).wf = false := by decide

theorem test_wf_memory : (Instr.portLAccess 0 false 0x2800000 0 0 .ok).wf = false ∧ (Instr.portLAccess 0 false 4 0 0 .ok).wf = false
    ∧ (Instr.portSAccess 0 false 4 0 0 .ok none).wf = false ∧ (Instr.scrubRead 0x2800000 .ok false false).wf = false
    ∧ (Instr.bankRelocationCopyComplete [81920]).wf = false ∧ (Instr.jtagDebugAccess (.readEngine 0 .clmX 0x7FFF 2)).wf = false
    ∧ (Instr.jtagDebugAccess (.writeEngine 0 .plm 0xFFFF [0, 0])).wf = false
    ∧ (Instr.jtagDebugAccess (.readXr 0x27FFFFF 2)).wf = false ∧ (Instr.jtagDebugAccess (.writeXr 0x27FFFFF [0, 0])).wf = false := by decide

theorem test_wf_sealed (b : List Byte) (h : 65536 < b.length) : (Instr.cfgTransfer b []).wf = false
  ∧ (Instr.cfgTransfer [] b).wf = false := by
  simp [Instr.wf, h]

theorem test_wf_image (img : List Byte) (f : ImageFacts) (h : 0x800110 < img.length) : (Instr.bootImageLoaded true img f).wf = false := by
  simp [Instr.wf, h]

theorem test_wf_taps : (Instr.delayLineCalibration 0 []).wf = false := by decide

/-! ### Witnesses: loop engines -/

/-- The state right after reset with this engine 0, the main domain released. -/
def onEngine (x : Engine) : State := { State.reset with boot := { inReset := false }, eng := upd State.reset.eng 0 fun _ => x }

theorem onEngine_eng (x : Engine) : (onEngine x).eng[(0 : Fin 24)] = x := by simp [onEngine, upd]

theorem onEngine_midWord (x : Engine) (h : x.canIssue = true) : MidWord (slot false) (onEngine x) :=
  ⟨by show ((onEngine x).eng[(0 : Fin 24)]).canIssue = true; rw [onEngine_eng]; exact h, rfl, rfl, rfl⟩

theorem onEngine_lastSlot (x : Engine) (h : x.canIssue = true) : LastSlot (slot true) (onEngine x) :=
  ⟨by show ((onEngine x).eng[(0 : Fin 24)]).canIssue = true; rw [onEngine_eng]; exact h, rfl, rfl, rfl⟩

/-- A context with this value in `a0`, `a14` and `a15`. -/
def pointers (p x y : Word) : EngCtx :=
  { a := (((Vector.replicate 16 0).set 0 p).set 14 x).set 15 y }

/-- A task of a kind on port 5, with slot 1, a haul budget of 16 words and a state block. -/
def task (kind : Nat) : Task where
  axis := 0
  kind := kind
  prog := 0x100
  trigger := 2
  k := 0
  tNs := 1000
  dNs := 1000
  c := 100
  h := 10
  haul := 16
  stateLen := 16
  plm := 8
  cx := 0
  cy := 0
  dlm := 0
  port := 5
  slot := 1
  slots := [(5, 1)]

theorem witness_VectorLanes : MidWord (slot false) (onEngine {}) ∧ (2#2 : BitVec 2) ≠ 3#2 :=
  ⟨onEngine_midWord {} rfl, by decide⟩

theorem witness_AccumulatorsAndMoves : MidWord (slot false) (onEngine {}) ∧ (4#5).toNat ≤ 4 := ⟨onEngine_midWord {} rfl, by decide⟩

/-- The lowest and the highest stream words. -/
theorem witness_Streams : MidWord (slot false) (onEngine { ctx := pointers 0 0x20000 0x28000 })
    ∧ (0x20000 ≤ (0x20000#32).toNat / 16 * 16 ∧ (0x27FFF#32).toNat / 16 * 16 < 0x28000)
    ∧ (0x28000 ≤ (0x28000#32).toNat / 16 * 16 ∧ (0x2FFFF#32).toNat / 16 * 16 < 0x30000)
    ∧ (pointers 0 0x20000 0x28000).getA 14#4 = 0x20000#32 ∧ (pointers 0 0x20000 0x28000).getA 15#4 = 0x28000#32 :=
  ⟨onEngine_midWord _ rfl, by decide +kernel⟩

/-- Every mode forms an address, and one of each region of Table 5.2 at its ends. -/
theorem witness_LoadsAndStores_addresses :
    ([0x0#32, 0x1FFF0#32, 0x20000#32, 0x2FFF0#32, 0x30000#32, 0x30FF0#32, 0x31000#32, 0x3FFF0#32, 0x40000#32, 0x40FF0#32, 0x41000#32,
        0x7FFF0#32, 0x80000#32, 0xBFFF0#32, 0xC0000#32].all fun a =>
      (pointers a 0 0).address ⟨0, 0, 0⟩ 0 0 16 == some (a.toNat, a) && (pointers a 0 0).address ⟨0, 1, 1⟩ 0 0 4 == some (a.toNat, a + 4)) = true
    ∧ MidWord (slot false) (onEngine { ctx := pointers 0x80000 0 0 }) :=
  ⟨by decide +kernel, onEngine_midWord _ rfl⟩

/-- A port slot in use; double loads and stores; a pointer at the end of a circular buffer. -/
theorem witness_LoadsAndStores_slots :
    (∃ x : Engine, x.slotPort 1 = some 5)
    ∧ (pointers 0x100 0 0).address ⟨0, 0, 0⟩ 0 0 16 = some (0x100, 0x100#32)
    ∧ (pointers 0x100 0 0).address ⟨0, 0, 0⟩ (0#4 + 8#4) 0 16 = some (0, 0#32) ∧ (0#4).toNat < 8 ∧ (0#5).getLsbD 0 = false ∧ (0#5) ≠ 31#5
    ∧ (let c : EngCtx := { pointers 0x130 0 0 with cb := Vector.replicate 8 0x100#32, cl := Vector.replicate 8 0x40#32 }
       c.address ⟨0, 4, 1⟩ 0 0 16 = some (0x130, 0x100#32) ∧ (1 * 16 : Int).natAbs < 0x40) := by
  exact ⟨⟨{ table := [task 3] }, by decide⟩, by decide +kernel⟩

/-- An engine that runs rank 0 of its table. -/
def running : Engine := { table := [task 3, task 3], run := some { rank := 0, trigTime := 0 } }

theorem running_plain (x : Engine) (h : x = running) : Plain x := by
  subst h; constructor <;> rfl

/-- A control word at its end: its counts zero and not, each condition true and false, a return stack empty and full. -/
theorem witness_ControlWords : LastSlot (slot true) (onEngine running) ∧ Plain running ∧ (8#4).toNat ≤ 8
    ∧ min (running.ctx.getA 0).toNat (5#16).toNat = 0 ∧ min ((pointers 3 0 0).getA 0).toNat (5#16).toNat ≠ 0
    ∧ running.ctx.cond 0 0 = some true ∧ running.ctx.cond 2 0 = some false
    ∧ (∀ c : Fin 9, running.ctx.cond (BitVec.ofNat 4 c.val) 0 ≠ none)
    ∧ running.ctx.rstack = [] ∧ 4 ≤ ({ rstack := [8, 16, 24, 32] } : EngCtx).rstack.length :=
  ⟨onEngine_lastSlot _ (by decide), running_plain _ rfl, by decide +kernel⟩

/-- Repeats, delay slots and loops at their ends. -/
theorem witness_ControlWords_counts :
    ({ rpt := 2 } : Engine).rpt = 0 + 2 ∧ ({ rpt := 1, delay := some (2, some 8) } : Engine).rpt ≤ 1
    ∧ (let l : LoopRec := { start := 8, last := 0, left := 1 }
       ({ loops := [l] } : Engine).ctx.pc = l.last ∧ l.left ≤ 1 ∧ 1 < ({ l with left := 2 } : LoopRec).left
       ∧ ({ l with last := 8 } : LoopRec).last ≠ ({ loops := [l] } : Engine).ctx.pc) := by decide

/-- A channel that may start within the budget and one word beyond it, and one that has been started. -/
theorem witness_HaulUnit_start : MidWord (slot false) (onEngine running) ∧ running.run = some { rank := 0, trigTime := 0 }
    ∧ running.table[0]? = some (task 3)
    ∧ ¬ (0 / 2 ^ 0 % 2 = 1 ∨ (running.ctx.hstat[(0 : Fin 3)]).getLsbD 0 = true ∨ 128 ≤ running.queue.length)
    ∧ 0 + (16#32).toNat % 8192 ≤ (task 3).haul ∧ (task 3).haul < 0 + (17#32).toNat % 8192 ∧ 1 / 2 ^ 0 % 2 = 1 :=
  ⟨onEngine_midWord _ (by decide), by decide +kernel⟩

/-- Transfers that the region registers permit in both directions, and one that they do not. -/
theorem witness_HaulUnit_transfer :
    let t (up : Bool) : Transfer := { rank := 0, chan := some 0, src := 0, dst := 0, words := 1, toXr := up }
    let x (up : Bool) : Engine := { running with queue := [t up] }
    let s (up : Bool) : State := { onEngine (x up) with xr := { regions := upd State.reset.xr.regions 0 fun r => r.set 0 0x0000000000000007#64 } }
    (x true).queue = [t true] ∧ (t true).chan = some 0 ∧ (x true).role ≠ .retired ∧ (x true).preempted = [] ∧ (x true).stall = .none
    ∧ (s true).xr.bad = [] ∧ (s true).xr.mem.wf = true ∧ (x true).dlm.wf = true
    ∧ (s true).xr.retired = none ∧ (s true).xr.reloc = none ∧ (t true).src + 8 * (t true).words ≤ 0x20000
    ∧ (∀ j, j < (t false).words → (s false).xr.permitted 0 ((t false).src + 8 * j) 8 false = true)
    ∧ (∀ j, j < (t true).words → (s true).xr.permitted 0 ((t true).dst + 8 * j) 8 true = true)
    ∧ (t false).dst + 8 * (t false).words ≤ 0x20000 ∧ (onEngine (x true)).xr.permitted 0 0 8 true = false ∧ (t true).words ≠ 0 := by
  decide +kernel

/-- A window load that is outstanding, and buffered window stores. -/
theorem witness_HaulUnit_windows :
    let l : WinLoad := { en := true, off := 0, size := 16, dst := .v 3 0 }
    let x : Engine := { running with wload := some l, stall := .load }
    let y : Engine := { running with wbuf := [(0, zeros 16)], stall := .sync }
    let xr : Xr := { regions := upd State.reset.xr.regions 0 fun r => r.set 0 0x0000000000000007#64 }
    xr.bad = [] ∧ x.role ≠ .retired ∧ x.halted = false ∧ x.run.isSome = true ∧ x.waiting = [] ∧ x.ctl = .seq ∧ x.rpt = 0
    ∧ x.delay = none ∧ x.loops = [] ∧ x.pend = [] ∧ x.ctx.hset = Vector.replicate 3 0 ∧ x.wload = some l ∧ x.stall = .load ∧ x.wbuf = []
    ∧ l.en = true
    ∧ xr.permitted 0 l.off l.size false = true ∧ y.wbuf = [(0, zeros 16)] ∧ y.stall = .sync
    ∧ xr.permitted 0 0 (zeros 16).length true = true := by
  decide +kernel

/-- The ends of a word and of a release, and triggers of an idle and of a busy engine. -/
theorem witness_TaskRelease :
    LastSlot (slot true) (onEngine running) ∧ Plain running
    ∧ (∃ x : Engine, x.table[0]? = some (task 3) ∧ x.run = none ∧ x.waiting = [] ∧ x.preempted = []) ∧ running.preempted = []
    ∧ running.wbuf = [] ∧ (running.ctx.hstat[(0 : Fin 3)]).getLsbD 0 = false ∧ running.table[1]? = some (task 3)
    ∧ (onEngine running).mayRelease (task 3) = true ∧ running.role ≠ .retired ∧ running.halted = false ∧ running.open? 0 = true
    ∧ running.open? 1 = false ∧ running.interruptible = true ∧ running.waiting = []
    ∧ State.reset.mayRaise 0x0B02 0 = true ∧ ({ running with rpt := 2 } : Engine).interruptible = false ∧ running.pend = []
    ∧ running.ctx.hset = Vector.replicate 3 0 ∧ (task 3).stateLen ≠ 0 ∧ running.queue.length < 128 ∧ running.run.map (·.rank) = some 0
    ∧ running.run.map (·.rank) ≠ some 1 :=
  ⟨onEngine_lastSlot _ (by decide), running_plain _ rfl, ⟨{ table := [task 3] }, rfl, rfl, rfl, rfl⟩, by decide +kernel⟩

/-! ### Witnesses: supplies, resets and boot -/

/-- The state right after reset with this boot state. -/
def onBoot (b : Boot) : State := { State.reset with boot := b }

/-- Every sequencer state that the statement names, its first and last stage, and the third failed attempt. -/
theorem witness_PowerAndResets :
    (let b : Boot := {}
     b.seq = .off ∧ b.tgRails = true ∧ b.porN = false ∧ ({ b with porN := true, tgRails := false } : Boot).porN = true
     ∧ ({ b with seq := .wait 0, pseq := 1 } : Boot).pseq ≠ 0 ∧ ({ b with attempts := 2 } : Boot).attempts = 2
     ∧ ({ b with seq := .settle 3 } : Boot).pll = false
     ∧ (let d : Boot := { b with seq := .down, pseq := 1, porN := true, coldDown := true }
        d.seq = .down ∧ d.pseq.toNat = 2 ^ ((0 : Fin 4).val + 1) - 1 ∧ d.porN = true ∧ d.tgRails = true ∧ d.coldDown = true))
    ∧ (3 : Fin 4).val = 3 ∧ (2 : Fin 4).val < 3
    ∧ (∀ n : Fin 4, (BitVec.ofNat 4 (2 ^ (n.val + 1) - 1)).toNat = 2 ^ (n.val + 1) - 1)
    ∧ (let s := onBoot { inReset := false, seq := .up, pseq := 15, fwReset := true }
       s.boot.inReset = false ∧ s.boot.fwReset = true ∧ s.boot.seq = .up ∧ s.boot.pseq ≠ 0
       ∧ s.activeFault 0x0D01 .device 0 = false ∧ ({ s with dbg := { level := 2 } } : State).dbg.level = 2
       ∧ ({ s with faults := { table := [{ code := 0x0D01, cls := 6, scope := .device, unit := 0, time := 0, detail := 0 }] } } :
          State).activeFault 0x0D01 .device 0 = true)
    -- counts at the limits of 6 % and one beyond them
    ∧ (let nominal : List Nat := [250, 12000, 6000, 4000, 2000, 1000]
       let out (l : List Nat) (m : Nat) : Bool := decide (100 * l.getD m 0 < 94 * nominal.getD m 0 ∨ 106 * nominal.getD m 0 < 100 * l.getD m 0)
       ((List.range 6).all fun m => !out [235, 12720, 5640, 4240, 2000, 1060] m) = true
       ∧ ((List.range 6).filter (out [234, 12720, 5640, 4240, 2000, 1060])) = [0]
       ∧ ((List.range 6).filter (out [235, 12720, 5640, 4240, 2000, 1061])) = [5]) := by decide +kernel

/-- A main image (1) or a Byway image (2) of four bytes, with a security version. -/
def bootImage (kind sec : Nat) : List Byte :=
  leBytes 4 0x4D495853 ++ leBytes 2 1 ++ leBytes 2 kind ++ leBytes 4 sec ++ leBytes 4 4 ++ zeros 260

/-- A domain in reset that is powered; a boot with and without a slot on trial, and with the other slot marked; what `HELLO` waits for. -/
theorem witness_BootAndByway_boot :
    (let b : Boot := { seq := .up, pll := true }
     b.inReset = true ∧ b.seq = .up ∧ b.warmHeld = false ∧ b.pll = true ∧ b.dir.trial = none)
    ∧ ({ dirs := Vector.replicate 2 { trial := some 1 } } : Boot).dir.trial = some 1
    ∧ (let b (n : Nat) : Boot := { inReset := false, stage := n, bywayUp := n == 9 }
       let s := onBoot (b 5)
       (b 5).recovery = false ∧ (b 5).slots[(b 5).slot] = none ∧ (b 5).dir.failed / 2 ^ (1 - (b 5).slot.val) % 2 = 0
       ∧ (b 4).slots[(b 4).dir.active] = none ∧ (b 9).bywayUp = true ∧ (b 7).prior = []
       ∧ s.dbg.revoked.getLsbD 0 = false ∧ s.boot.rollTp ≤ 64 ∧ s.boot.rollBw ≤ 64)
    ∧ imageHeaderOk false (bootImage 1 64) = true ∧ imageHeaderOk true (bootImage 2 64) = true
    ∧ imageHeaderOk false (bootImage 1 65) = false ∧ imageHeaderOk true (bootImage 1 64) = false
    ∧ ({ dirs := Vector.replicate 2 { failed := 2 } } : Boot).dir.failed / 2 ^ (1 - 0) % 2 = 1
    ∧ (onBoot {}).dbg.lifecycle ≠ 0x40 ∧ (onBoot {}).tg.st = .selftest ∧ (onBoot {}).host.devstatSeen % 2 = 0
    ∧ (∀ q : Fin 16, ((onBoot {}).host.queues[q]).qcfg.getLsbD 15 = false ∧ ((onBoot {}).host.queues[q]).active = false) := by
  decide +kernel

/-- A first and a third crash within 60 s, and a crash that waits for its restart. -/
theorem witness_BootAndByway_byway :
    (∃ s : State, s.boot.bywayUp = true ∧ (s.boot.crashes.filter (fun t => decide (s.ticks < t + 24000000000))).length < 2)
    ∧ (∃ s : State, s.boot.bywayUp = true ∧ 2 ≤ (s.boot.crashes.filter (fun t => decide (s.ticks < t + 24000000000))).length
        ∧ s.cfg.commit = none ∧ ∀ p : Fin 64, (s.ports[p]).forceBy = none)
    ∧ (∃ s : State, s.boot.crash = some (1, 0) ∧ s.cfg.commit = none ∧ (∀ p : Fin 64, (s.ports[p]).forceBy = none)
        ∧ (∀ q : Fin 16, (s.host.queues[q]).qcfg.getLsbD 15 = false ∧ (s.host.queues[q]).active = false)
        ∧ s.boot.bwImage = some (0x7FFFF0, zeros 16) ∧ 0x7FFFF0 + (zeros 16).length ≤ 0x800000
        ∧ s.xr.retired = none ∧ s.xr.reloc = none) :=
  ⟨⟨onBoot { inReset := false, bywayUp := true }, by decide +kernel⟩,
    ⟨onBoot { inReset := false, bywayUp := true, crashes := [0, 0] }, by decide +kernel⟩,
    ⟨onBoot { inReset := false, crash := some (1, 0), bwImage := some (0x7FFFF0, zeros 16) }, by decide +kernel⟩⟩

/-! ### Witnesses: the host side -/

/-- Sizes of a queue pair at their bounds and beyond them. -/
theorem witness_QueuePairs :
    let good (sq cq vec : Nat) : Bool := decide (4 ≤ sq ∧ sq ≤ 12 ∧ 7 ≤ cq ∧ cq ≤ 12 ∧ vec ≤ 30)
    let w (v : Word) : Word := (v &&& 0x0FFFBFFF#32) ||| 0x8000#32
    let ok (v : Word) : Bool := good ((w v).toNat % 16) ((w v).toNat / 16 % 16) ((w v).toNat / 256 % 32)
    ok 0x74#32 = true ∧ ok 0x1ECC#32 = true ∧ ok 0x73#32 = false ∧ ok 0x64#32 = false ∧ ok 0x1F74#32 = false
    ∧ (let k : Queue := { qcfg := 0x108074#32, smpSqSz := 4, smpCqSz := 7, active := true, unsignalled := 1 }
       k.qcfg.getLsbD 15 = true ∧ k.stopped = false ∧ k.qcfg.toNat / 2 ^ 20 % 256 ≠ 0 ∧ (15#16).toNat < 2 ^ k.smpSqSz
       ∧ 2 ^ k.smpSqSz ≤ (16#16).toNat ∧ k.sqBase.toNat % 4096 = 0 ∧ k.cqBase.toNat % 4096 = 0
       ∧ (let o : OutPkt :=
            { event := false, version := 3, opcode := 0x8003, tag := 7, axis := 0xFFFF, path := 0, crc := true, payload := zeros 40 }
          o.size ≤ 60 ∧ o.entries ≤ 2 ^ k.smpCqSz - 1 - k.cq.length ∧ k.cqTail < 2 ^ k.smpCqSz ∧ 7 ≤ k.smpCqSz)) := by
  decide +kernel

/-- One queue pair with one entry of each kind that the statement names; no other queue is active. -/
theorem witness_QueuePairs_fetch :
    let on (ctl : Byte) (len : BitVec 16) : State := { onBoot { ready := true } with host :=
      { queues := upd (Vector.replicate 16 {}) 0 fun k => { k with active := true, smpSqSz := 4, sq := [⟨ctl, len, zeros 60⟩] } } }
    let k := (on 6#8 60#16).host.queues[(0 : Fin 16)]
    k.active = true ∧ k.stopped = false ∧ k.cqStall = false ∧ k.sq = [⟨6#8, 60#16, zeros 60⟩] ∧ 4 ≤ k.smpSqSz ∧ (60#16).toNat ≤ 60
    ∧ (zeros 60).length = 60 ∧ (6#8 &&& 0xF9#8) = 0 ∧ (2#8 &&& 0xF9#8) = 0 ∧ (4#8).getLsbD 1 = false ∧ (16#16).toNat = 16
    ∧ (15#16).toNat < 16 ∧ (∀ j : Fin 16, j ≠ 0 → ((on 6#8 60#16).host.queues[j]).active = false) := by decide +kernel

/-- Offsets of each register that the statement names; a packet of the QSPI slave at its ends; `INTSTAT` bits that are new and set. -/
theorem witness_EndpointAndQspi :
    (0x11C#16).toNat = 0x11C + 32 * 0 ∧ (0x2FC#16).toNat = 0x11C + 32 * 15 ∧ 0x3000 ≤ (0x3FFC#16).toNat ∧ (0x24#16).toNat < 0x28
    ∧ (let b : List Byte := zeros 8 ++ leBytes 2 0 ++ zeros 10
       b.length = 20 ∧ b.length = 20 + u16 b 8)
    ∧ (let h : HostIf := { msixEnabled := true, intmask := 0xFFFFF#32 }
       h.intstat &&& 1#32 <<< (18 : Nat) = 0 ∧ h.intmask &&& 1#32 <<< (18 : Nat) ≠ 0)
    ∧ (let o : OutPkt := { event := false, version := 3, opcode := 0x8003, tag := 7, axis := 0xFFFF, path := 0, crc := true, payload := [] }
       ({ tx := [o], last := some o } : Qspi).tx = [o] ∧ o.size ≤ (64#16).toNat ∧ (1#16).toNat < o.size) := by decide +kernel

/-- The words of a `PING` outside a session pass every check but the last; one of each kind fails. -/
theorem witness_PacketChecks :
    let ping (ver : Byte) (op : Nat) (len : Nat) : List Byte :=
      leBytes 2 0x5358 ++ [ver, 0x00] ++ leBytes 2 op ++ leBytes 2 7 ++ leBytes 2 len ++ leBytes 2 0xFFFF ++ leBytes 4 0
    let s := onBoot { ready := true, bywayUp := true }
    let p (ver : Byte) (op len : Nat) := parsePacket (.pcie 0) (ping ver op len) false
    s.packetCrc (.pcie 0) (ping 3 3 0) = false ∧ u16 (ping 3 3 0) 0 = 0x5358 ∧ (ping 3 3 0).length = 16 + u16 (ping 3 3 0) 8
    ∧ (p 3 3 0).version.toNat = 3 ∧ (p 4 3 0).version.toNat = 4 ∧ (p 3 5 0).opcode.toNat = 5 ∧ (p 3 3 0).flags = 0 ∧ (p 3 3 0).path = 0
    ∧ s.session (.pcie 0) = none ∧ u16 (zeros 16) 0 ≠ 0x5358 ∧ (ping 3 3 4).length ≠ 16 + u16 (ping 3 3 4) 8 := by decide +kernel

/-! ### A served packet -/

/-- A session of version 3 with control. -/
def session : Session :=
  { sid := 1, version := 3, control := true, features := 1, evq := 0, tmoMs := 100, hostId := 0, evSeq := 0, evDiscarded := 0, awaiting := [] }

/-- A device that serves packets, with a session on its queue pairs. -/
def up : State := { onBoot { inReset := false, ready := true, bywayUp := true, stage := 10 } with host := { pcieUp := true, pcie := some session } }

theorem up_settled (i : Fin 512) : (up.axes[i]).dropNow = false := by simp [up, onBoot, State.reset]

/-- Every state with the boot state and the sessions of `up`, in which no disable is still to take effect, serves a packet whose header
names an axis where its opcode asks for one. -/
theorem served_of (s : State) (n : Nat) (args : List Byte) (axis : BitVec 16) (hn : n < 65536) (hb : s.boot = up.boot) (hh : s.host = up.host)
    (hq : s.net.fwd = [] ∧ s.net.discover = []) (hd : ∀ i : Fin 512, (s.axes[i]).dropNow = false) (ha : axisOk n axis.toNat = true) : Served (packet n args axis) n s := by
  have hs : s.session (.pcie 0) = some session := by simp only [State.session, hh]; rfl
  refine ⟨?_, ⟨by simp [packet], by simp [packet]⟩, ?_, ?_, ?_, ?_, hd, ?_, ?_⟩
  · simp only [State.serving, hb]; rfl
  · rw [hh]; rfl
  · rw [hh]; rfl
  · have h1 : (asOp (packet n args axis) n).opcode.toNat = n := by simp [asOp]; omega
    have h2 : (asOp (packet n args axis) n).src = .pcie 0 := rfl
    have h3 : (asOp (packet n args axis) n).axis = axis := rfl
    simp only [State.check10, h1, h2, h3, State.hasControl, hs, hb, ha]
    rfl
  · right
    show s.tagUsed _ = false
    simp only [State.tagUsed, show (asOp (packet n args axis) n).src = .pcie 0 from rfl, hs, hh, hq.1]
    rfl
  · simp only [State.awaitCount, show (asOp (packet n args axis) n).src = .pcie 0 from rfl, hs]
    decide
  · simp only [State.blocked, hq.2]
    rfl

/-- The replies of a served packet, a completion and an event of its session. -/
theorem witness_RepliesAndEvents :
    (∀ i : Fin 512, (up.axes[i]).dropNow = false) ∧ (∃ s : State, s.session .qspi = some session ∧ s.host.qspi.tx = [])
    ∧ up.session (.pcie 0) = some session ∧ 1 ≤ session.version ∧ session.version ≤ 3 ∧ 4 + (zeros 4076).length ≤ 4080
    ∧ ¬ 4 + (zeros 4077).length ≤ 4080 ∧ session.sid = 1 ∧ session.sid ≠ 2 ∧ session.features % 2 = 1
    ∧ ({ session with features := 0 } : Session).features % 2 = 0 :=
  ⟨up_settled, ⟨{ up with host := { qspiSes := some session } }, rfl, rfl⟩, by decide +kernel⟩

/-- A row with its packet, served; a device that serves nothing, one in recovery, an observer, a wrong axis and a tag in use. -/
theorem witness_PacketArrival : rowOf (.ping (packet 3 [])) = some (packet 3 [], 3) ∧ Served (packet 3 []) 3 up
    ∧ (packet 3 []).flags = 0 ∧ State.reset.serving = false ∧ up.serving = true
    ∧ (let b : Boot := { recovery := true }
       (onBoot b).serving = true ∧ b.bywayDead = false)
    ∧ observerOps.contains 0x0201 = false ∧ axisOk 0x0201 0xFFFF = false ∧ axisOk 0x0201 511 = true
    ∧ ({ session with awaiting := [7] } : Session).awaiting.contains (packet 3 []).tag = true :=
  ⟨rfl, served_of up 3 [] _ (by decide) rfl rfl ⟨rfl, rfl⟩ up_settled (by decide), by decide +kernel⟩

/-! ### Witnesses: groups, forwarding, sessions, parameters and configuration -/

/-- Parameters set to values, on an instance of their family. -/
def params (s : State) (l : List (PDef × Nat × Nat)) : State := l.foldl (fun s x => s.setParam x.1 x.2.1 0 x.2.2) s

/-- Axis 0 as given. -/
def axis0 (s : State) (a : Axis) : State := { s with axes := upd s.axes 0 fun _ => a }

theorem axis0_frame (s : State) (a : Axis) : (axis0 s a).boot = s.boot ∧ (axis0 s a).host = s.host := ⟨rfl, rfl⟩

theorem axis0_net (s : State) (a : Axis) : (axis0 s a).net = s.net := rfl

theorem axis0_settled (s : State) (a : Axis) (h : ∀ i : Fin 512, (s.axes[i]).dropNow = false) (ha : a.dropNow = false) (i : Fin 512) :
    ((axis0 s a).axes[i]).dropNow = false := by
  rw [show (axis0 s a).axes = s.axes.set 0 a from rfl]
  simp only [Fin.getElem_fin, Vector.getElem_set]
  split
  · exact ha
  · exact h i

theorem params_frame (l : List (PDef × Nat × Nat)) (s : State) :
    (params s l).boot = s.boot ∧ (params s l).host = s.host ∧ (params s l).axes = s.axes := by
  induction l generalizing s with
  | nil => exact ⟨rfl, rfl, rfl⟩
  | cons x l ih => exact ih (s.setParam x.1 x.2.1 0 x.2.2)

/-- An open group of one packet, ended; a timed packet at, before and past the bounds of its tag; a timed command that is due. -/
theorem witness_GroupsAndTimed :
    (let p := packet 0x0206 (zeros 4) 0
     let s : State := { up with host := { up.host with groups := [(.pcie 0, { packets := [p] })] } }
     s.serving = true ∧ s.boot.inReset = false ∧ s.blocked (.pcie 0) = false ∧ (opOf p.opcode.toNat).isSome = true
     ∧ (s.host.groups.find? (fun g => g.1 == p.src)).isSome = true ∧ (s.groupSteps (some (0, false)) [p]).2.length = 1
     ∧ (s.check10 { p with flags := 10 }).isOk = true ∧ (s.check10 p).isOk = true ∧ p.flags.getLsbD 2 = false)
    ∧ (let p := { packet 0x0206 (leBytes 8 3600000000000 ++ zeros 4) 0 with flags := 4 }
       up.serving = true ∧ p.flags.getLsbD 1 = false ∧ p.flags.getLsbD 2 = true ∧ up.host.groups = [] ∧ up.host.fwdGroups = []
       ∧ (up.check10 p).isOk = true ∧ up.tagUsed p = false ∧ up.now ≤ u64 p.payload 0 ∧ u64 p.payload 0 ≤ up.now + 3600000000000
       ∧ up.now + 3600000000000 < u64 (leBytes 8 3600000000001) 0 ∧ timedUsed up.host < 4096)
    ∧ (∃ s : State, ∃ x : TimedItem, x ∈ s.host.timed ∧ (∀ y ∈ s.host.timed, y ≠ x → x.due < y.due ∨ (x.due = y.due ∧ x.order < y.order))
        ∧ x.due ≤ s.now ∧ s.serving = true ∧ x.packets = [packet 0x0206 (zeros 4) 0] ∧ x.gen = (s.host.queues[(0 : Fin 16)]).gen
        ∧ ({ x with gen := 1 } : TimedItem).gen ≠ (s.host.queues[(0 : Fin 16)]).gen) := by
  refine ⟨by decide +kernel, by decide +kernel, ?_⟩
  exact ⟨{ up with host := { up.host with timed := [⟨0, 0, 1, 0, [packet 0x0206 (zeros 4) 0]⟩] } }, ⟨0, 0, 1, 0, [packet 0x0206 (zeros 4) 0]⟩,
    by decide +kernel⟩

/-- A member that takes the packet, one that is absent, and a reply to a packet that has been forwarded. -/
theorem witness_Forwarding :
    (let p := { packet 3 [] with path := 1 }
     let s : State := { up with net := { members := upd (Vector.replicate 15 {}) 0 fun m => { m with st := .member } } }
     s.serving = true ∧ s.boot.inReset = false ∧ s.boot.recovery = false ∧ s.blocked p.src = false ∧ s.tagUsed p = false
     ∧ s.host.groups = [] ∧ s.host.fwdGroups = [] ∧ p.flags.getLsbD 1 = false ∧ p.path ≠ 0
     ∧ p.opcode.toNat ∉ [0x0001, 0x0002, 0x0101, 0x0104, 0x0105] ∧ (s.member? 1).any (fun y => y.st == .member) = true
     ∧ (s.member? 1).any (fun y => decide (y.lo ≤ 3) && decide (3 ≤ y.hi)) = true ∧ s.member? 0 = none
     ∧ ({ s with net := { s.net with discover := [(up.refOf p, 0)] } } : State).blocked p.src = true
     ∧ ({ s with host := { s.host with pcie := some { session with awaiting := [7] } } } : State).tagUsed p = true)
    ∧ (let f : Fwd := { member := 1, ref := up.refOf (packet 3 []) }
       let q := packet 0x8003 (zeros 12)
       let s : State := { up with net := { fwd := [f] } }
       q.opcode.toNat < 0xE000 ∧ f ∈ s.net.fwd ∧ f.member = (0 : Fin 15).val + 1 ∧ f.ref.tag = q.tag ∧ s.owed f.ref = true
       ∧ f.ref.opcode % 32768 + 32768 = q.opcode.toNat ∧ u16 q.payload 0 ≠ 1 ∧ u16 (leBytes 2 1) 0 = 1
       ∧ s.session f.ref.src = some session ∧ session.sid = f.ref.sid) := by decide +kernel

/-- `HELLO` for each role, with a version that is supported and one that is not; the other opcodes of a session; an expired session. -/
theorem witness_Sessions :
    let hello (lo hi role : Nat) : List Byte := leBytes 1 lo ++ leBytes 1 hi ++ leBytes 1 role ++ zeros 1 ++ leBytes 4 31 ++ zeros 2
      ++ leBytes 2 60000 ++ zeros 4
    Served (packet 1 (hello 1 3 2)) 1 up ∧ Served (packet 2 []) 2 up ∧ Served (packet 3 (zeros 64)) 3 up ∧ Served (packet 4 []) 4 up
    ∧ up.keepAlive (.pcie 0) = up ∧ up.boot.report = [] ∧ (hello 1 3 2).length = 16 ∧ u8 (hello 1 3 2) 2 = 2
    ∧ u32 (hello 1 3 2) 4 < 32 ∧ u16 (hello 1 3 2) 10 = 60000 ∧ u8 (hello 4 5 0) 0 = 4 ∧ u8 (hello 4 5 0) 1 = 5
    ∧ up.controlElsewhere (.pcie 0) = false
    ∧ ({ up with host := { qspiSes := some session } } : State).controlElsewhere (.pcie 0) = true ∧ (zeros 64).length ≤ 64
    ∧ up.session (.pcie 0) = some session ∧ session.tmoMs = 100 ∧ session.control = true ∧ session.seen = 0
    ∧ ({ up with ticks := 39999999 } : State).ticks < 0 + 100 * 400000
    ∧ 0 + 100 * 400000 ≤ ({ up with ticks := 40000000 } : State).ticks := by
  intro hello
  refine ⟨served_of up 1 _ _ (by decide) rfl rfl ⟨rfl, rfl⟩ up_settled (by decide), ?_⟩
  refine ⟨served_of up 2 _ _ (by decide) rfl rfl ⟨rfl, rfl⟩ up_settled (by decide), ?_⟩
  refine ⟨served_of up 3 _ _ (by decide) rfl rfl ⟨rfl, rfl⟩ up_settled (by decide), ?_⟩
  exact ⟨served_of up 4 _ _ (by decide) rfl rfl ⟨rfl, rfl⟩ up_settled (by decide), rfl, by decide +kernel⟩

/-- The bytes of one record: family, instance, index and a value of two bytes; and its selector. -/
def record (fam inst idx v : Nat) : List Byte :=
  leBytes 2 1 ++ zeros 2 ++ leBytes 1 fam ++ zeros 1 ++ leBytes 2 inst ++ leBytes 2 idx ++ leBytes 2 2 ++ leBytes 2 v ++ zeros 2

def selector (fam inst idx : Nat) : List Byte :=
  leBytes 2 1 ++ zeros 2 ++ leBytes 1 fam ++ zeros 1 ++ leBytes 2 inst ++ leBytes 2 idx ++ leBytes 2 0

/-- The only record of a request. -/
def oneRec (sel : Bool) (a : List Byte) : List PRec := match reqRecs sel a true with | .ok rs => rs | .error _ => []

def draft : Draft := { src := .pcie 0, sid := 1, baseGen := 0, empty := false }

/-- `DV.SESSTMO`, a live parameter, at its bound and beyond it, by each of the four commands. -/
theorem witness_ParameterCommands :
    Served (packet 0x0302 (record 3 0 0x02F0 60000)) 0x0302 up ∧ Served (packet 0x0301 (selector 3 0 0x02F0)) 0x0301 up
    ∧ Served (packet 0x0102 (record 3 0 0x0600 1)) 0x0102 { up with cfg := { draft := some draft } }
    ∧ Served (packet 0x0103 (selector 3 0 0x02F0)) 0x0103 up
    ∧ (oneRec false (record 3 0 0x02F0 60000)).length = 1 ∧ (oneRec true (selector 3 0 0x02F0)).length = 1
    ∧ (up.judgeRecs .set 0xFFFF 1 (oneRec false (record 3 0 0x02F0 60000))).isOk = true
    ∧ (up.judgeRecs .set 0xFFFF 1 (oneRec false (record 3 0 0x02F0 60001))).isOk = false
    ∧ (up.judgeRecs .get 0xFFFF 1 (oneRec true (selector 3 0 0x02F0))).isOk = true
    ∧ ((up.draftView draft).judgeRecs .draft 0xFFFF 1 (oneRec false (record 3 0 0x02F0 60000))).isOk = true
    ∧ (up.written.judgeRecs .set 0xFFFF 1 (oneRec false (record 3 0 0x02F0 60000))).isOk = true
    ∧ assocSorted up.cfg.params = true ∧ (findParam .dv 0x02F0).isSome = true ∧ 0 < PFam.dv.instances
    ∧ (oneRec false (record 3 0 0x02F0 60000)).all (fun x => (x.names 0xFFFF).isOk) = true ∧ up.pt P.ptKind 0 = 0 ∧ up.bound 0 = false :=
  ⟨served_of up _ _ _ (by decide) rfl rfl ⟨rfl, rfl⟩ up_settled (by decide), served_of up _ _ _ (by decide) rfl rfl ⟨rfl, rfl⟩ up_settled (by decide),
    served_of _ _ _ _ (by decide) rfl rfl ⟨rfl, rfl⟩ up_settled (by decide), served_of up _ _ _ (by decide) rfl rfl ⟨rfl, rfl⟩ up_settled (by decide),
    by decide +kernel⟩

/-- A commit in a phase. -/
def commit (ph : CommitPhase) : Commit := { phase := ph, checkOnly := false, ref := up.refOf (packet 0x0104 (zeros 4)), pinned := [] }

/-- `up` with a draft and this commit. -/
def inDraft (k : Option Commit) : State := { up with cfg := { draft := some draft, commit := k } }

/-- A draft absent and open, a commit absent, in its analysis and past it; the bounds of `CFG_EXPLAIN`. -/
theorem witness_DraftCommands :
    up.inCommit = [] ∧ (inDraft none).inCommit = [] ∧ Served (packet 0x0101 (leBytes 4 1)) 0x0101 up
    ∧ Served (packet 0x0104 (leBytes 4 0)) 0x0104 (inDraft none) ∧ Served (packet 0x0105 []) 0x0105 (inDraft (some (commit .analysis)))
    ∧ Served (packet 0x0106 (leBytes 1 2 ++ leBytes 1 1 ++ leBytes 2 0 ++ leBytes 2 169 ++ leBytes 2 0)) 0x0106 up
    ∧ up.cfg.draft = none ∧ (inDraft none).cfg.draft = some draft ∧ (inDraft none).cfg.commit = none
    ∧ (commit .analysis).phase = .analysis ∧ (commit .loading).phase ≠ .analysis ∧ up.versionOf (packet 0x0106 []) = 3
    ∧ up.cfg.analysed = false :=
  ⟨by decide +kernel, by decide +kernel, served_of up _ _ _ (by decide) rfl rfl ⟨rfl, rfl⟩ up_settled (by decide),
    served_of (inDraft none) _ _ _ (by decide) rfl rfl ⟨rfl, rfl⟩ up_settled (by decide),
    served_of (inDraft _) _ _ _ (by decide) rfl rfl ⟨rfl, rfl⟩ up_settled (by decide), served_of up _ _ _ (by decide) rfl rfl ⟨rfl, rfl⟩ up_settled (by decide),
    by decide +kernel⟩

/-- A commit in each of its phases, alone and as a member's; its draft's session still open; a value written last in the draft. -/
theorem witness_CommitAndSwitchOver :
    (inDraft (some (commit .waiting))).cfg.commit = some (commit .waiting) ∧ (inDraft (some (commit .waiting))).cfg.draft = some draft
    ∧ (commit .waiting).go = false ∧ ({ commit .waiting with go := true } : Commit).go = true
    ∧ ({ commit .waiting with asMember := true } : Commit).asMember = true ∧ (commit .comparing).phase = .comparing
    ∧ (inDraft none).session draft.src = some session ∧ session.sid = draft.sid ∧ (inDraft none).inCommit = []
    ∧ (∀ kv ∈ draft.values, kv.1 ≠ pkey .dv 0 0x0600) ∧ (findParam .dv 0x0600).isSome = true
    ∧ (let net : Net := { members := upd (Vector.replicate 15 {}) 0 fun m => { m with st := .member } }
       (net.members[(0 : Fin 15)]).st = .member ∧ (1#15).getLsbD 0 = true)
    ∧ (let pl := (inDraft (some (commit .analysis))).analyse ((inDraft none).draftView draft) (commit .analysis)
         { refused := [(0, 1)], chains := [], images := [], upRing := 0, upCycle := 0 }
       pl.refusals ≠ [])
    ∧ (∀ e : Fin 24, (((inDraft none).eng[e]).migrateTo = none)) ∧ 0 ∉ (commit .analysis).unreached := by
  decide +kernel

/-- `up` with axis 0 bound to servo port 0 and these parameters. -/
def servo (l : List (PDef × Nat × Nat)) : State := params up ([(P.axBindkind, 0, 1), (P.axPort, 0, 0), (P.ptKind, 0, 1)] ++ l)

theorem params_net (l : List (PDef × Nat × Nat)) (s : State) : (params s l).net = s.net := by
  induction l generalizing s with
  | nil => rfl
  | cons x l ih => exact ih (s.setParam x.1 x.2.1 0 x.2.2)

theorem servo_net (l : List (PDef × Nat × Nat)) : (servo l).net = up.net := params_net _ up

theorem servo_settled (l : List (PDef × Nat × Nat)) (i : Fin 512) : ((servo l).axes[i]).dropNow = false := by
  obtain ⟨_, _, hx⟩ := params_frame ([(P.axBindkind, 0, 1), (P.axPort, 0, 0), (P.ptKind, 0, 1)] ++ l) up
  have hs : (servo l).axes = up.axes := hx
  rw [hs]
  exact up_settled i

theorem servo_served (l : List (PDef × Nat × Nat)) (n : Nat) (args : List Byte) (axis : BitVec 16) (hn : n < 65536)
    (ha : axisOk n axis.toNat = true) : Served (packet n args axis) n (servo l) := by
  obtain ⟨hb, hh, _⟩ := params_frame ([(P.axBindkind, 0, 1), (P.axPort, 0, 0), (P.ptKind, 0, 1)] ++ l) up
  exact served_of (servo l) n args axis hn hb hh (by rw [servo_net]; exact ⟨rfl, rfl⟩) (servo_settled l) ha

/-- The same with this axis 0. -/
theorem servo_axis_served (l : List (PDef × Nat × Nat)) (a : Axis) (n : Nat) (args : List Byte) (axis : BitVec 16) (hn : n < 65536)
    (hd : a.dropNow = false) (ha : axisOk n axis.toNat = true) : Served (packet n args axis) n (axis0 (servo l) a) := by
  obtain ⟨hb, hh, _⟩ := params_frame ([(P.axBindkind, 0, 1), (P.axPort, 0, 0), (P.ptKind, 0, 1)] ++ l) up
  have h0 := axis0_frame (servo l) a
  exact served_of (axis0 (servo l) a) n args axis hn (h0.1.trans hb) (h0.2.trans hh)
    (by rw [axis0_net, servo_net]; exact ⟨rfl, rfl⟩) (axis0_settled (servo l) a (servo_settled l) hd) ha

/-- A port in use and a bound axis, whose written values wait for their units. -/
theorem witness_ParameterCommands_units : (servo []).pt P.ptKind 0 ≠ 0 ∧ (servo []).bound 0 = true
    ∧ ((servo []).axes[(0 : Fin 512)]).st ≠ .retired := by decide +kernel

/-- A table of two entries, loaded at once and in two chunks, against its capacity, and activated. -/
theorem witness_TableLoads :
    (∀ args, Served (packet 0x0303 args 0) 0x0303 (servo [(P.axFricen, 0, 1)]))
    ∧ (let chunk (first : Nat) : List Byte := leBytes 1 0 ++ leBytes 1 0 ++ leBytes 2 0 ++ leBytes 4 first ++ leBytes 4 2 ++ zeros 8
       let s := servo [(P.axFricen, 0, 1)]
       (0#16).toNat = 0 ∧ s.isLocal 0 = true ∧ (s.axes[(0 : Fin 512)]).st ≠ .retired ∧ s.ax P.axFricen 0 ≠ 0
         ∧ (servo []).ax P.axFricen 0 = 0
       ∧ 2 ≤ s.ax P.axTblcap 0 ∧ s.ax P.axTblcap 0 < 1025 ∧ (chunk 1).length = 20)
    ∧ (∀ n, n < (zeros 8).length / 4 → fpFinite (fp (zeros 8) (4 * n)) = true) ∧ fpFinite (fp (leBytes 4 0x7F800000) 0) = false
    ∧ (let l : TableLoad := { table := 0, axis := 0, cam := 0, total := 2, data := zeros 8, src := .pcie 0, sid := 1 }
       let open_ : State := { up with tables := { loads := [l] } }
       open_.tables.loads = [] ++ l :: [] ∧ l.ref = none ∧ l.data = zeros 8 ∧ (zeros 8).length + (zeros 8).length = 8 * 2
       ∧ ({ l with ref := some (up.refOf (packet 0x0303 [] 0)) } : TableLoad).ref.isSome = true) :=
  ⟨fun _ => servo_served _ _ _ _ (by decide) (by decide), by decide +kernel, by decide +kernel, by decide +kernel, by decide +kernel⟩

/-- Two tasks of which both pass, and one that fails. -/
theorem witness_ResponseTimes :
    let x (c : Nat) : Cand := { t := { task 1 with tCyc := 10000, dCyc := 10000, c := c }, tNs := 8333, dNs := 8333 }
    (rta 5 [x 100, x 200]).length = 2 ∧ ((rta 5 [x 100, x 200]).all fun a => decide (a.r ≤ a.x.t.dCyc)) = true
    ∧ ((rta 5 [x 20000]).all fun a => decide (a.x.t.dCyc < a.r)) = true ∧ (rta 5 [x 20000]).length = 1 := by decide +kernel

/-! ### Witnesses: loops and axes -/

/-- Axis 0 as given, moving on servo port 0, whose drive is enabled by Tollgate; its current task on engine 0. -/
def loop (l : List (PDef × Nat × Nat)) (a : Axis) : State :=
  let s := axis0 (servo l) a
  let t : Task := { task 0 with port := 0, engine := 0, slots := [(0, 1)] }
  { s with tg := { s.tg with gen := 1#64 }, cfg := { s.cfg with tasks := [t] }, eng := upd s.eng 0 fun e => { e with table := [t] }
           ports := upd s.ports 0 fun p => { p with samples := 20, record := upd (upd (upd p.record 4 fun _ => 100#32) 8 fun _ => 256#32) 9 fun _ => 256#32 } }

/-- Zero currents, references and coefficients: the voltage of either axis is 0 for every value of the exponentials, the sine and the
cosine, and so within its limit. -/
theorem witness_CurrentLaw :
    (let s := loop [(P.axLosinnov, 0, 0), (P.axLosangle, 0, 0)] { st := .moving, cur := { lawOff := false } }
     let a := s.axes[(0 : Fin 512)]
     let c := a.cur
     s.portOf 0 = some 0 ∧ s.isServo 0 = true ∧ s.ax P.axCurprog 0 = 0 ∧ s.releases 0 0 = true ∧ s.lawOn 0 = true
     ∧ s.ax P.axAnglesrc 0 = 0 ∧ s.ax P.axAngleinit 0 = 0 ∧ s.ax P.axFricen 0 = 0 ∧ s.ax P.axCogen 0 = 0 ∧ s.brakeCurrent 0 = none
     ∧ c = { lawOff := false } ∧ (s.curRef 0).seq = c.mboxSeq ∧ a.pos.curSeq = c.mboxSeq
     ∧ s.overdue 0 a.pos.curSince (s.tp 0) = false
     ∧ s.recPair 0 0x088 < s.recPair 0 0x090
     ∧ s.recAmps 0 0 0 = 0 ∧ s.recAmps 0 0 1 = 0 ∧ ratAbs 0 ≤ s.axF P.axImaxtrip 0 ∧ fpVal 0 = 0 ∧ a.coef = {}
     ∧ 0 * 0 + 0 * 0 ≤ s.modLim 0 * s.modLim 0 * (s.vdc 0 0 * s.vdc 0 0 / 3) ∧ s.ownerOf 0 = some 0
     ∧ (s.eng[(0 : Fin 24)]).portSlot 0 = some 1 ∧ s.boot.inReset = false ∧ s.recStuck 0 0 = false ∧ s.recStuck 0 1 = false
     ∧ 1 ≤ s.ax P.axSdfltcnt 0 ∧ s.axF P.axLosinnov 0 = 0 ∧ s.axF P.axLosangle 0 = 0 ∧ (servo []).releases 0 0 = true
     ∧ up.portOf 0 = none)
    ∧ (∀ phi gam z alpha beta pole sin cos : Rat,
        let m := 0 * cos + 0 * sin
        let iBar := phi * 0 + gam * (0 - 0 - 0)
        let i1 := fp32 (iBar + (1 - z * z / phi) * (m - iBar))
        let e1 := fp32 (0 + -((1 - z) * (1 - z) / gam) * (m - iBar))
        let iApp := alpha * i1 + beta * (0 - e1)
        fp32 (e1 + (iApp + (1 - pole) * (0 - iApp) + 0 * 0 * fp32 (0 + (0 - i1)) - phi * iApp) / gam) = 0) := by
  have h : fp32 0 = 0 := by decide +kernel
  refine ⟨by decide +kernel, ?_⟩
  intro phi gam z alpha beta pole sin cos
  simp [h, Rat.mul_zero, Rat.zero_mul, Rat.add_zero, Rat.zero_add, Rat.sub_eq_add_neg, Rat.div_def]

/-- A servo axis at rest with every error 0, whatever the exponentials are; a stepper axis without an encoder; a group of one. -/
theorem witness_PositionLaw :
    (let fe := [(P.axFewarn, 0, 0), (P.axFelim, 0, 0)]
     let at_ (s : State) : Bool := decide (s.portOf 0 = some 0 ∧ s.releases 0 1 = true ∧ s.ax P.axGroup 0 = 0 ∧ s.ax P.axPosprog 0 = 0
       ∧ s.lawOn 0 = true ∧ (s.axes[(0 : Fin 512)]).st = .moving ∧ (s.setpoint 0).seq ≠ (s.axes[(0 : Fin 512)]).pos.mboxSeq
       ∧ s.ax P.axFewarn 0 = 0 ∧ s.ax P.axFelim 0 = 0 ∧ (s.setpoint 0).p = 0 ∧ (s.setpoint 0).v = 0 ∧ (s.setpoint 0).a = 0
       ∧ s.axPos P.axSwlimneg 0 ≤ 0 ∧ 0 ≤ s.axPos P.axSwlimpos 0 ∧ ratAbs 0 ≤ s.axF P.axVmaxtrip 0)
     let s := loop fe { st := .moving, pos := { mboxSeq := 1 } }
     let k := loop ([(P.axBindkind, 0, 2), (P.ptKind, 0, 2)] ++ fe) { st := .moving, pos := { mboxSeq := 1 } }
     at_ s = true ∧ s.openLoop 0 = false ∧ s.brakeCurrent 0 = none ∧ s.axisRegen 0 = false ∧ ofPos64 (s.recPos 0) = 0
     ∧ s.cfg.late = [] ∧ (s.axes[(0 : Fin 512)]).net.owned = none
     ∧ (s.axes[(0 : Fin 512)]).pos = { mboxSeq := 1 } ∧ fp32 (0 + s.tpS 0 / s.axF P.axI2ttau 0 * (0 * 0 - 0)) < 1
     ∧ (s.axes[(0 : Fin 512)]).cur.intHold = false ∧ -s.axF P.axIlimneg 0 ≤ 0 ∧ 0 ≤ s.axF P.axIlimpos 0
     ∧ at_ k = true ∧ k.openLoop 0 = true)
    ∧ (∀ g x : Rat, toPos64 (0 + g * 0) = 0 ∧ fp32 (0 + g / x * 0) = 0
      ∧ fp32 ((g * 0 + 2 * x * (g * 0 - 0) + x * x * 0 + x * x * 0 - 0) / g) = 0)
    ∧ (let s : State := { loop [(P.axGroup, 0, 1)] {} with tables := { group := [(0, [1#8])] } }
       s.leads 0 = true ∧ s.releases 0 1 = true ∧ s.cfg.late = [] ∧ s.groupMembers 0 = [0]
       ∧ (groupTable ((assocGet? s.tables.group 0).getD [])).n = 1 ∧ (s.axes[(0 : Fin 512)]).st = .disabled
       ∧ (s.axes[(0 : Fin 512)]).energ = .off ∧ (s.portOf 0).isSome = true) := by
  have h : fp32 0 = 0 := by decide +kernel
  have hp : toPos64 0 = 0 := by decide +kernel
  refine ⟨by decide +kernel, fun g x => ?_, by decide +kernel⟩
  simp [h, hp, Rat.mul_zero, Rat.add_zero, Rat.sub_eq_add_neg, Rat.div_def, Rat.zero_mul]

/-- Axis 0 of servo port 0 in this state. -/
def inState (st : AxState) : State := axis0 (servo []) { st := st }

/-- A packet to axis 0 is served whatever its state. -/
theorem inState_served (st : AxState) (n : Nat) (args : List Byte) (hn : n < 65536) (ha : axisOk n 0 = true) :
    Served (packet n args 0) n (inState st) := servo_axis_served [] { st := st } n args 0 hn rfl ha

/-- Both commands at the bounds of their operands; each prerequisite in turn; a wait that runs out; a commit that holds the enable. -/
theorem witness_EnableDisable :
    Served (packet 0x0201 (leBytes 1 1 ++ leBytes 1 0 ++ leBytes 2 10000) 0) 0x0201 (inState .ready)
    ∧ Served (packet 0x0202 (leBytes 1 2 ++ leBytes 3 0) 0) 0x0202 (inState .moving)
    ∧ (∃ e : EnableOp, e.phase = .waiting ∧ ({ st := .disabled, enable := some e } : Axis).enable = some e)
    ∧ (∃ a : Axis, a.st = .stopping ∧ a.stop = .quick) ∧ (inState .ready).bound 0 = true ∧ (inState .ready).ax P.axGroup 0 = 0
    ∧ (inState .ready).portOf 0 = some 0 ∧ (inState .ready).isLocal 0 = true ∧ (inState .ready).commitHolds 0 = false
    ∧ ((inState .ready).axes[(0 : Fin 512)]).enable = none ∧ ((inState .ready).tg.ports[(0 : Fin 64)]).st ≠ .lockout
    ∧ (inState .enabledIdle).brakeTesting 0 = false ∧ (inState .enabledIdle).faulted 0 = false
    ∧ ({ inState .ready with cfg := { commit := some (commit .loading) } } : State).commitHolds 0 = true
    ∧ (let s := inState .disabled
       let b : State := { s with buses := upd s.buses 0 fun x => { x with st := .ready } }
       s.fbValid 0 0 = true ∧ s.busReady (s.busOf 0) = false ∧ s.missing 0 = some 2 ∧ b.busReady (b.busOf 0) = true
       ∧ ((b.ports[(0 : Fin 64)]).trip = .armed ∧ (b.ports[(0 : Fin 64)]).drvflt = false ∧ b.missing 0 = some 4)
       ∧ ({ b with tg := { b.tg with gen := 1#64 } } : State).missing 0 = none
       ∧ (axis0 (servo [(P.axFbmode, 0, 1)]) {}).fbValid 0 0 = false) :=
  ⟨inState_served _ _ _ (by decide) (by decide), inState_served _ _ _ (by decide) (by decide), ⟨⟨[], .waiting, true, 10000⟩, rfl, rfl⟩, ⟨{ st := .stopping, stop := .quick }, rfl, rfl⟩, by decide +kernel⟩

/-- Every opcode of the statement on an idle axis; overrides at and beyond their bounds; targets inside and outside the software limits;
a limit input that is active; homing required; each homing method that needs nothing and one that needs an input. -/
theorem witness_MotionCommands :
    let s := inState .enabledIdle
    (∀ n args, n < 65536 → axisOk n 0 = true → Served (packet n args 0) n s) ∧ (∃ a : Axis, a.st = .stopping ∧ a.stop ≠ .quick)
    ∧ ([0x0203, 0x0204, 0x0205, 0x0206, 0x0207].all fun n => axisOk n 0) = true ∧ rsvZero (zeros 36) 33 3 = true ∧ (zeros 28).length = 28
    ∧ u8 (zeros 12) 0 < 6 ∧ s.bound 0 = true ∧ s.brakeTesting 0 = false ∧ s.net.owned.contains 0 = false ∧ s.ax P.axHomereq 0 ≠ 1
    ∧ ofVel64 (s.ax P.axVmax 0) ≤ s.axVel P.axVmax 0 ∧ ¬ ofVel64 (s.ax P.axVmax 0 + 1) ≤ s.axVel P.axVmax 0 ∧ s.axPos P.axSwlimneg 0 ≤ 0
    ∧ (0 : Rat) ≤ s.axPos P.axSwlimpos 0 ∧ s.limitFree 0 0 = true ∧ s.stepSource 0 = none
    ∧ (servo [(P.axStepsrcport, 0, 0)]).stepSource 0 = some 0 ∧ (servo [(P.axSwlimpos, 0, 0)]).axPos P.axSwlimpos 0 < 1
    ∧ (servo [(P.axHomereq, 0, 1)]).ax P.axHomereq 0 = 1
    ∧ (let l := servo [(P.axLimposin, 0, 0)]
       ({ l with probes := upd l.probes 0 fun x => { x with level := true } } : State).limitFree 0 1 = false)
    ∧ s.methodOk 0 0 = true ∧ s.methodOk 0 1 = false ∧ s.methodOk 0 5 = true ∧ (u8 (leBytes 1 0xFF) 0 = 0xFF) := by
  refine ⟨?_, ⟨{ st := .stopping }, rfl, by decide⟩, by decide +kernel⟩
  exact fun n args hn ha => inState_served _ _ _ hn ha

/-- The four commands on an axis with a master; a gear that is locked and one that is not in force; a cam loaded and one that is not;
a path of one segment that starts, and one that goes on. -/
theorem witness_Coordination :
    let s := axis0 (servo [(P.axMaster, 0, 1), (P.axPathgrp, 0, 1)]) { st := .enabledIdle }
    let gear := leBytes 4 1 ++ leBytes 4 1 ++ zeros 24
    let seg := leBytes 8 20000 ++ leBytes 1 0 ++ leBytes 1 0 ++ zeros 22
    let path := leBytes 1 1 ++ leBytes 1 1 ++ zeros 10 ++ seg
    let segs := pathSegments (path.drop 12) 1 1
    let run : PathRun := { members := [0], tStart := none, start := [(0, 0)], segs := segs }
    let c : CamCmd := { cam := 0, mode := 0, at_ := none, relative := false, oneShot := false, phase := 0, offset := 0 }
    let cammed : State := { s with tables := { cams := [(0, zeros 80)] } }
    (∀ n args, n < 65536 → axisOk n 0 = true → Served (packet n args 0) n s)
    ∧ (∃ a : Axis, a.prof.source = .gear ∧ ∃ g, a.coord.gear = some g ∧ g.phase = .locked)
    ∧ (∃ a : Axis, a.prof.source = .cam ∧ ∃ k, a.coord.cam = some k ∧ k.cam = 0)
    ∧ ([0x0208, 0x0209, 0x020A, 0x020B].all fun n => axisOk n 0) = true ∧ s.bound 0 = true ∧ s.brakeTesting 0 = false
    ∧ s.net.owned.contains 0 = false ∧ s.ax P.axMaster 0 ≠ 0xFFFF ∧ (inState .enabledIdle).ax P.axMaster 0 = 0xFFFF ∧ i32 gear 0 = 1
    ∧ u32 gear 4 = 1 ∧ gear.length = 32 ∧ rsvZero gear 10 2 = true
    ∧ assocGet? s.tables.cams 0 = none ∧ (assocGet? cammed.tables.cams 0).isSome = true ∧ c.oneShot = false ∧ cammed.camGap 0 c = 0
    ∧ path.length = 12 + 1 * (16 + 16 * 1) ∧ segsReserved (path.drop 12) 1 1 = true ∧ segs = [⟨20000, false, false, [(0, 0)]⟩]
    ∧ s.now + 10000 ≤ 20000 ∧ s.pathGroup 0 = [0] ∧ s.pathRunning 0 = none ∧ (servo []).pathGroup 0 = []
    ∧ (axis0 s { st := .moving, coord := { path := some run, pathLeader := some 0 } }).pathRunning 0 = some run
    ∧ (run.segs.getLast?).any (fun g => g.last == false) = true := by
  intro s gear seg path segs run c cammed
  refine ⟨?_, ⟨{ prof := { source := .gear }, coord := { gear := some ⟨1, 1, .locked, 0, 0, none⟩ } }, rfl, _, rfl, rfl⟩, ⟨{ prof := { source := .cam }, coord := { cam := some ⟨0, 0, 0, false, none, none, none⟩ } }, rfl, _, rfl, rfl⟩, by decide +kernel⟩
  exact fun n args hn ha => servo_axis_served _ _ _ _ _ hn rfl ha

/-! ### Witnesses: setpoints, energising and ports -/

/-- A move to this raw position, accepted at the beginning of line time. -/
def moveTo (y : Int) : MotionCmd := { ref := none, opcode := 0x0203, tag := 7, kind := .absolute y, at_ := 0 }

/-- A plan to count 1 that runs for a second. -/
def runs : Plan :=
  { kind := .move (ofPos64 65536), segs := [{ t := 0, dur := 1, p := 0, v := 1, a := 0, code := 0 }], endP := ofPos64 65536 }

/-- An axis that stops, in each of the ways in which a stop ends; one that homes; one that moves, before and at its takeover, and at the
end of its plan. -/
theorem witness_Setpoints :
    let s := loop [] { st := .moving, prof := { source := .profile, plan := runs, cur := some (moveTo 65536) } }
    let t := loop [] { st := .moving, prof := { next := some (moveTo 65536) } }
    -- standing still for `AX.STANDTIME`, at and short of it
    let still (ticks : Nat) : State := { loop [(P.axStandtime, 0, 10)] { pos := { standSince := some 0 } } with ticks := ticks }
    let u : State := { s with time := { sec := 2 } }
    let b := (t.updProf 0 fun p => { p with vmax := 0, amax := 0, dmax := 0 }).bands 0 0
    let plan := b.move (.move (ofPos64 65536)) t.nowRat (t.sourceState 0 t.nowRat).1 (t.sourceState 0 t.nowRat).2.1 (ofPos64 65536) (t.axisRegen 0)
    (∃ a : Axis, a.st = .stopping ∧ a.stopNew = false ∧ a.stopCmd = some (moveTo 0) ∧ a.prof.cur = none ∧ a.ss1 = false
        ∧ a.stopForFault = true)
    ∧ (∃ a : Axis, a.st = .homing ∧ a.prof.next = none ∧ a.prof.cur = some (moveTo 0) ∧ a.home.after = some (.failed 1))
    ∧ (∃ a : Axis, a.st = .homing ∧ a.home.after = none ∧ a.home.phase = .finish) ∧ s.bound 0 = true ∧ s.safeState = false
    ∧ s.releases 0 2 = true ∧ t.releases 0 2 = true ∧ s.cfg.late = [] ∧ (servo []).releases 0 2 = false ∧ s.boot.inReset = false
    ∧ (still 4).stoodStill 0 = true ∧ (still 3).stoodStill 0 = false ∧ 2 * (still 4).ax P.axStandtime 0 ≤ 5 * (4 - 0)
    ∧ State.reset.bound 0 = false ∧ (∀ k : Fin 4, ((s.axes[(0 : Fin 512)]).latches[k]) = {} ∧ ((s.axes[(0 : Fin 512)]).compares[k]) = {})
    ∧ s.isVirtual 0 = false ∧ s.openLoop 0 = false ∧ s.net.owned.contains 0 = false ∧ runs.revAt = none ∧ s.axisRegen 0 = runs.scaled
    ∧ runs.ended s.nowRat = false ∧ (runs.seg? u.nowRat).isNone = true ∧ runs.ended u.nowRat = true ∧ runs.endV = 0
    ∧ (moveTo 65536).done = false ∧ (moveTo 65536).at_ ≤ t.now ∧ (moveTo 65536).timed = false ∧ plan.revAt = none
    ∧ plan.ended t.nowRat = false ∧ ratAbs (ofVel64 (s.actVel 0)) ≤ s.axF P.axStandvel 0 ∧ ({} : Plan).ended 0 = true := by
  intro s t still u b plan
  refine ⟨⟨{ st := .stopping, stopCmd := some (moveTo 0), stopForFault := true }, rfl, rfl, rfl, rfl, rfl, rfl⟩, ⟨{ st := .homing, prof := { cur := some (moveTo 0) }, home := { after := some (.failed 1) } }, rfl, rfl, rfl, rfl⟩, ⟨{ st := .homing, home := { phase := .finish } }, rfl, rfl, rfl⟩, by decide +kernel⟩

/-- A stepper without an encoder on port 0, and a servo axis, at rest: calibration means at and beyond their limit, a speed that allows
calibration and one that does not, alignment short of and past 45°, the outcomes of a catch, and a stepper under program 0x0002. -/
theorem witness_Energising :
    (let s := loop [] { st := .ready, energ := .calibrate, cur := { calN := 1024 } }
     let mean (q : Nat) : Rat := fp32 (s.axF P.axIscale 0 * ((q : Rat) / 1024 / ((s.pt P.ptSdosr 0 ^ 3 : Nat) : Rat) - mkRat 1 2))
     s.portOf 0 = some 0 ∧ s.axisOf 0 = some 0 ∧ s.isServo 0 = true ∧ ratAbs (mean (1024 * 256)) ≤ s.axF P.axIoffmax 0
     ∧ s.axF P.axIoffmax 0 < ratAbs (mean 0) ∧ ratAbs (s.omegaE 0 (ofVel64 0)) ≤ s.axF P.axOffcalvel 0
     ∧ s.axF P.axOffcalvel 0 < ratAbs (s.omegaE 0 (ofVel64 (2 ^ 63 - 1))) ∧ s.ax P.axCurprog 0 = 0 ∧ s.ax P.axAngleinit 0 = 0
     ∧ (s.fb[(0 : Fin 64)]).hall = 0 ∧ (s.axes[(0 : Fin 512)]).cur.calN = 1024)
    ∧ (∃ s : State, s.portOf 0 = some 0 ∧ s.ax P.axAngleinit 0 = 1 ∧ s.ax P.axAnglesrc 0 = 1 ∧ (s.fb[(0 : Fin 64)]).hall = 6)
    ∧ (let c := loop [(P.axAngleinit, 0, 2)] { st := .ready, energ := .init, cur := { alignStep := 2, alignLo := some 0 } }
       let turned (p0 : Rat) : Rat := ratAbs (ofPos64 (c.recPos 0) - p0) * 360 * (c.ax P.axPolepairs 0 : Rat) / (c.crev 0 : Rat)
       c.crev 0 ≠ 0 ∧ turned 0 < 45 ∧ 45 ≤ turned (c.crev 0 : Rat)
       ∧ ratMax 0 (ofPos64 (c.recPos 0)) - ratMin 0 (ofPos64 (c.recPos 0)) ≤ (c.ax P.axAlignsettle 0 : Rat))
    ∧ (let x (n : Rat) (sat : Bool) (t : Rat) : Axis := { energ := .init, step := { catching := some false, samples := [(n, 0, sat, t)] } }
       let k (a : Axis) : State := loop [(P.axBindkind, 0, 2), (P.ptKind, 0, 2)] a
       (match (k (x 0 false 0)).judgeCatch 0 with | .standstill => true | .motion _ _ => false | .invalid _ => false) = true
       ∧ (match (k (x 10000 true 0)).judgeCatch 0 with | .standstill => false | .motion _ _ => false | .invalid d => d == 0x0101) = true
       ∧ (k (x 0 false 0)).isStep 0 = true ∧ (k (x 0 false 0)).openLoop 0 = true ∧ (k (x 0 false 0)).lawOn 0 = false
       ∧ (axis0 (servo [(P.axBindkind, 0, 2), (P.ptKind, 0, 2), (P.axFbmode, 0, 1)]) {}).openLoop 0 = false)
    ∧ (∀ a : Rat, (fitLine (unwrap [(1, a)]) 1).1 = 0 ∧ (fitLine (unwrap [(1, a)]) 1).2.2 = 0)
    ∧ (let s := loop [(P.axBindkind, 0, 2), (P.ptKind, 0, 2)] { st := .moving }
       s.isStep 0 = true ∧ s.ax P.axCurprog 0 = 0 ∧ s.releases 0 0 = true ∧ s.lawOn 0 = true ∧ s.openLoop 0 = true
       ∧ (s.axes[(0 : Fin 512)]).step = {} ∧ (s.curRef 0).seq = 0 ∧ (s.axes[(0 : Fin 512)]).pos.curSeq = 0 ∧ s.overdue 0 0 (s.tp 0) = false
       ∧ ratAbs (s.recAmps 0 0 0) ≤ s.axF P.axImaxtrip 0 ∧ ratAbs (s.recAmps 0 0 1) ≤ s.axF P.axImaxtrip 0 ∧ s.ownerOf 0 = some 0)
    -- the held conditions at and short of their times
    ∧ (let s := servo []
       2 * s.ax P.axLostime 0 ≤ 5 * (800000 - 0) ∧ ¬ 2 * s.ax P.axLostime 0 ≤ 5 * (799999 - 0)
       ∧ 2 * s.ax P.axStalltime 0 ≤ 5 * (8000000 - 0) ∧ ¬ 2 * s.ax P.axStalltime 0 ≤ 5 * (7999999 - 0)
       ∧ 1 ≤ s.ax P.axSdfltcnt 0 ∧ s.ax P.axSdfltcnt 0 ≤ 4 ∧ 3 < s.ax P.axSdfltcnt 0
       ∧ s.activeAxisFault 0x0303 0 = false ∧ s.activeAxisFault 0x0304 0 = false
       ∧ (loop [] {}).recStuck 0 0 = false ∧ ((loop [] {}).eng[(0 : Fin 24)]).portSlot 0 = some 1)
    ∧ (∃ a : Axis, a.st = .homing ∧ a.home.phase = .stall ∧ a.step.stalled = true) := by
  refine ⟨by decide +kernel, ⟨{ servo [(P.axAngleinit, 0, 1), (P.axAnglesrc, 0, 1)] with
    fb := upd up.fb 0 fun f => { f with hall := 6 } }, by decide +kernel⟩, by decide +kernel, by decide +kernel, fun a => ?_,
    by decide +kernel, by decide +kernel, ⟨{ st := .homing, home := { phase := .stall }, step := { stalled := true } }, rfl, rfl, rfl⟩⟩
  have h : (1 : Rat)⁻¹ = 1 := by decide +kernel
  have h0 : ratSqrt 0 = 0 := by decide +kernel
  simp [fitLine, unwrap, unwrapFrom, sumOf, Rat.zero_add, Rat.div_def, Rat.mul_one, h, h0, Rat.sub_eq_add_neg, Rat.add_neg_cancel, Rat.mul_zero]

/-- Port 0 as given, of an axis on it, with comparator 0 enabled. -/
def onPort (x : Port) : State := { servo [(P.ptSnsen, 0, 1)] with ports := upd up.ports 0 fun _ => x }

/-- A store to the slot on its way; a comparator that trips and one that does not, at the bounds of blanking; both trip modes; the last
trip that a cycle-by-cycle limit allows; a captured duty that is capped; a retired port; a threshold that is due in either direction. -/
theorem witness_PortEvents :
    (let s := onPort { armed := true, cappedAt := 0 }
     ((1#4).toNat &&& s.pt P.ptSnsen 0) = 1 ∧ ((2#4).toNat &&& s.pt P.ptSnsen 0) = 0 ∧ s.pt P.ptTripmode 0 = 0
     ∧ (servo [(P.ptTripmode, 0, 1)]).pt P.ptTripmode 0 = 1 ∧ s.pt P.ptCbcmax 0 ≤ 15 + 1 ∧ ¬ s.pt P.ptCbcmax 0 ≤ 0 + 1
     ∧ s.pt P.ptShadowfmt 0 ≠ 1 ∧ s.pt P.ptKind 0 ≠ 2 ∧ (servo [(P.ptShadowfmt, 0, 1)]).pt P.ptShadowfmt 0 = 1
     ∧ (s.capture 0).2 = false ∧ s.portRetired 0 = false ∧ s.fbRetired 0 = false ∧ s.mayRaise 0x0102 0 = true
     ∧ ({ s with faults := { portsRetired := 1, fbRetired := 1 } } : State).portRetired 0 = true
     ∧ ¬ (32 : Nat) + 32 * s.pt P.ptBlank 0 ≤ 32 * 200 ∧ (32 : Nat) + 32 * s.pt P.ptBlank 0 ≤ 32 * 201
     ∧ s.edgeFmt 0 = false ∧ (servo [(P.ptKind, 0, 3), (P.ptShadowfmt, 0, 1)]).edgeFmt 0 = true
     ∧ (let c : State := { (servo [(P.ptBootstrap, 0, 1)]) with
          ports := upd up.ports 0 fun x => { x with armed := true, shadow := x.shadow.set 0 (BitVec.ofNat 32 (2 ^ 22 - 1)) } }
        (c.capture 0).2 = false ∧ c.refreshLeg 0 0 = true))
    ∧ (∃ s : State, ∃ a bs rest, (s.eng[(0 : Fin 24)]).pstores = (a, bs) :: rest ∧ (s.eng[(0 : Fin 24)]).role ≠ .retired
        ∧ (s.eng[(0 : Fin 24)]).slotPort (a / 256) = some 0)
    -- the taps of a good delay line, and the ends of its span
    ∧ (let taps (n : Nat) : List (BitVec 16) := (List.range 64).map fun k => BitVec.ofNat 16 (if k < n then 400 * k else 30000)
       let span (n : Nat) : Nat := ((taps n).filter fun d => decide (d.toNat ≤ 20000)).length
       span 40 = 40 ∧ span 51 = 51 ∧ span 39 = 39)
    ∧ (let x : Port := { chop1 := { st := .drive, neg := true } }
       let s : State := { onPort x with ticks := 10000 }
       let d : Int := -1
       d * chopUp x.inForce 0 ≤ d * s.fastFilter 0 0 ∧ (x.chop 0).at_ + s.chopParam 0 P.axChopblank ≤ s.ticks
       ∧ ¬ d * chopUp x.inForce 0 ≤ d * s.fastFilter 0 (BitVec.allOnes 96)) := by
  refine ⟨by decide +kernel, ⟨{ loop [] {} with eng := upd (loop [] {}).eng 0 fun e => { e with pstores := [(256, zeros 16)] } },
    256, zeros 16, [], by decide +kernel, by decide +kernel, by decide +kernel⟩, by decide +kernel, by decide +kernel⟩

/-- Ports under each request of the highest ranks, and a leg whose switches are requested by the force codes. -/
theorem witness_PortOutputs :
    (let s := onPort { offReset := false, force := 2, offT := Vector.replicate 8 8192, dead := 200 }
     s.boot.safePath = false ∧ s.tg.pad.getLsbD 0 = true ∧ s.bothOnLeg 0 0 = false
     ∧ (s.ports[(0 : Fin 64)]).haltOff = false ∧ (s.ports[(0 : Fin 64)]).frozen.isSome = false ∧ (s.ports[(0 : Fin 64)]).upsetOff = false)
    ∧ (let s : State := { onPort { offReset := false, force := 2, dead := 200 } with tg := { up.tg with pad := 0#64 } }
       s.rank 0 0 = 6 ∧ s.refreshNow 0 0 = false ∧ s.request 0 0 = (true, false)
         ∧ 200 ≤ min 8192 ((s.ports[(0 : Fin 64)]).offT[(1 : Fin 8)] + 1)
       ∧ ({ s with ports := upd s.ports 0 fun x => { x with shorting := true } } : State).rank 0 0 = 3
       ∧ ({ s with ports := upd s.ports 0 fun x => { x with offFault := true } } : State).rank 0 0 = 4)
    ∧ (let s : State := { (servo [(P.ptKind, 0, 0)]) with
         ports := upd up.ports 0 fun x => { x with offReset := false, waiting := false }, tg := { up.tg with pad := 0#64 } }
       s.rank 0 0 = 0) := by decide +kernel

/-- The port commands on a port that is free, in use, not in use by any axis and retired; a latched trip with and without a cause; a bus
in each state at its thresholds. -/
theorem witness_PortCommandsAndBuses :
    let args (legs tmo : Nat) : List Byte := leBytes 1 0 ++ leBytes 1 legs ++ leBytes 2 tmo
    Served (packet 0x0401 (args 63 60000)) 0x0401 (servo []) ∧ Served (packet 0x0402 (leBytes 1 0 ++ leBytes 3 0)) 0x0402 (servo [])
    ∧ Served (packet 0x0403 (leBytes 1 0 ++ leBytes 3 0)) 0x0403 (servo [])
    ∧ ((servo []).pt P.ptKind 0 = 1 ∧ 63 / 64 = 0 ∧ 64 / 64 ≠ 0 ∧ up.pt P.ptKind 0 = 0 ∧ up.portRetired 0 = false
      ∧ (servo []).axisOf 0 = some 0 ∧ ((servo []).axes[(0 : Fin 512)]).st = .disabled
      ∧ (inState .moving).axisOf 0 = some 0 ∧ ((inState .moving).axes[(0 : Fin 512)]).st = .moving)
    ∧ (let x : Port := { trip := .latched, drvflt := true }
       let s := onPort x
       (x.comps &&& s.pt P.ptSnsen 0) + 16 ≠ 0 ∧ (({} : Port).comps &&& s.pt P.ptSnsen 0) + 0 = 0)
    ∧ (let s : State := { up with buses := upd up.buses 0 fun b => { b with st := .ready, v := 48, chop := true } }
       let nn := s.dv P.dvDcbOsr 0
       let v (k : Nat) : Rat := s.dvF P.dvDcbVscale 0 * ((k : Rat) / ((nn ^ 3 : Nat) : Rat) - mkRat 1 2)
       let win : BitVec 384 := 0x333333333333333333333333333333333333333333333333333333333333333333333333333333333333333333333333
       let y := min (sinc3 nn (s.busEdge 0) win.toNat) (nn ^ 3)
       v y < s.dvF P.dvDcbOv2 0 ∧ v y < s.dvF P.dvDcbOv3 0 ∧ (y == 0 || y == nn ^ 3) = false
       ∧ (s.buses[(0 : Fin 8)]).full = false ∧ s.activeFault 0x0607 .bus 0 = false ∧ s.activeFault 0x0609 .bus 0 = false
       ∧ s.dvF P.dvDcbPrev 0 ≤ 1000 ∧ 0 < s.dvF P.dvDcbUv 0
       ∧ (∃ b : Bus, b.st = .charging ∧ b.preTimer = true ∧ b.preFailed = false)) := by
  intro args
  refine ⟨servo_served _ _ _ _ (by decide) (by decide), servo_served _ _ _ _ (by decide) (by decide),
    servo_served _ _ _ _ (by decide) (by decide), by decide +kernel, by decide +kernel, ?_⟩
  refine ⟨by decide +kernel, by decide +kernel, by decide +kernel, by decide +kernel, by decide +kernel, by decide +kernel, by decide +kernel,
    by decide +kernel, ⟨{ st := .charging, preTimer := true }, rfl, rfl, rfl⟩⟩

/-! ### Witnesses: feedback, probes, emulation, latches and compares -/

/-- A feedback unit as given on port 0, with the axis on it in this mode. -/
def onUnit (m : Nat) (f : Feedback) : State :=
  { (servo [(P.axFbmode, 0, m), (P.axVelwin, 0, 1000), (P.axInterpmax, 0, 1000)]) with fb := upd up.fb 0 fun _ => f }

/-- Each feedback mode; a word at the bounds of its length, plain and in Gray code; jumps at and beyond their limit; a resolver amplitude
inside and outside; edges and frames for each rule of the velocity. -/
theorem witness_FeedbackUnits :
    (∀ m : Fin 7, (onUnit m.val {}).unitUse 0 = some (0, m.val)) ∧ (onUnit 1 {}).hallUser 0 = none
    ∧ (up.unitUse 1 = none ∧ (servo [(P.axFbmode, 0, 2), (P.axHallport, 0, 1)]).hallUser 1 = some (0, 0))
    ∧ ([5, 1, 3, 2, 6, 4].getD (5 : Fin 6).val 0 = 4 ∧ (0 : Fin 6) ≠ 5)
    ∧ (let s := onUnit 4 { frameOpen := some (0, true), word := some 4095, frames := [(0, 4095)] }
       let bits := s.ax P.axSsibits 0
       8 ≤ bits ∧ bits ≤ 48 ∧ 0 < 2 ^ bits ∧ s.ax P.axSsifmt 0 % 2 = 0 ∧ (0#48).toNat % 2 ^ bits = 0 ∧ 2 ^ bits - 1 < 2 ^ bits
       ∧ (2 ^ bits : Int) ∣ 0 - 4095 - (-4095) ∧ -(2 ^ (bits - 1) : Int) ≤ -4095 ∧ -4095 < (2 ^ (bits - 1) : Int)
       ∧ s.ax P.axSsijump 0 = 0
       ∧ (servo [(P.axSsijump, 0, 4094)]).ax P.axSsijump 0 < Int.natAbs (-4095)
       ∧ Int.natAbs (-4095) ≤ (servo [(P.axSsijump, 0, 4095)]).ax P.axSsijump 0)
    ∧ (let s := onUnit 6 { ampOut := 2 }
       let n3 : Rat := ((s.pt P.ptSdosr 0 ^ 3 : Nat) : Rat)
       let amp (y2 y3 : Nat) : Rat := 2 * ratSqrt (((y2 : Rat) / n3 - mkRat 1 2) * ((y2 : Rat) / n3 - mkRat 1 2)
         + ((y3 : Rat) / n3 - mkRat 1 2) * ((y3 : Rat) / n3 - mkRat 1 2))
       (¬ (amp 400 256 < s.axF P.axResampmin 0 ∨ s.axF P.axResampmax 0 < amp 400 256)) ∧ amp 256 256 < s.axF P.axResampmin 0)
    ∧ (let s (f : Feedback) : State := { onUnit 1 f with ports := upd up.ports 0 fun x => { x with extT := 5000 } }
       let f : Feedback := { count := 2, edges := [(5000, 2, 1), (4500, 1, 1), (4000, 0, 1)] }
       f.edges = (5000, 2, 1) :: [(4500, 1, 1)] ++ [(4000, 0, 1)]
       ∧ (∀ x ∈ f.edges, x.1 ≤ ((5000 : Nat) : Rat) ∧ ((5000 : Nat) : Rat) - ((s f).ax P.axVelwin 0 : Rat) ≤ x.1)
       ∧ ((s f).ports[(0 : Fin 64)]).extT = 5000 ∧ (s f).axF P.axVeltau 0 = 0)
    ∧ (onUnit 4 { frames := [(5000, 7), (4000, 6)] }).fb[(0 : Fin 64)].frames = [(5000, 7), (4000, 6)] := by decide +kernel

/-- A level held for the filter and one that is not, at their bounds; an SSI frame that may start; windows of the resolver, before the
first and at it, of good and of bad amplitude. -/
theorem witness_FeedbackUnits_times :
    (let s : State := { onUnit 1 { since := 0 } with ticks := 12, time := { ns := 30 } }
     let nf : Rat := (s.ax P.axFbfilt 0 : Rat)
     s.unitAxis 0 = some 0 ∧ (15 : Rat) + nf * 5 ≤ s.nowRat ∧ s.tickNs 0 + nf * 5 ≤ 15
     ∧ s.nowRat < 16 + nf * 5 ∧ (14 : Rat) < s.tickNs 0 + nf * 5)
    ∧ (let s : State := { onUnit 4 {} with ports := upd up.ports 0 fun x => { x with extT := 0, samples := 0 } }
       (s.ports[(0 : Fin 64)]).extT = s.now ∧ (0 + 1) % s.ax P.axSsievery 0 = 0 ∧ ({} : Feedback).frameEnd = 0)
    ∧ (let s (n : Nat) : State := { onUnit 6 {} with ticks := n }
       (s 0).resolverTick 0 0 = none ∧ ((s 60000).resolverTick 0 0).isSome = true
       ∧ (s 0).decimate 0 0 = 0 ∧ (s 0).decimate 0 (BitVec.allOnes 192).toNat = (s 0).pt P.ptSdosr 0 ^ 3) := by decide +kernel

/-- What holds of every axis of `up` and of axis 0 as given holds of every axis. -/
theorem axis0_all (l : List (PDef × Nat × Nat)) (a : Axis) (Q : Axis → Prop) (h : Q {}) (ha : Q a) (i : Fin 512) :
    Q ((axis0 (servo l) a).axes[i]) := by
  have hx : (servo l).axes = up.axes := (params_frame ([(P.axBindkind, 0, 1), (P.axPort, 0, 0), (P.ptKind, 0, 1)] ++ l) up).2.2
  rw [show (axis0 (servo l) a).axes = (servo l).axes.set 0 a from rfl, hx]
  simp only [Fin.getElem_fin, Vector.getElem_set]
  split
  · exact ha
  · simpa [up, onBoot, State.reset] using h

/-- A transition count at and beyond the limit; an index input that a latch waits for; a probe that an axis homes on, that limits an axis
and that records; an emulation unit with no edge, as many as fit, more, and too many. -/
theorem witness_ProbesAndEmulation :
    (∀ j : Fin 512, ((inState .enabledIdle).axes[j]).home.method < 6)
    ∧ (let s := inState .enabledIdle
     s.unitUse 0 = some (0, 0) ∧ s.ax P.axChatmax 0 < (65535#16).toNat ∧ ¬ s.ax P.axChatmax 0 < (0#16).toNat ∧ s.mayRaise 0x0206 0 = true
     ∧ s.dv P.dvPrbchatmax < (65535#16).toNat ∧ s.axisOf 0 = some 0
     ∧ (∀ j : Fin 512, ¬ (s.bound j = true ∧ (s.ax P.axLimposin j = 0 ∨ s.ax P.axLimnegin j = 0))))
    ∧ (let h : Homing := { method := 1, phase := .creep }
       let l : Latch := { armed := true, cfg := { source := 0, edge := 1 } }
       let s := axis0 (servo [(P.axHomein, 0, 0), (P.axLimposin, 0, 0), (P.dvPrbedge, 0, 1)])
         { st := .homing, home := h, latches := upd (Vector.replicate 4 {}) 0 fun _ => l, prof := { cmdVel := 1 } }
       (s.refInput 0 h.method).1 = 0 ∧ h.seenInactive = false ∧ l.seenInactive = false ∧ s.bound 0 = true ∧ s.ax P.axLimposin 0 = 0
       ∧ (∀ j : Fin 512, j ≠ 0 → ¬ (s.bound j = true ∧ (s.ax P.axLimposin j = 0 ∨ s.ax P.axLimnegin j = 0)))
       ∧ s.dv P.dvPrbedge / 256 ^ 0 % 4 / 1 % 2 = 1 ∧ (true != bit (s.ax P.axHomepol 0) 1) = true)
    ∧ ({ armed := true, cfg := { source := 0x40 } } : Latch).cfg.source = 0x40
    ∧ (let e (mode : Nat) := [(P.dvEmuMode, 0, mode), (P.dvEmuSrc, 0, 0x8000), (P.dvEmuNum, 0, 1), (P.dvEmuDen, 0, 1)]
       let at_ (n : Nat) (c : Int) : State := axis0 (servo (e n)) { prof := { cmdPos := c * 65536 } }
       let u := (at_ 1 0).dv P.dvEmuUpd 0 * 64 / 5
       let term (c : Int) : Int := ((at_ 1 c).axes[(0 : Fin 512)]).prof.cmdPos * ((at_ 1 c).dv P.dvEmuNum 0 : Int)
         / (((at_ 1 c).dv P.dvEmuDen 0 : Int) * 65536)
       (at_ 1 0).dv P.dvEmuMode 0 = 1 ∧ (at_ 2 0).dv P.dvEmuMode 0 = 2 ∧ up.dv P.dvEmuMode 0 = 0
       ∧ (at_ 1 0).dv P.dvEmuSrc 0 % 512 = 0 ∧ (at_ 1 0).dv P.dvEmuSrc 0 / 32768 % 2 = 1 ∧ 0 ≤ u ∧ 512 * 1 ≤ u
       ∧ term 0 = 0 ∧ term 1 = 1 ∧ term (-1) = -1 ∧ term (u / 512 + 2 : Nat) = (u / 512 + 2 : Nat) ∧ u / 512 + 2 ≤ 65536
       ∧ term (u / 512 + 65538 : Nat) = (u / 512 + 65538 : Nat) ∧ ({} : Emu).lastAt + 512 ≤ (u : Int)
       ∧ 0 < 2 * ((at_ 2 0).dv P.dvEmuStepw 0 * 32)) :=
  ⟨axis0_all [] _ (fun a => a.home.method < 6) (by decide) (by decide), by decide +kernel⟩

/-- An edge held for its filter and one that is not, at their bounds; edges at and short of their spacing; a latch that waits, and one
that has waited long enough. -/
theorem witness_ProbesAndEmulation_times :
    (let s : State := { inState .enabledIdle with ticks := 12, time := { ns := 30 } }
     let filt : Nat := s.dv P.dvPrbfilt / 256 ^ 0 % 256
     let w : Rat := (filt : Rat) * mkRat 5 2
     w ≤ s.nowRat ∧ s.tickNs 0 + w ≤ w ∧ w + w ≤ s.nowRat ∧ s.nowRat < s.nowRat + mkRat 1 65536 + w ∧ 0 < s.tickNs 0 + w
     ∧ ({ lastEdge := some 0 } : Probe).lastEdge.all (fun t => decide (t + (filt + 1) * 163840 ≤ (filt + 1) * 163840)) = true
     ∧ ({ lastEdge := some 1 } : Probe).lastEdge.all (fun t => decide (t + (filt + 1) * 163840 ≤ (filt + 1) * 163840)) = false)
    ∧ (let l : Latch := { armed := true, cfg := { source := 0x40, edge := 1 }, since := 0 }
       let s := axis0 (servo []) { st := .enabledIdle, latches := upd (Vector.replicate 4 {}) 0 fun _ => l }
       inactiveFor l.cfg.edge true = false ∧ l.seenInactive = false ∧ l.since + s.ax P.axStucktmo 0 ≤ 1000000000
       ∧ ¬ l.since + s.ax P.axStucktmo 0 ≤ 999999999
       ∧ 2 * s.dv P.dvPrbstuck ≤ 5 * (400000000 - 0) ∧ ¬ 2 * s.dv P.dvPrbstuck ≤ 5 * (399999999 - 0)) := by decide +kernel

/-- The commands at and beyond the bounds of their operands; a channel whose position is crossed and one that is predicted; a compare that
fires, with its output; an edge of a GPIO input with one channel of Waymark and with none. -/
theorem witness_LatchesAndCompares :
    let s := axis0 (servo [(P.dvPrbedge, 0, 3)]) { st := .enabledIdle }
    (∀ n args, n < 65536 → axisOk n 0 = true → Served (packet n args 0) n s)
    ∧ (∀ j : Fin 512, ∀ m : Fin 4, ((s.axes[j]).compares[m]).armed = false ∧ ((s.axes[j]).compares[m]).setting = none)
    ∧ (∃ x : Compare, x.sched = some (100, false) ∧ x.armed = true ∧ x.left = some 1 ∧ x.cfg.output = 55)
    ∧ ([0x0501, 0x0502, 0x0503, 0x0504].all fun n => axisOk n 0) = true ∧ s.bound 0 = true ∧ (s.dv P.dvPrbedge / 256 ^ 0 % 4) &&& 3 = 3
    ∧ (s.dv P.dvPrbedge / 256 ^ 1 % 4) &&& 3 ≠ 3
    ∧ (leBytes 1 3 ++ leBytes 1 0x40 ++ leBytes 1 1 ++ leBytes 1 4 ++ zeros 4 ++ leInt 8 (-2 ^ 63) ++ leInt 8 (2 ^ 63 - 1)).length = 24
    ∧ s.dv P.dvEmuMode 0 ≠ 3 ∧ (servo [(P.dvEmuMode, 0, 3)]).dv P.dvEmuMode 0 = 3
    ∧ ratAbs (ofVel64 (s.cmpNow 0 false).2) ≤ s.axF P.axStandvel 0
    ∧ (let x : Compare := { armed := true, pos := 65536 }
       x.sched = none ∧ (0 ≤ x.dir ∧ x.prev < x.pos ∧ x.pos ≤ 65536)
       ∧ (0 < (ofPos64 x.pos - ofPos64 0) * ofVel64 1 ∧ x.dir = 0)
       ∧ ¬ ((0 ≤ x.dir ∧ x.prev < x.pos ∧ x.pos ≤ 0) ∨ (x.dir ≤ 0 ∧ x.pos < x.prev ∧ 0 ≤ x.pos)))
    ∧ ((∀ e ∈ s.wm.run.chans, e.2.src = 7 → e.2.inst ≠ 0)) := by
  intro s
  refine ⟨fun n args hn ha => servo_axis_served _ _ _ _ _ hn rfl ha, axis0_all _ _ (fun a => ∀ m : Fin 4, (a.compares[m]).armed = false
    ∧ (a.compares[m]).setting = none) (by decide) (by decide), ⟨{ sched := some (100, false), armed := true, left := some 1, cfg := { output := 55 } }, rfl, rfl, rfl, rfl⟩, by decide +kernel⟩

/-! ### A configuration of Tollgate -/

/-- One record of an `SF` parameter with its default; a reset input is named. -/
def sfRecord (x : Nat × PDef) : List Byte :=
  leBytes 1 4 ++ zeros 3 ++ leBytes 2 x.1 ++ leBytes 2 x.2.width ++ leBytes x.2.width (if x.1 = 0 then 0 else x.2.dfltAt x.1)
    ++ zeros ((x.2.width + 3) / 4 * 4 - x.2.width)

/-- A configuration of Tollgate in which nothing is used. -/
def sfBytes : List Byte := sfOrder.flatMap sfRecord


theorem sfBytes_length : sfBytes.length = 9596 := by decide +kernel

theorem sfBytes_content : (sfContent sfBytes).isOk = true := by decide +kernel

theorem leNat_leBytes (k n : Nat) (h : n < 256 ^ k) : leNat (leBytes k n) = n := by
  induction k generalizing n with
  | zero => simp at h; simp [leBytes, leNat, h]
  | succ k ih =>
    have : n / 256 < 256 ^ k := by rw [Nat.pow_succ] at h; omega
    simp only [leBytes, leNat, ih _ this, BitVec.toNat_ofNat]
    omega

theorem leBytes_length (k n : Nat) : (leBytes k n).length = k := by
  induction k generalizing n with
  | zero => rfl
  | succ k ih => simp [leBytes, ih]

/-- A field is the one that stands between what precedes and what follows it. -/
theorem field_between (a b c : List Byte) (o k : Nat) (ha : a.length = o) (hb : b.length = k) : field (a ++ (b ++ c)) o k = leNat b := by
  subst ha hb
  simp [field]

/-- The header of an image of that configuration up to `content_crc`, as loaded and as sealed. -/
def imgStart (state seq serial : Nat) : List Byte :=
  leBytes 4 0x46434754 ++ leBytes 2 1 ++ leBytes 2 state ++ leBytes 4 1 ++ leBytes 4 9596 ++ leBytes 4 seq ++ zeros 4 ++ leBytes 8 serial
    ++ zeros 8

def imgEnd (start : List Byte) (seal_ : Nat) : List Byte :=
  start ++ (leBytes 4 (crc32c sfBytes).toNat ++ (leBytes 4 seal_ ++ (zeros 16 ++ sfBytes)))

def loaded : List Byte := imgEnd (imgStart 0 0 0) 0

/-- The same image as sealed for this device. -/
def sealed : List Byte :=
  let h := imgStart 1 1 Config.serial.toNat
  imgEnd h (crc32c ((h ++ leBytes 4 (crc32c sfBytes).toNat) ++ sfBytes)).toNat

theorem image_fields (state seq serial seal_ : Nat) (hs : serial < 2 ^ 64) (hc : seal_ < 2 ^ 32) :
    let h := imgStart state seq serial
    u32 (imgEnd h seal_) 40 = (crc32c sfBytes).toNat ∧ u32 (imgEnd h seal_) 44 = seal_ ∧ u64 (imgEnd h seal_) 24 = serial
    ∧ (imgEnd h seal_).take 44 = h ++ leBytes 4 (crc32c sfBytes).toNat ∧ (imgEnd h seal_).drop 64 = sfBytes
    ∧ (imgEnd h seal_).length = 9660 := by
  intro h
  have hl : h.length = 40 := by simp [h, imgStart, leBytes_length, zeros]
  have hb : (leBytes 4 (crc32c sfBytes).toNat).length = 4 := leBytes_length ..
  refine ⟨?_, ?_, ?_, ?_, ?_, ?_⟩
  · rw [imgEnd, u32, field_between _ _ _ _ _ hl hb, leNat_leBytes _ _ (crc32c sfBytes).isLt]
  · rw [imgEnd, ← List.append_assoc, u32, field_between _ _ _ _ _ (by simp [hl, hb]) (leBytes_length ..), leNat_leBytes _ _ hc]
  · have : imgEnd h seal_ = (leBytes 4 0x46434754 ++ leBytes 2 1 ++ leBytes 2 state ++ leBytes 4 1 ++ leBytes 4 9596 ++ leBytes 4 seq
        ++ zeros 4) ++ (leBytes 8 serial ++ (zeros 8 ++ (leBytes 4 (crc32c sfBytes).toNat ++ (leBytes 4 seal_ ++ (zeros 16 ++ sfBytes))))) := by
      simp only [imgEnd, h, imgStart, List.append_assoc]
    rw [this, u64, field_between _ _ _ _ _ (by simp [leBytes_length, zeros]) (leBytes_length ..), leNat_leBytes _ _ hs]
  · rw [imgEnd, ← List.append_assoc, List.take_left' (by simp [hl, hb])]
  · have : imgEnd h seal_ = (h ++ leBytes 4 (crc32c sfBytes).toNat ++ leBytes 4 seal_ ++ zeros 16) ++ sfBytes := by
      simp only [imgEnd, List.append_assoc]
    rw [this, List.drop_left' (by simp [hl, hb, leBytes_length, zeros])]
  · simp [imgEnd, hl, hb, leBytes_length, zeros, sfBytes_length]

theorem sfBytes_values : ∃ v, sfContent sfBytes = .ok v := by
  have h := sfBytes_content
  revert h
  cases sfContent sfBytes with
  | ok v => exact fun _ => ⟨v, rfl⟩
  | error e => exact fun h => by cases h

theorem loaded_checked : ∃ v, checkLoaded loaded = .ok v := by
  obtain ⟨v, hv⟩ := sfBytes_values
  obtain ⟨h40, h44, h24, _, hd, hn⟩ := image_fields 0 0 0 0 (by decide) (by decide)
  have hw : u32 loaded 12 = 9596 := by decide +kernel
  have hc : imgContent loaded = sfBytes := by 
    rw [imgContent, hw, show loaded.drop 64 = sfBytes from hd, List.take_of_length_le (by simp [sfBytes_length])]
  have hh : imgHeader loaded = true := by
    simp only [imgHeader, hw, show loaded.length = 9660 from hn]
    decide +kernel
  refine ⟨v, ?_⟩
  rw [checkLoaded, hc, hw, hh, if_neg (by rw [show u32 loaded 40 = _ from h40]; exact fun h => h rfl), if_neg, hv]
  rw [show loaded.length = 9660 from hn, show u32 loaded 44 = 0 from h44, show u64 loaded 24 = 0 from h24]
  decide +kernel

theorem sealed_accepted (copy : Fin 2) : (imgMagic sealed = true ∧ u16 sealed 6 = 1 ∧ u64 sealed 24 = Config.serial.toNat
    ∧ u32 sealed 40 = (crc32c (imgContent sealed)).toNat ∧ u32 sealed 44 = imgSeal sealed) ∧ ∃ g, acceptImage sealed copy = .ok g := by
  obtain ⟨v, hv⟩ := sfBytes_values
  obtain ⟨h40, h44, h24, ht, hd, hn⟩ := image_fields 1 1 Config.serial.toNat
    (crc32c ((imgStart 1 1 Config.serial.toNat ++ leBytes 4 (crc32c sfBytes).toNat) ++ sfBytes)).toNat Config.serial.isLt (BitVec.isLt _)
  have hw : u32 sealed 12 = 9596 := by decide +kernel
  have hc : imgContent sealed = sfBytes := by
    rw [imgContent, hw, show sealed.drop 64 = sfBytes from hd, List.take_of_length_le (by simp [sfBytes_length])]
  have hh : imgMagic sealed = true := by
    simp only [imgMagic, show sealed.length = 9660 from hn]
    decide +kernel
  have hs : imgSeal sealed = u32 sealed 44 := by
    rw [imgSeal, hc, show sealed.take 44 = _ from ht, show u32 sealed 44 = _ from h44]
  have h6 : u16 sealed 6 = 1 := by decide +kernel
  refine ⟨⟨hh, h6, h24, by rw [hc]; exact h40, hs.symm⟩, { id := u32 sealed 8, seq := u32 sealed 16, copy := copy, values := v }, ?_⟩
  rw [acceptImage, hc, hs, hh, h6, if_neg (by rw [show u32 sealed 40 = _ from h40]; simp), if_neg (fun h => h h24), hv]

/-! ### Witnesses: Tollgate and time -/

/-- `s` with a Tollgate as given, whose configuration holds these `SF` values. -/
def guarded (s : State) (l : List (PDef × Nat × Nat)) (f : Tollgate → Tollgate) : State :=
  let vs := l.foldl (fun vs x => assocSet vs (pkey .sf 0 (x.1.idx + x.1.stride * x.2.1)) x.2.2) []
  { s with tg := f { s.tg with st := .run, cfg := some { id := 1, seq := 1, copy := 0, values := vs } } }

/-- Port 0 used, an emergency stop on inputs 0 and 1 that stops it, an unlocking device, and an output. -/
def stops : List (PDef × Nat × Nat) :=
  [(P.sfPortsused, 0, 1), (P.sfResetin, 0, 31), (P.sfFnType, 0, 1), (P.sfFnIn, 0, 0xFFFF0100), (P.sfFnPorts, 0, 1), (P.sfFnSo, 0, 1),
    (P.sfSoMode, 0, 1), (P.sfFnType, 1, 3), (P.sfFnIn, 1, 0xFF040302), (P.sfFnType, 2, 4), (P.sfFnIn, 2, 0xFFFF0605),
    (P.sfPtBrake, 0, 1), (P.sfSiTpo, 0, 0), (P.sfPtSs1stand, 1, 1)]

/-- A running Tollgate whose port is used, one that has halted and one before its self-test; a function with one channel gone and one that
is back; a port whose taps show standstill. -/
theorem witness_TollgateCycle :
    State.reset.tg.st = .selftest
    ∧ (let s := guarded State.reset stops fun t => { t with si := 3#32, ports := upd t.ports 0 fun x => { x with st := .permit } }
       s.tg.cfg.isSome = true ∧ s.dbg.lifecycle ≠ 0x40 ∧ s.tg.st = .run ∧ s.tg.watchdog = false ∧ bit (s.sf P.sfPortsused) 0 = true
       ∧ (s.tg.ports[(0 : Fin 64)]).st = .permit ∧ s.sf P.sfSoMode 0 = 1 ∧ s.sf P.sfSoMode 1 = 0 ∧ s.sf P.sfOteso ≠ 0
       ∧ s.sf P.sfFnType 0 = 1 ∧ bit (s.sf P.sfFnSo 0) 0 = true ∧ s.fnChan 0 = (true, true) ∧ s.fnInputBad 0 = false
       ∧ (guarded State.reset stops fun t => { t with si := 1#32 }).fnChan 0 = (true, false)
       ∧ bit (s.sf P.sfFnPorts 0) 0 = true ∧ s.sf P.sfFnStop 0 = 0 ∧ s.sf P.sfPtSs1time 0 ≠ 0 ∧ 0 < s.sf P.sfPtSs1stand 1
       ∧ (∀ g : Fin 16, (s.tg.fns[g]).st = .clear))
    ∧ (let x : TgPort := { taps := List.replicate 41 5 }
       41 ≤ x.taps.length ∧ (x.taps.all fun a => x.taps.all fun b => decide (a - b ≤ 1)) = true ∧ x.brkBad = false ∧ x.genRun = 0)
    ∧ (∃ x : TgFn, x.need = true ∧ x.together = true) := by
  refine ⟨by decide +kernel, by decide +kernel, by decide +kernel, ⟨{ need := true, together := true }, rfl, rfl⟩⟩

/-- The reset input at the bounds of a press; a test pulse that is missing and one that shows a cross circuit; each timer that is due. -/
theorem witness_TollgateEvents :
    (let s := guarded State.reset (stops ++ [(P.sfFnType, 2, 0)]) fun t => { t with clk := 800000000, reset := { press := some (0, true) } }
     s.tg.st = .run ∧ s.dbg.lifecycle ≠ 0x40 ∧ s.resetIdx = 31 ∧ (∀ g : Fin 16, s.sf P.sfFnType g.val ≠ 4 ∧ s.sf P.sfFnType g.val ≠ 5)
     ∧ s.sf P.sfSiTpo 31 = 0xFF ∧ 0 + 40000000 ≤ (40000000 : Nat) ∧ ¬ 0 + 40000000 ≤ (39999999 : Nat) ∧ s.tg.clk ≤ 0 + 2000000000)
    ∧ (let s := guarded State.reset stops fun t => { t with si := 1#32, tpoWin := 2#8 }
       s.sf P.sfFnType 2 = 4 ∧ s.tg.tpoWin.getLsbD 1 = true ∧ s.tg.tpoWin.getLsbD 0 = false ∧ s.sf P.sfSiTpo 0 = 0
       ∧ s.tg.si.getLsbD 0 = true ∧ s.tg.crossBad.getLsbD 0 = false ∧ s.resetIdx ≠ 0
       ∧ 0 ∈ fnInputs ((s.tg.cfg.map (·.values)).getD []) 0 ∧ s.fnDiffers 0 = true ∧ (s.tg.fns[(0 : Fin 16)]).st ≠ .fault
       ∧ s.sf P.sfFnType 1 = 3 ∧ s.fnIn 1 2 = some false ∧ s.sf P.sfPtBrake 0 = 1)
    ∧ (∃ x : TgFn, x.unlocking = true ∧ x.fbWait = true) ∧ (∃ x : TgPort, x.brkWait = true ∧ x.st = .ss1)
    ∧ (∃ x : TgSo, x.edmWait = true ∧ x.on = true) ∧ (∃ r : ResetIn, r.press.isSome = true ∧ r.stuck = false)
    ∧ ({ idle := some 0 } : ResetIn).idle = some 0 ∧ (guarded State.reset stops fun t => { t with st := .safeHalt }).tg.st = .safeHalt := by
  refine ⟨by decide +kernel, by decide +kernel, ⟨{ unlocking := true, fbWait := true }, rfl, rfl⟩, ⟨{ brkWait := true, st := .ss1 }, rfl, rfl⟩,
    ⟨{ edmWait := true, on := true }, rfl, rfl⟩, ⟨{ press := some (0, true) }, rfl, rfl⟩, rfl, by decide +kernel⟩

/-- Each timer of Tollgate at and short of its time; a test pulse inside its window and outside it; in recovery nothing is active. -/
theorem witness_TollgateEvents_times :
    let s := guarded State.reset (stops ++ [(P.sfBtinterval, 0, 1)]) id
    let past (t0 n clk : Nat) : Bool := decide (t0 + n * 400000 ≤ clk)
    let per := s.sf P.sfTpoper * 400000
    let inside (clk n : Nat) : Bool := decide ((clk + per - n * per / 8) % per < (s.sf P.sfTpowidth + 50) * 400)
    s.boot.recovery = false ∧ past 0 1 400000 = true ∧ past 0 1 399999 = false ∧ past 0 10 4000000 = true
    ∧ past 0 (s.sf P.sfPtSs1time 0) 400000000 = true ∧ past 0 (s.sf P.sfPtSs1time 0) 399999999 = false
    ∧ (0 + s.sf P.sfFnDisc 0 * 400000 < 80000001 ∧ ¬ 0 + s.sf P.sfFnDisc 0 * 400000 < 80000000)
    ∧ past 0 (s.sf P.sfFnLockdly 1) 400000000 = true ∧ past 0 1000 400000000 = true ∧ past 0 1000 399999999 = false
    ∧ past 0 (s.sf P.sfPtBrkfbt 0) 80000000 = true ∧ past 0 (s.sf P.sfEdmtime) 40000000 = true ∧ past 0 5000 1999999999 = false
    ∧ past 0 5000 2000000000 = true ∧ past 0 (s.sf P.sfBtinterval * 3600000) 1440000000000 = true
    ∧ past 0 (s.sf P.sfPtBttime 0) 400000000 = true ∧ past 0 100 39999999 = false
    ∧ inside 0 0 = true ∧ inside 99999 0 = true ∧ inside 100000 0 = false ∧ inside 500000 1 = true ∧ inside 499999 1 = false := by
  decide +kernel

/-- The image accepted, checked and refused; a load in one chunk and in two, at the bounds of its size; a confirmation with nothing
pending and with the image, at the bounds of its time; one that waits for the press and one whose image is being written. -/
theorem witness_TollgateConfiguration :
    (∀ k : Fin 2, ∃ g, acceptImage sealed k = .ok g) ∧ (∃ v, checkLoaded loaded = .ok v)
    ∧ (∀ n args, n < 65536 → axisOk n 0xFFFF = true → Served (packet n args) n (guarded up [] id))
    ∧ (∃ t : Tollgate, t.pending = some loaded ∧ t.st = .waitCfg ∧ t.load = some (8, zeros 4) ∧ t.gen = 0)
    ∧ (∃ t : Tollgate, t.checking = [(loaded, some (up.refOf (packet 0x0802 [])))] ∧ t.st = .confirming
        ∧ t.confirm = some { ref := none, image := some sealed } ∧ t.cfg = none)
    ∧ acceptImage [] 0 = .error 1
    ∧ (let s := guarded up [] fun t => { t with st := .waitCfg }
       s.tg.st = .waitCfg ∧ s.boot.bywayUp = true ∧ s.boot.coldBoot = true ∧ s.boot.inReset = false)
    ∧ axisOk 0x0802 0xFFFF = true ∧ axisOk 0x0803 0xFFFF = true
    ∧ (let data := zeros 4072
       4 ≤ data.length ∧ data.length ≤ 4072 ∧ 0 + data.length ≤ 4072 ∧ 64 ≤ 65536 ∧ 65536 % 4 = 0 ∧ data.length % 4 = 0)
    ∧ (guarded up [] id).tg.st = .run ∧ (guarded up [] id).tg.pending = none ∧ (guarded up [] id).tg.gen = 0 ∧ u32 loaded 8 = 1 :=
  ⟨fun k => (sealed_accepted k).2, loaded_checked, fun n args hn ha => served_of _ n args _ hn rfl rfl ⟨rfl, rfl⟩ up_settled ha, ⟨{ pending := some loaded, st := .waitCfg, load := some (8, zeros 4) }, rfl, rfl, rfl, rfl⟩, ⟨{ checking := [(loaded, some (up.refOf (packet 0x0802 [])))], st := .confirming, confirm := some { ref := none, image := some sealed } },
      rfl, rfl, rfl, rfl⟩, rfl, by decide +kernel⟩

/-- A brake on a port that is used, with and without a test; every phase of a test; the current of the mean at and below nine tenths;
displacements at and beyond the limit. -/
theorem witness_BrakesAndStatus :
    (∀ n args axis, n < 65536 → axisOk n axis.toNat = true → Served (packet n args axis) n (guarded (servo []) stops id))
    ∧ axisOk 0x0801 0xFFFF = true ∧ axisOk 0x0804 0 = true
    ∧ (let s := guarded (inState .enabledIdle) (stops ++ [(P.sfBtinterval, 0, 1)]) fun t => { t with gen := 1#64 }
       s.tg.cfg.isSome = true ∧ s.tg.st = .run ∧ s.dbg.lifecycle ≠ 0x40 ∧ s.sf P.sfPtBrake 0 = 1 ∧ s.sf P.sfPtBrake 1 = 0
       ∧ s.tg.gen.getLsbD 0 = true ∧ (s.tg.ports[(0 : Fin 64)]).test = none ∧ s.sf P.sfBtinterval ≠ 0 ∧ s.boot.inReset = false
       ∧ s.portOf 0 = some 0 ∧ s.portOf 1 = none ∧ (s.axes[(0 : Fin 512)]).st = .enabledIdle ∧ (s.tg.ports[(0 : Fin 64)]).st ≠ .lockout
       ∧ fpToRat (BitVec.ofNat 32 (s.sf P.sfPtBtcur 0)) ≤ s.axF P.axIlimpos 0
       ∧ fpToRat (BitVec.ofNat 32 (s.sf P.sfPtBtcur 0)) ≤ s.axF P.axIlimneg 0
       ∧ ¬ fpToRat (ratToFp 1000) ≤ s.axF P.axIlimpos 0
       ∧ fpToRat (0#32) < mkRat 9 10 * fpToRat (BitVec.ofNat 32 (s.sf P.sfPtBtcur 0))
       ∧ ¬ fpToRat (ratToFp 1) < mkRat 9 10 * fpToRat (BitVec.ofNat 32 (s.sf P.sfPtBtcur 0))
       ∧ Int.natAbs (100 - 0) ≤ s.sf P.sfPtBtposmax 0 ∧ s.sf P.sfPtBtposmax 0 < Int.natAbs (101 - 0)
       ∧ s.axisOf 0 = some 0 ∧ s.tg.lastChange < 2 ^ 64 ∧ s.tg.cycles < 2 ^ 32
       ∧ ((s.tg.brkfb.getLsbD 0 = true ↔ s.sf P.sfPtBrkfbpol 0 = 0) ↔ s.tg.brk.getLsbD 0 = true)
       ∧ ¬ ((({ s with tg := { s.tg with brkfb := 1#64 } } : State).tg.brkfb.getLsbD 0 = true ↔ s.sf P.sfPtBrkfbpol 0 = 0)
            ↔ s.tg.brk.getLsbD 0 = true))
    ∧ ({ st := .permit, test := some { ref := none, both := true, phase := .drive } } : TgPort).test
        = some { ref := none, both := true, phase := .drive } := by
  refine ⟨fun n args axis hn ha => ?_, by decide +kernel⟩
  obtain ⟨hb, hh, _⟩ := params_frame ([(P.axBindkind, 0, 1), (P.axPort, 0, 0), (P.ptKind, 0, 1)] ++ []) up
  exact served_of (guarded (servo []) stops id) n args axis hn hb hh
    (by rw [show (guarded (servo []) stops id).net = (servo []).net from rfl, servo_net]; exact ⟨rfl, rfl⟩) (servo_settled []) ha

/-- The servo in each of its states, with a slave port; offsets at and beyond the jump limit and the window; a phase change that fits;
the last of the samples that end `HOLDOVER`. -/
theorem witness_TimeServo :
    let s (v : Servo) : State :=
      { params up [(P.dvEthMode, 0, 1)] with time := { up.time with servo := v, slave := some 0, tbi := some 1, okCnt := 3, inWin := 15 } }
    (∀ v : Servo, (s v).dv P.dvEthMode 0 ≠ 0 ∧ (s v).time.slave = some 0 ∧ (s v).time.servo = v ∧ (s v).time.fine = 0)
    ∧ up.dv P.dvEthMode 0 = 0 ∧ 0 ≤ (s .locked).dv P.dvTsjump * 65536 ∧ (s .locked).dv P.dvTsjump * 65536 < 2 ^ 80
    ∧ (s .locked).dv P.dvTslockwin * 65536 < (s .locked).dv P.dvTsjump * 65536
    ∧ ¬ ((s .freeRun).time.fine + 0 < 0 ∨ 2 ^ 80 ≤ (s .freeRun).time.fine + 0) ∧ ((s .freeRun).time.fine + (-1 : Int) < 0)
    ∧ (s .holdover).time.okCnt = 3 ∧ 16 ≤ (s .locking).time.inWin + 1 ∧ (0#16).toNat ≠ 1 ∧ (0 + (1#96).toInt).natAbs = 1
    ∧ (s .locked).dv P.dvTsrole ≠ 0 ∧ (params up [(P.dvTsrole, 0, 0)]).dv P.dvTsrole = 0 := by
  intro s
  refine ⟨fun v => by cases v <;> decide +kernel, ?_⟩
  decide +kernel

/-- The absence of Sync and the limit of `HOLDOVER`, at and short of their times. -/
theorem witness_TimeServo_times :
    let lim : Rat := 3 * pow2 (signed 8 (up.dv P.dvTssynclog)) * 400000000
    lim ≤ ((37500000 - 0 : Nat) : Rat) ∧ ((37499999 - 0 : Nat) : Rat) < lim
    ∧ up.dv P.dvTsholdmax * 400000000 ≤ 24000000000 - 0 ∧ ¬ up.dv P.dvTsholdmax * 400000000 ≤ 23999999999 - 0 := by decide +kernel

/-- The empty queue in and out of reset; each mode of `TIME_STEP` at the bounds of its value; a grandmaster with a PPS input; a port in
and out of use. -/
theorem witness_LineTime :
    (∀ n args, n < 65536 → axisOk n 0xFFFF = true → Served (packet n args) n up) ∧ (∃ x : EthPort, x.tsq.length < 16)
    ∧ (∃ x : EthPort, 16 ≤ x.tsq.length) ∧ axisOk 0x0701 0xFFFF = true ∧ axisOk 0x0702 0xFFFF = true ∧ up.pending = []
    ∧ up.boot.inReset = false ∧ State.reset.pending = [] ∧ State.reset.boot.inReset = true ∧ up.time.frac < 2 ^ 16 ∧ up.time.ext < 2 ^ 24
    ∧ (let whole (d : Int) : Prop := 0 ≤ up.time.fine + d * 65536 ∧ up.time.fine + d * 65536 < 2 ^ 80
       whole (2 ^ 62) ∧ ¬ whole (-1) ∧ whole 0)
    ∧ up.time.servo = .freeRun ∧ ({ servo := .holdover, synced := true } : TimeUnit).synced = true
    ∧ (let s := { params up [(P.dvTsppsin, 0, 1), (P.dvEthMode, 0, 1), (P.dvEthUse, 0, 1)] with time := { servo := .grandmaster } }
       s.time.servo = .grandmaster ∧ s.dv P.dvTsppsin = 1 ∧ s.dv P.dvEthMode 0 ≠ 0 ∧ s.dv P.dvEthUse 0 ≠ 0 ∧ s.boot.bywayUp = true)
    ∧ (1 : Fin 4) ≠ 0 ∧ (1 : Fin 4).val / 2 = (0 : Fin 4).val / 2 :=
  ⟨fun n args hn ha => served_of up n args _ hn rfl rfl ⟨rfl, rfl⟩ up_settled ha, ⟨{}, by decide⟩, ⟨{ tsq := List.replicate 16 ⟨0, 1, 0, 0⟩ }, by decide⟩, by decide +kernel⟩

/-! ### Witnesses: Jalut, junctions and CAN -/

/-- An indexed parameter of the device at this index. -/
def nth (d : PDef) (n : Nat) : PDef := { d with idx := d.idx + d.stride * n }

def withNet (s : State) (n : Net) : State := { s with net := n }

theorem withNet_frame (s : State) (n : Net) :
    (withNet s n).boot = s.boot ∧ (withNet s n).host = s.host ∧ (withNet s n).axes = s.axes := ⟨rfl, rfl, rfl⟩

/-- Ports 0 and 1 form the ring of a member (1) or of a leader (2), with a network as given. -/
def ringed (use : Nat) (n : Net) : State :=
  withNet (params up [(P.dvEthMode, 0, 1), (P.dvEthUse, 0, use), (nth P.dvEthMode 1, 0, 1), (nth P.dvEthUse 1, 0, use)]) n

def aRing (s : State) (use : Nat) (q : Fin 2) : Bool :=
  decide (∀ f : Fin 4, f.val / 2 = q.val → s.dv P.dvEthMode f.val ≠ 0 ∧ s.dv P.dvEthUse f.val = use)

/-- A member in each of its states, at the bounds of its counts. -/
theorem witness_JalutCycles :
    (let m (st : MemberState) (ok lost : Nat) : Member := { st := st, okRun := ok, lostRun := lost, got := true }
     let s := ringed 2 { members := upd (Vector.replicate 15 {}) 0 fun _ => m .member 15 0 }
     aRing s 2 0 = true ∧ aRing s 2 1 = false ∧ aRing s 1 0 = false ∧ s.dv P.dvEthPreempt 0 ≠ 0 ∧ s.boot.bywayUp = true
     ∧ s.net.index = 0 ∧ s.net.publish = [] ∧ s.net.relay = [] ∧ (s.net.members[(0 : Fin 15)]).st = .member
     ∧ 16 ≤ (m .joining 15 0).okRun + 1 ∧ ¬ 16 ≤ (m .joining 14 0).okRun + 1 ∧ s.dv P.dvJalutloss ≤ (m .member 0 15).lostRun + 1
     ∧ ¬ s.dv P.dvJalutloss ≤ 0)
    ∧ (let s := ringed 1 { index := 1, missed := 100 }
       aRing s 1 0 = true ∧ aRing s 2 0 = false ∧ s.net.index ≠ 0 ∧ s.net.owned = [] ∧ s.net.got = false ∧ s.dv P.dvJalutloss ≤ s.net.missed
       ∧ ({ s with host := { s.host with leader := some session } } : State).host.leader.isSome = true)
    ∧ (let net := [(P.axBindkind, 0, 3), (P.axNetkind, 0, 1), (P.axNetaddr, 0, 1)]
       (params (ringed 2 {}) net).overJalut 0 = true ∧ (params (ringed 2 {}) net).netMember 0 = (0 : Fin 15).val + 1
       ∧ bits ((params (ringed 2 {}) net).ax P.axNetaddr 0) 24 16 = 0
       ∧ (allAxes.filter fun j => (params (ringed 2 {}) net).overJalut j && (params (ringed 2 {}) net).netMember j == 1) = [0]
       ∧ (allAxes.filter fun j => (params (ringed 1 {}) net).bound j) = [0])
    ∧ (∃ h : List ((Nat × Nat) × List Nat), ((h.find? fun y => y.1 == (0, 5)).map (·.2)).getD [] = [7]) :=
  ⟨by decide +kernel, by decide +kernel, by decide +kernel, ⟨[((0, 5), [7])], by decide⟩⟩

theorem ringed_served (use n : Nat) (net : Net) (args : List Byte) (hq : net.fwd = [] ∧ net.discover = []) (hn : n < 65536)
    (ha : axisOk n 0xFFFF = true) : Served (packet n args) n (ringed use net) := by
  obtain ⟨hb, hh, hx⟩ := params_frame [(P.dvEthMode, 0, 1), (P.dvEthUse, 0, use), (nth P.dvEthMode 1, 0, 1), (nth P.dvEthUse 1, 0, use)] up
  rw [ringed]
  obtain ⟨h1, h2, h3⟩ := withNet_frame
    (params up [(P.dvEthMode, 0, 1), (P.dvEthUse, 0, use), (nth P.dvEthMode 1, 0, 1), (nth P.dvEthUse 1, 0, use)]) net
  exact served_of _ n args _ hn (h1.trans hb) (h2.trans hh) hq (fun i => by rw [h3.trans hx]; exact up_settled i) ha

/-- The packets of a junction; devices found by their serial numbers, twice and not at all; a fragment that completes a packet and one
that does not. The size of the tree and the levels below a device are free values. -/
theorem witness_Junctions :
    (∀ n args use net, net.fwd = [] ∧ net.discover = [] → n < 65536 → axisOk n 0xFFFF = true →
      Served (packet n args) n (ringed use net)) ∧ axisOk 0x0703 0xFFFF = true
    ∧ axisOk 0x0706 0xFFFF = true ∧ (∀ i : Fin 512, (up.axes[i]).st = .disabled) :=
  ⟨fun n args use net hq hn ha => ringed_served use n net args hq hn ha, by decide, by decide, fun i => by simp [up, onBoot, State.reset]⟩

theorem witness_Junctions_found :
    let s := ringed 2 { found := [found 0], discover := [(up.refOf (packet 0x0706 []), 0)], form := [(up.refOf (packet 0x0706 []), [1], 0)] }
    aRing s 2 0 = true ∧ aRing s 1 0 = false ∧ aRing up 2 0 = false ∧ s.cfg.draft = none
    ∧ (let serials := 1 :: List.replicate 14 0
       serials.length = 15 ∧ (serials.filter (· != 0)).Nodup ∧ s.net.found.find? (fun g => g.serial.toNat == 1) = some (found 0)
       ∧ (found 0).enabled = false ∧ (found 0).state ≠ 1 ∧ (found 0).jalut.toNat &&& 6 = 0 ∧ (2#8).toNat &&& 6 ≠ 0)
    ∧ ¬ ([1, 1] : List Nat).Nodup ∧ s.net.found.find? (fun g => g.serial.toNat == 2) = none ∧ s.net.discover ≠ [] ∧ s.net.form ≠ []
    ∧ (s.net.members[(0 : Fin 15)]).st ≠ .member ∧ up.serving = true ∧ (0#8).toNat < (1#8).toNat
    ∧ ((0, zeros 8) :: ([] : List (Nat × List Byte))).length = (1#8).toNat ∧ (1 : Nat) ≠ (2#8).toNat ∧ up.host.leader = none := by
  decide +kernel

/-- A leader whose packets wait behind a discovery and one whose packets do not; both timers at and short of their times. -/
theorem witness_Junctions_waits :
    up.blocked .leader = false
    ∧ ({ up with net := { discover := [({ up.refOf (packet 0x0706 []) with src := .leader }, 0)] } } : State).blocked .leader = true
    ∧ 200000000 ≤ 5 * (40000000 - 0) ∧ ¬ 200000000 ≤ 5 * (39999999 - 0)
    ∧ 4000000000 ≤ 5 * (800000000 - 0) ∧ ¬ 4000000000 ≤ 5 * (799999999 - 0) := by decide +kernel

/-- A classical data frame of one byte. -/
def canFrame (id : BitVec 29) (data : List Byte) : CanFrame where
  fmt := 1
  id := id
  ide := false
  rtr := false
  brs := false
  esi := false
  sdt := 0
  vcid := 0
  af := 0
  sec := false
  data := data

def withCan (s : State) (x : Can) : State := { s with can := upd s.can 0 fun _ => x }

theorem withCan_frame (s : State) (x : Can) :
    (withCan s x).boot = s.boot ∧ (withCan s x).host = s.host ∧ (withCan s x).axes = s.axes := ⟨rfl, rfl, rfl⟩

/-- Bus 0 as given, classical, with one filter that takes identifier 5 to queue 0 and 64 bytes for it. -/
def onCan (l : List (PDef × Nat × Nat)) (x : Can) : State :=
  withCan (params up ([(P.dvCanFmt, 0, 1), (P.dvCanFilter, 0, 5 + 2 ^ 32 * (2 ^ 30 + 2 ^ 11 - 1)), (P.dvCanRxbytes, 0, 64)] ++ l)) x

theorem onCan_frame (l : List (PDef × Nat × Nat)) (x : Can) :
    (onCan l x).boot = up.boot ∧ (onCan l x).host = up.host ∧ (onCan l x).axes = up.axes := by
  obtain ⟨hb, hh, hx⟩ := params_frame
    ([(P.dvCanFmt, 0, 1), (P.dvCanFilter, 0, 5 + 2 ^ 32 * (2 ^ 30 + 2 ^ 11 - 1)), (P.dvCanRxbytes, 0, 64)] ++ l) up
  rw [onCan]
  obtain ⟨h1, h2, h3⟩ := withCan_frame
    (params up ([(P.dvCanFmt, 0, 1), (P.dvCanFilter, 0, 5 + 2 ^ 32 * (2 ^ 30 + 2 ^ 11 - 1)), (P.dvCanRxbytes, 0, 64)] ++ l)) x
  exact ⟨h1.trans hb, h2.trans hh, h3.trans hx⟩

theorem withCan_net (s : State) (x : Can) : (withCan s x).net = s.net := rfl

theorem onCan_net (l : List (PDef × Nat × Nat)) (x : Can) : (onCan l x).net = up.net := by
  rw [onCan, withCan_net]; exact params_net _ up

/-- A frame that a filter takes and one that none takes; a queue with room for it and without; each state of the node and the bounds of
its counters; rate detection; a frame of the event queue that comes first, and one of a window. -/
theorem witness_CanBus :
    (let s := onCan [] {}
     let word (k : Nat) : Nat := s.dv P.dvCanFilter 0 / 2 ^ (32 * k) % 2 ^ 32
     let hit (k id : Nat) : Bool := (word (2 * k + 1)).testBit 30 && (b2n ((word (2 * k)).testBit 29) == 0)
       && (List.range 29).all fun b => !(word (2 * k + 1)).testBit b || (id.testBit b == (word (2 * k)).testBit b)
     hit 0 5 = true ∧ ((List.range 32).all fun k => !hit k 6) = true ∧ word 0 / 2 ^ 30 = 0 ∧ (1 : Nat) ≤ s.dv P.dvCanFmt 0
     ∧ s.dv P.dvCanRxbytes 0 / 2 ^ (32 * 0) % 2 ^ 32 = 64 ∧ 0 + (24 + (1 + 3) / 4 * 4) ≤ 64 ∧ 64 < 56 + (24 + (1 + 3) / 4 * 4)
     ∧ s.mayRaise 0x0904 0 = true ∧ (canFrame 5 (zeros 1)).data.length = 1 ∧ s.dv P.dvCanTt 0 = 0 ∧ s.dv P.dvCanAbrlist 0 = 0
     ∧ ({ st := .rateDetect, good := 1, cand := 7 } : Can).cand = 7 ∧ ({ st := .recovering, runs := 127 } : Can).runs = 127
     ∧ ({ st := .errorActive, tec := 127, rec_ := 127 } : Can).tec ≤ 127)
    ∧ (let t (id : BitVec 29) : CanTx := { frame := canFrame id (zeros 1), ref := none, single := true, at_ := 0 }
       let x : Can := { st := .errorActive, queue := [t 5, t 6] }
       x.queue = [] ++ t 5 :: [t 6] ∧ (t 5).at_ ≤ (0#64).toNat ∧ canArb (t 5).frame ≤ canArb (t 6).frame ∧ x.refDue = none
         ∧ x.captured = none
       ∧ ({ x with captured := some (0, t 5), offered := true } : Can).captured = some (0, t 5) ∧ (t 5).ref = none
       ∧ 127 < 120 + 8 ∧ 255 < 248 + 8)
    ∧ ¬ 2 ≤ (canFrame 5 (zeros 1)).fmt.val := ⟨by decide +kernel, by decide +kernel, by decide⟩

/-- A controller that does not wait for bus idle; a rate kept for 100 ms and one that is not; a data phase with delay compensation, at and
beyond the greatest delay. -/
theorem witness_CanBus_times :
    ({} : Can).waitIdle = false ∧ (1 : Fin 4) ≠ 0 ∧ 200000000 ≤ 5 * (40000000 - 0) ∧ ¬ 200000000 ≤ 5 * (39999999 - 0)
    ∧ (let s := onCan [(P.dvCanFmt, 0, 2)] {}
       let f := { canFrame 5 [] with fmt := 2, brs := true }
       let tq := (s.canTd 0 f.fmt.val).tBit / (s.canTd 0 f.fmt.val).quanta
       (s.canTd 0 f.fmt.val).tdc = true ∧ f.fmt = 2 ∧ f.brs = true ∧ 127 * tq < (2541#16).toNat ∧ ¬ 127 * tq < (2540#16).toNat) := by
  decide +kernel

/-- A reference message missing, a slot to capture, a mark and the end of a window, at and short of their instants. -/
theorem witness_CanSchedule_times :
    let s := onCan [(P.dvCanTt, 0, 1), (P.dvCanSm, 0, 100 + 2 ^ 25 * 1)] { st := .errorActive, running := true }
    let x := s.can[(0 : Fin 4)]
    let cycleNs := 1000 * s.dv P.dvCanBcycle 0
    let winNs := 1000 * s.dv P.dvCanTxenwin 0
    x.mark + cycleNs + winNs = 1002000 ∧ x.mark + 100 * 1000 ≤ 90000 + 10000 ∧ ¬ x.mark + 100 * 1000 ≤ 89999 + 10000
    ∧ x.mark + 100 * 1000 + winNs = 102000 ∧ x.window = none ∧ x.follow = false ∧ x.refDue = none := by decide +kernel

/-- A schedule of one entry that sends slot 0; a master and a slave that runs; a reference message at the bounds of its fields; a window
with and without its content. -/
theorem witness_CanSchedule :
    (let entry := 100 + 2 ^ 25 * 1
     let s := onCan [(P.dvCanTt, 0, 1), (P.dvCanSm, 0, entry), (P.dvCanRefid, 0, 8)] { st := .errorActive, running := true }
     let t : CanTx := { frame := canFrame 5 (zeros 1), ref := none, single := false, at_ := 0 }
     s.dv P.dvCanTt 0 = 1 ∧ (s.canMatrix 0)[(0 : Fin 64).val]? = some ⟨100, 0, 0, 1, 0⟩ ∧ (s.canMatrix 0)[(1 : Fin 64).val]? = none
     ∧ (s.can[(0 : Fin 4)]).running = true ∧ (s.can[(0 : Fin 4)]).gap = false ∧ (s.can[(0 : Fin 4)]).st = .errorActive
     ∧ (s.can[(0 : Fin 4)]).follow = false ∧ 0 % 2 ^ 0 = 0 ∧ (0 : Nat) < 32
     ∧ (s.can[(0 : Fin 4)]).missedAt = none
     ∧ ({ captured := some (0, t), missedAt := some 0 } : Can).captured = some (0, t) ∧ s.now < 0 + 100000000
     ∧ (15#29).toNat % 2 ^ 11 / 8 = s.dv P.dvCanRefid 0 % 2 ^ 11 / 8
     ∧ (leBytes 1 (63 + 128 * b2n true) ++ zeros 1 ++ leBytes 2 65535).length = 4
     ∧ (onCan [(P.dvCanTt, 0, 2)] {}).dv P.dvCanTt 0 = 2 ∧ (onCan [(P.dvCanTt, 0, 2)] {}).overCan 0 = false)
    ∧ (∀ i : Fin 512, (onCan [] {}).axes[i] = {})
    ∧ (let n := onCan [(P.axBindkind, 0, 3), (P.axNetkind, 0, 2)] {}
       n.overCan 0 = true ∧ n.ax P.axNetaddr 0 % 4 = 0 ∧ n.ax P.axNetaddr 0 / 4 % 32 = 0) := by
  refine ⟨by decide +kernel, fun i => ?_, by decide +kernel⟩
  rw [(onCan_frame [] {}).2.2]
  simp [up, onBoot, State.reset]

/-- The two commands on a bus that sends; each length that the formats allow; a queue that is full; an entry that is acknowledged. -/
theorem witness_CanPackets :
    (∀ n args l x, n < 65536 → axisOk n 0xFFFF = true → Served (packet n args) n (onCan l x)) ∧ axisOk 0x0704 0xFFFF = true
    ∧ axisOk 0x0705 0xFFFF = true
    ∧ (let s := onCan [(P.dvCanSlot, 0, 2 ^ 30 + 5 + 2 ^ 32 * 8)] { st := .errorActive }
       let g := s.canWord P.dvCanSlot 0 (2 * (0 : Fin 32).val)
       let h := s.canWord P.dvCanSlot 0 (2 * (0 : Fin 32).val + 1)
       g / 2 ^ 30 = 1 ∧ g % 2 ^ 29 = 5 ∧ g.testBit 29 = false ∧ 8 ≤ h % 2 ^ 12 ∧ ¬ 9 ≤ h % 2 ^ 12 ∧ (s.can[(0 : Fin 4)]).queue.length < 64
       ∧ (s.can[(0 : Fin 4)]).slots[(0 : Fin 32)] = none ∧ 1 ≤ s.dv P.dvCanFmt 0 ∧ (5 : Nat) < 2 ^ 11
       ∧ s.dv P.dvCanRxbytes 0 / 2 ^ (32 * 0) % 2 ^ 32 ≠ 0 ∧ s.dv P.dvCanRxbytes 0 / 2 ^ (32 * 1) % 2 ^ 32 = 0
       ∧ (zeros 8).length = (8 + 3) / 4 * 4
       ∧ ([(7, zeros 28), (8, zeros 28)] : List (Nat × List Byte)) = [] ++ (7, zeros 28) :: [(8, zeros 28)])
    ∧ (∃ x : Can, 64 ≤ x.queue.length) := by
  refine ⟨fun n args l x hn ha => ?_, by decide, by decide, by decide +kernel,
    ⟨{ queue := List.replicate 64 { frame := canFrame 5 [], ref := none, single := false, at_ := 0 } }, by decide⟩⟩
  obtain ⟨hb, hh, hx⟩ := onCan_frame l x
  exact served_of (onCan l x) n args _ hn hb hh (by rw [onCan_net]; exact ⟨rfl, rfl⟩) (fun i => by rw [hx]; exact up_settled i) ha

/-! ### Witnesses: Crossroads, debug, Waymark, faults, firmware and programs -/

/-- Crossroads with one byte, with a relocation before and after its copy, and with a retired bank; an offset in that bank. -/
theorem witness_CrossroadsWords :
    let r : Relocation := { bank := 5, t0 := 0, written := [5] }
    let x : Xr := { State.reset.xr with mem := [(40, 1#8)], reloc := some r }
    (({ x with mem := [] } : Xr).mem.wf = true ∧ ∀ n, ({ x with mem := [] } : Xr).mem.read n = 0)
    ∧ x.mem.wf = true ∧ x.retired = none ∧ x.reloc = some r ∧ r.bank = (5 : Fin 64).val ∧ r.copied = false ∧ 0x275BFFC + 4 ≤ 0x275C000
    ∧ 40 / 8 % 64 = 5 ∧ 48 / 8 % 64 ≠ 5 ∧ ({ x with reloc := none } : Xr).reloc = none
    ∧ ({ r with written := [] } : Relocation).written = []
    ∧ ({ x with retired := some 5, reloc := none } : Xr).retired = some 5 :=
  ⟨⟨by decide, fun _ => rfl⟩, by decide +kernel⟩

/-- Crossroads with one region of engine 0 and of DMA read master 4, at its bounds. -/
def regioned (bad : List Nat) : State :=
  let g : Vector (BitVec 64) 16 := upd (Vector.replicate 16 0) 0 fun _ => 7#64
  { up with xr := { up.xr with bad := bad, regions := (up.xr.regions.set 0 g).set 36 g } }

def grants (s : State) (m : Fin 42) (a : Nat) : Bool :=
  decide (a + 8 ≤ 0x275C000) && decide (∃ k : Fin 16, let g := ((s.xr.regions[m])[k]).toNat
    g.testBit 0 = true ∧ g.testBit 1 = true ∧ g.testBit 2 = true ∧ g % 2 ^ 32 / 4096 * 4096 ≤ a ∧ a + 8 ≤ (g / 2 ^ 32 / 4096 + 1) * 4096)

/-- Accesses inside a region, at its end and outside it; clean and lost words; bytes that both ports write alike and differently; a third
upset of a bank; a scrubbed word. -/
theorem witness_CrossroadsAccess :
    (let s := regioned []
     grants s 0 4088 = true ∧ grants s 0 4096 = false ∧ grants s 36 0 = true ∧ grants s 1 0 = false
     ∧ s.engineAxis 0 = none ∧ s.xr.bad = [] ∧ s.xr.writeBack = [] ∧ s.xr.weakWords = [] ∧ s.wordOwner 0 = none
     ∧ (s.upset .bank 0).2 = false ∧ s.mayRaise 0x0A01 0 = true ∧ s.mayRaise 0x0A04 36 = true ∧ s.xr.retired = none ∧ s.xr.reloc = none
     ∧ (((s.upset .bank 0).1.upset .bank 0).1.upset .bank 0).2 = true ∧ 0 ∈ (regioned [0]).xr.bad)
    ∧ (∃ s : State, s.engineAxis 0 = some 0)
    ∧ (∃ k < 8, (0xFF#8).getLsbD k = true ∧ (1#64).extractLsb' (8 * k) 8 ≠ (0#64).extractLsb' (8 * k) 8)
    ∧ (0x2800000#26).toNat / 8 * 8 = 0x2800000 ∧ ({ bank := 5, t0 := 0, copied := true } : Relocation).copied = true := by
  refine ⟨by decide +kernel, ⟨onEngine running, by decide +kernel⟩, ⟨0, by decide, by decide, by decide⟩, by decide, rfl⟩

/-- A master without a region, beside one with it. -/
theorem witness_RefusedWrites : grants (regioned []) 0 0 = true ∧ grants (regioned []) 36 0 = true ∧ grants (regioned []) 1 0 = false
    ∧ grants (regioned []) 37 0 = false ∧ (regioned []).xr.bad = [] := by decide +kernel

/-- Each level of debug, a nonce that is valid, a policy that allows a level; an engine without ports and with one; the ends of its
memories and of Crossroads. What the key and the signature check answer are free values. -/
theorem witness_DebugAccess :
    (∀ args, Served (packet 0x0C01 args) 0x0C01 up ∧ Served (packet 0x0C02 args) 0x0C02 up)
    ∧ (∃ k < 1, 0x900000 ≤ (0x900000#26).toNat + k ∧ (0x900000#26).toNat + k < 0x910000)
    ∧ (let d : Debug := { lifecycle := 0x30, policy := 0x83, nonceValid := true, nonceTime := 0, level := 2 }
       d.policy ≠ 0 ∧ d.policy / 2 ^ (8 * 0 + 7) % 2 = 1 ∧ 3 ≤ d.policy / 2 ^ (8 * 0) % 4 ∧ up.now ≤ d.nonceTime + 60000000000
       ∧ ¬ ({ policy := 0 } : Debug).policy ≠ 0 ∧ d.revoked.getLsbD 0 = false ∧ ({ lifecycle := 0x10 } : Debug).lifecycle = 0x10)
    ∧ ((1 : Nat) ≤ 15 ∧ (63 : Nat) ≤ 63 ∧ (191 : Nat) ≤ 191 ∧ (zeros 96).length = 96) ∧ up.portsOwned 0 = []
    ∧ (loop [] {}).portsOwned 0 = [0] ∧ ((loop [] {}).eng[(0 : Fin 24)]).halted = false
    ∧ (let x : Engine := { running with halted := true, waiting := [] }
       x.halted = true ∧ x.run.isSome = true ∧ x.waiting = [] ∧ x.plm.wf = true)
    ∧ (0xFFFF#18).toNat + (1#12).toNat ≤ 0x10000 ∧ (0x27FFFFF#26).toNat + (1#12).toNat ≤ 0x2800000 ∧ (0x910000#26).toNat + 8 ≤ 0x275C000
    ∧ up.xr.bad = [] := by
  refine ⟨fun args => ⟨served_of up _ args _ (by decide) rfl rfl ⟨rfl, rfl⟩ up_settled (by decide), served_of up _ args _ (by decide) rfl rfl ⟨rfl, rfl⟩ up_settled
    (by decide)⟩, ⟨0, by decide, by decide, by decide⟩, by decide +kernel⟩

/-- A run of Waymark with a probe on channel 0 and a bus on channel 1, as given. -/
def traced (f : Wm → Wm) : State :=
  { params up [(P.dvWmBufbytes, 0, 65536)] with wm := f { State.reset.wm with
      st := .running, run := { chans := [(0, ⟨4, 0, 0, 0⟩), (1, ⟨3, 0, 0, 0⟩)] }, base := some 0 } }

/-- Samples in time, a FIFO that is full, an edge that triggers; a record for a buffer with room and for one that is full; the bounds of
a post-trigger count, of a gap and of a stop. -/
theorem witness_WaymarkRecords :
    let s := traced id
    let item := WmItem.record 0 1 0 0 1
    (assocGet? s.wm.run.chans (0 : Fin 1024).val = some ⟨4, 0, 0, 0⟩ ∧ assocGet? s.wm.run.chans (1 : Fin 1024).val = some ⟨3, 0, 0, 0⟩
     ∧ assocGet? s.wm.run.chans (2 : Fin 1024).val = none ∧ s.wm.st = .running ∧ 2 * s.wm.start ≤ 5 * (0#64).toNat ∧ s.wm.stopAt = none
     ∧ s.wm.fifo.length < 1024 ∧ s.wm.gapIn = none ∧ s.wm.run.trig ≠ 1 ∧ (∀ k : Fin 8, (s.wm.run.masks[k]).xkind = 0)
     ∧ s.dv P.dvWmBufbytes / 16 = 4096 ∧ s.wm.run.mode = 0 ∧ s.wm.buf.length < 4096 ∧ s.wm.stepped = false ∧ s.wm.gap = none
     ∧ s.wm.base = some 0 ∧ -(2 ^ 31) ≤ ((0 : Nat) : Int) - (0 * 2 / 5 : Nat) ∧ s.mayRaise 0xE006 5 = true)
    ∧ 1024 ≤ (List.replicate 1024 item).length
    ∧ (let t := traced fun w => { w with run := { w.run with trig := 1, cond := 4 } }
       t.wm.run.trig = 1 ∧ t.wm.run.trigChan = (0 : Fin 1024).val ∧ t.wm.run.cond = 4 ∧ b2n (t.probes[(0 : Fin 32)]).level = 0
         ∧ t.wm.trigged = false)
    ∧ (traced fun w => { w with fifo := [item] }).wm.fifo = item :: []
    ∧ (let w : Wm := { State.reset.wm with st := .post, postCount := some 3, run := { mode := 1, notify := 1, nPost := 4 } }
       w.st = .post ∧ w.postCount = some 3 ∧ w.run.nPost ≤ 3 + 1 ∧ ¬ w.run.nPost ≤ 2 + 1 ∧ w.run.mode = 1 ∧ w.run.notify = w.buf.length + 1)
    ∧ (let g : WmGap := ⟨1, 0, 0⟩
       (traced fun w => { w with gap := some g, stopAt := some 5 }).wm.gap = some g ∧ g.n < 2 ^ 32
         ∧ ((g.last - g.first) * 5 / 2 + 999) / 1000 < 2 ^ 32)
    ∧ ((traced id).noteRaise 0xE006 5).mayRaise 0xE006 5 = false := by
  refine ⟨by decide +kernel, Nat.le_of_eq List.length_replicate.symm, by decide +kernel⟩

/-- The commands of Waymark at and beyond the bounds of their operands, before a run, in a run and after it. -/
theorem witness_WaymarkCommands :
    (∀ n args, n < 65536 → axisOk n 0xFFFF = true → Served (packet n args) n (traced id)) ∧ ([0x0601, 0x0602, 0x0603, 0x0604].all
      fun n => axisOk n 0xFFFF) = true
    ∧ (let nan (v : Nat) : Bool := decide (v / 2 ^ 23 % 256 = 255)
       nan 0x7F800001 = true ∧ nan 0x7F800000 = true ∧ nan 0x7F7FFFFF = false ∧ fpToRat 0#32 ≤ fpToRat 0#32
         ∧ ¬ fpToRat (ratToFp 1) ≤ fpToRat 0#32)
    ∧ up.wm.st = .idle ∧ up.wm.setup.trig ≠ 1 ∧ (∀ k : Fin 8, (up.wm.setup.masks[k]).xkind = 0) ∧ up.wm.setup.mode = 0
    ∧ (let cap := (traced id).dv P.dvWmBufbytes / 16
       2048 + 2048 ≤ cap ∧ cap < 2049 + 2048)
    ∧ (traced fun w => { w with st := .post }).wm.st = .post ∧ (traced id).wm.trigged = false
    ∧ (traced fun w => { w with st := .stopped }).wm.st = .stopped ∧ up.versionOf (packet 0x0604 []) ≠ 1
    ∧ up.hasControl (packet 0x0604 []) = true
    ∧ (traced fun w => { w with run := { mode := 1 } }).wm.run.mode = 1 := by
  refine ⟨fun n args hn ha => ?_, by decide +kernel⟩
  obtain ⟨hb, hh, hx⟩ := params_frame [(P.dvWmBufbytes, 0, 65536)] up
  exact served_of (traced id) n args _ hn hb hh
    (by rw [show (traced id).net = (params up [(P.dvWmBufbytes, 0, 65536)]).net from rfl, params_net]; exact ⟨rfl, rfl⟩)
    (fun i => by rw [show (traced id).axes = up.axes from hx]; exact up_settled i) ha

/-- A fault of class 4 on axis 0, active. -/
def aFault (cls : Nat) : FaultRec := { code := 0x0400, cls := cls, axis := 0, scope := .axis, unit := 0, time := 0, detail := 0 }

/-- An axis in each of the states that the statement names with no fault active, and one that handles a fault of class 2; the die
temperature at its thresholds. -/
theorem witness_FaultReactions :
    (let s := axis0 (servo []) { st := .stopping, stop := .controlled, handling := 2 }
     s.bound 0 = true ∧ s.ax P.axGroup 0 = 0 ∧ s.faults.cycle = none ∧ s.faults.table = [] ∧ s.faults.table.length < 2048
       ∧ (0x0400 : Nat) ≠ 0x040C
     ∧ (s.axes[(0 : Fin 512)]).st = .stopping ∧ (s.axes[(0 : Fin 512)]).stop = .controlled ∧ (s.axes[(0 : Fin 512)]).handling = 2)
    ∧ (∀ st, ((inState st).axes[(0 : Fin 512)]).st = st ∧ ((inState st).axes[(0 : Fin 512)]).handling < 4)
    ∧ (0 : Fin 512) ≠ 1 ∧ (1 : Nat) ≤ 1 ∧ fpToRat (0x42E60000#32) = 115 ∧ fpToRat (0x42FA0000#32) = 125 := by
  refine ⟨by decide +kernel, fun st => ?_, by decide +kernel⟩
  cases st <;> decide +kernel

/-- A fault that is active, raised again with a class above its own, equal and below; a table that is full, with a record of a lower class
and without one. -/
theorem witness_FaultRecords :
    (let a (cls : Nat) : FaultArg := { code := 0x0400, cls := cls, scope := .axis, axis := 0 }
     (aFault 2).code = (a 3).code ∧ (aFault 2).scope = (a 3).scope ∧ (aFault 2).unit = (a 3).unit ∧ (aFault 2).axis = (a 3).axis
     ∧ (a 2).cls ≤ (aFault 2).cls ∧ (aFault 2).cls < (a 3).cls ∧ [aFault 2] = [] ++ aFault 2 :: [])
    ∧ (∃ t : List FaultRec, t.length = 2048 ∧ (∀ x ∈ t, x.code ≠ 0x0401) ∧ (∀ x ∈ t, 2 ≤ x.cls)
        ∧ ∃ after, t = [] ++ aFault 2 :: after ∧ ∀ x ∈ after, (aFault 2).cls < x.cls) := by
  refine ⟨by decide, ⟨aFault 2 :: List.replicate 2047 (aFault 3), by rw [List.length_cons, List.length_replicate], ?_, ?_, _, rfl, ?_⟩⟩
  · intro x hx
    rcases List.mem_cons.mp hx with rfl | h
    · decide
    · rw [(List.mem_replicate.mp h).2]
      decide
  · intro x hx
    rcases List.mem_cons.mp hx with rfl | h
    · decide
    · rw [(List.mem_replicate.mp h).2]
      decide
  · intro x hx
    rw [(List.mem_replicate.mp hx).2]
    decide

/-- The commands at and beyond the bounds of their operands, with each kind of cause active, and a device in recovery. -/
theorem witness_FaultCommands :
    (∀ n args l x, n < 65536 → axisOk n 0xFFFF = true → Served (packet n args) n (onCan l x))
    ∧ ([0x0901, 0x0902, 0x0903].all fun n => axisOk n 0xFFFF) = true ∧ up.versionOf (packet 0x0901 []) ≠ 1 ∧ up.boot.recovery = false
    ∧ (∃ b : Boot, b.recovery = true)
    ∧ (let s : State := { servo [] with faults := { table := [aFault 4] } }
       s.faults.table = [aFault 4] ∧ s.reachesAxis (aFault 4) 0 = true ∧ (aFault 4).prior = false ∧ s.reachesPort (aFault 4) 0 = true
       ∧ (s.reachesAxis (aFault 4) 1 = false) ∧ 2 ≤ (aFault 4).cls)
    ∧ (let s := onCan [(P.dvCanBorecov, 0, 1)] { st := .busOff }
       (s.can[(0 : Fin 4)]).st = .busOff ∧ s.dv P.dvCanBorecov 0 = 1)
    ∧ (up.dbg.temp ≤ 110 ∧ ({ temp := 111 } : Debug).temp > 110 ∧ (511 : Nat) < 512) := by
  refine ⟨fun n args l x hn ha => ?_, by decide, by decide +kernel, rfl, ⟨{ recovery := true }, rfl⟩, by decide +kernel, by decide +kernel,
    by decide +kernel⟩
  obtain ⟨hb, hh, hx⟩ := onCan_frame l x
  exact served_of (onCan l x) n args _ hn hb hh (by rw [onCan_net]; exact ⟨rfl, rfl⟩) (fun i => by rw [hx]; exact up_settled i) ha

/-- A firmware update open before and after its erase and in its end, whose image has its checksum; a slot that has passed; a trial. -/
theorem witness_FirmwareUpdate :
    (∀ n args, n < 65536 → axisOk n 0xFFFF = true → Served (packet n args) n up) ∧ (∀ i : Fin 512, (up.axes[i]).st = .disabled)
    ∧ (∃ b : Boot, b.fwPassed = some 1 ∧ b.onTrial = true ∧ b.confirm = some (up.refOf (packet 0x0A04 [])))
    ∧ ([0x0A01, 0x0A02, 0x0A03, 0x0A04].all fun n => axisOk n 0xFFFF) = true ∧ up.boot.fw = none ∧ up.boot.onTrial = false
    ∧ (∀ k : Fin 2, (up.boot.dirs[k]).valid = true ∧ (up.boot.dirs[k]).trial = none) ∧ (272 : Nat) % 4 = 0 ∧ (15728640 : Nat) % 4 = 0
    ∧ up.boot.fwPassed = none ∧ up.boot.confirm = none
    ∧ (let d := zeros 4
       let f : FwUpdate :=
         { target := 1, total := 4, ref := up.refOf (packet 0x0A03 []), erased := true, ending := true, got := d ++ leBytes 4 (crc32c d).toNat }
       f.got = d ++ leBytes 4 (crc32c d).toNat ∧ d.length = f.total ∧ (crc32c d).toNat < 2 ^ 32 ∧ f.staged + 4076 ≤ 65536
       ∧ ({ f with ending := false, got := [], total := 4076 } : FwUpdate).got.length + 4076 ≤ 4076) :=
  ⟨fun n args hn ha => served_of up n args _ hn rfl rfl ⟨rfl, rfl⟩ up_settled ha, fun i => by simp [up, onBoot, State.reset], ⟨{ fwPassed := some 1, onTrial := true, confirm := some (up.refOf (packet 0x0A04 [])) }, rfl, rfl, rfl⟩, by decide +kernel⟩

/-- A program image of one word, with its checksum: `END` verifies, and a word without it does not. -/
def imageOf (w : Nat) : List Byte :=
  let h := leBytes 4 0x50454C58 ++ leBytes 2 1 ++ leBytes 2 0x100 ++ leBytes 4 1 ++ leBytes 1 1 ++ zeros 3 ++ leBytes 4 96 ++ leBytes 4 8
    ++ leBytes 4 104 ++ zeros 4 ++ leBytes 4 104 ++ zeros 4 ++ leBytes 4 104 ++ zeros 4 ++ leBytes 4 64 ++ leBytes 4 104 ++ leBytes 4 104
  let t := zeros 32 ++ leBytes 8 w
  h ++ leBytes 4 (crc32c (h ++ zeros 4 ++ t)).toNat ++ t

set_option maxRecDepth 100000 in
/-- Loads at the bounds of the identifier, of the size and of the chunk; an image that is verified and ones that are refused; a program
that is loaded; an engine whose tasks move. -/
theorem witness_ProgramStore :
    (∀ args, Served (packet 0x0B01 args) 0x0B01 up ∧ Served (packet 0x0B02 args) 0x0B02 up) ∧ (∃ x : Engine, x.migrateTo = some 23)
    ∧ (match verifyImage (imageOf 0x1800) 0x100 [] with | .ok _ => true | .error _ => false) = true
    ∧ (match verifyImage (imageOf 0) 0x100 [] with | .ok _ => false | .error e => e.1 == 0x0109) = true
    ∧ (match verifyImage (imageOf 0x1800) 0x101 [] with | .ok _ => false | .error e => e.1 == 0x0102) = true ∧ up.cfg.programs = []
    ∧ up.cfg.tasks = [] ∧ up.cfg.lepLoad = none ∧ 0 + 4068 ≤ 266240 ∧ 266240 % 4 = 0
    ∧ (let r := up.refOf (packet 0x0B01 [])
       let c : Cfg := { lepVerify := [(0x100, imageOf 0x1800, r)], lepLoad := some (0x100, 8, zeros 4, r)
                        programs := [{ id := 0x100, image := imageOf 0x1800, figures := [] }] }
       (c.programs.filter fun q => q.id == 0x100).length = 1 ∧ c.lepVerify ≠ [] ∧ c.lepLoad.isSome = true) := by
  refine ⟨fun args => ⟨served_of up _ args _ (by decide) rfl rfl ⟨rfl, rfl⟩ up_settled (by decide), served_of up _ args _ (by decide) rfl rfl ⟨rfl, rfl⟩ up_settled
    (by decide)⟩, ⟨{ migrateTo := some 23 }, rfl⟩, by decide +kernel⟩

/-! ### Steps -/

/-- The invariant of `EveryStep` at reset, with line time at its last instant, and beyond it. -/
theorem witness_EveryStep : Inv { State.reset with time := { ns := 999999999, frac := 65535 } }
  ∧ ¬ Inv { State.reset with time := { ns := 1000000000 } } := by
  refine ⟨⟨by decide, by decide, fun e => ?_⟩, fun h => ?_⟩
  · simp only [State.reset]
    refine ⟨?_, ?_, ?_, ?_⟩ <;> simp [Memory.wf, assocSorted]
  · exact absurd h.time.1 (by decide)

/-! ### One step -/

/-- What holds of the state that follows. -/
def after (o : Host.Outcome State Fault Refusal) (p : State → Bool) : Bool := match o with | .next t => p t | _ => false

theorem test_step_takes_the_front : after (step { State.reset with pending := [.outputWatchdogExpiry, .torqueOffSample] })
    (fun t => t.pending == [.torqueOffSample] && t.tg.watchdog) = true := by decide +kernel

theorem test_step_ticks : after (step State.reset) (fun t => t.tg.clk == 1 && t.ticks == 0) = true := by decide +kernel

theorem test_step_line_time : after (step { State.reset with boot := { inReset := false } }) (fun t => t.ticks == 1 && t.time.frac == 32768)
    = true := by decide +kernel

theorem test_rollback_follows_the_image : after (exec (.rollbackFuseComplete) { up with boot := { up.boot with confirm := some (up.refOf (packet 0x0A04 [])), secTp := 3 } })
    (fun t => t.boot.rollTp == 3 && t.boot.confirm.isNone) = true := by decide +kernel

/-- R522 to R524: balls that chapter 18 names. -/
theorem test_balls : portBall 7 "AH" = some (1, 18) ∧ ballName (1, 18) = "A18" := by decide +kernel

/-- R521, Table 18.2: 433 balls of the array are ground. -/
theorem test_ground :
    (List.range 2916).countP (fun k => ballNet (k / 54 + 1) (k % 54 + 1) == .vss) = 433 := by decide +kernel

/-- R525: the examples of its text. -/
theorem test_gaps : ballNet 1 21 = .sig "PCIE_TX0_P" ∧ ballNet 22 54 = .sig "E0_TX_N" ∧ ballNet 54 34 = .sig "C0_TX" := by
  decide +kernel

theorem test_no_word : decodeTableWord 32 0 = none := rfl

end Sys2Proof.Tests
end

/-! ## Laws of the shared operations, for the proofs below -/
section
namespace Sys2Proof.Machine

/-! ### Little-endian fields -/

theorem length_leBytes (k n : Nat) : (leBytes k n).length = k := by
  induction k generalizing n with
  | zero => rfl
  | succ k ih => simp [leBytes, ih]

theorem leNat_leBytes_mod (k n : Nat) : leNat (leBytes k n) = n % 256 ^ k := by
  induction k generalizing n with
  | zero => simp [leBytes, leNat, Nat.mod_one]
  | succ k ih =>
    simp only [leBytes, leNat, ih, BitVec.toNat_ofNat]
    exact (Nat.mod_mul (x := n) (a := 256) (b := 256 ^ k)).symm.trans (congrArg (n % ·) Nat.pow_succ'.symm)

/-- The first field of a payload. -/
theorem field_leBytes_append (k n : Nat) (r : List Byte) : field (leBytes k n ++ r) 0 k = n % 256 ^ k := by
  simp [field, length_leBytes, leNat_leBytes_mod]

/-- A field behind another one. -/
theorem field_append_right (a b : List Byte) (o k : Nat) (h : a.length = o) : field (a ++ b) o k = field b 0 k := by
  subst h
  simp [field]

theorem u32_leBytes_append {n : Nat} (r : List Byte) (h : n < 2 ^ 32) : u32 (leBytes 4 n ++ r) 0 = n :=
  (field_leBytes_append 4 n r).trans (Nat.mod_eq_of_lt h)

theorem u32_leBytes_leBytes {m n : Nat} (h : n < 2 ^ 32) : u32 (leBytes 4 m ++ leBytes 4 n) 4 = n := by
  rw [u32, field_append_right _ _ _ _ (length_leBytes 4 m), ← List.append_nil (leBytes 4 n)]
  exact u32_leBytes_append [] h

theorem u8_leBytes_append {n : Nat} (r : List Byte) (h : n < 256) : u8 (leBytes 1 n ++ r) 0 = n :=
  (field_leBytes_append 1 n r).trans (Nat.mod_eq_of_lt h)

/-- Reserved bytes that stand behind a field of `o` bytes. -/
theorem rsvZero_append_zeros (a : List Byte) (o k : Nat) (h : a.length = o) : rsvZero (a ++ zeros k) o k = true := by
  subst h
  simp [rsvZero, allZero, zeros]

/-! ### Commands of the main domain -/

/-- A row of the main domain completes with what its effect satisfies. -/
theorem acts_of_main {c : Instr} {s u : State} {P : State → Prop} (hx : exec c s = s.main u) (h : P u) : Acts c s P := by
  refine ⟨_, hx, ?_⟩
  by_cases hr : s.boot.inReset = true
  · simp [hr]
  · simp [hr, h]

/-- A row of the main domain whose effect is `u` becomes `u`. -/
theorem acts_eq {c : Instr} {s u : State} (hx : exec c s = s.main u) : Acts c s fun t => t = u := acts_of_main hx rfl

/-! ### Served packets (R81 to R86) -/

/-- Command `c` is the row of opcode `n` for packet `p`, and `op` is its step 12 (Table 3.3). -/
structure IsRow (c : Instr) (p : Packet) (n : Nat) (op : Op) : Prop where
  arrives : ∀ s, exec c s = s.main (s.arriveAs p n)
  op : opOf n = some op
  opcode : n < 65536

theorem asOp_opcode {n : Nat} (p : Packet) (h : n < 65536) : (asOp p n).opcode.toNat = n := by
  simp only [asOp, BitVec.toNat_ofNat]; omega

/-- Without an open group of its queue there is nothing to abort (R91). -/
theorem State.abortGroup_of_none {s : State} {src : Src} (det : Nat) (hg : s.host.groups.all (fun g => g.1 != src) = true)
    (hf : s.host.fwdGroups.all (fun g => g.1 != src) = true) : s.abortGroup src det = s := by
  have hfwd : s.host.fwdGroups.filter (fun g => g.1 != src) = s.host.fwdGroups :=
    List.filter_eq_self.2 (List.all_eq_true.1 hf)
  have hfind : s.host.groups.find? (fun g => g.1 == src) = none := by
    refine List.find?_eq_none.2 fun g hm => ?_
    simpa using List.all_eq_true.1 hg g hm
  have hs : (s.updHost fun h => { h with fwdGroups := h.fwdGroups.filter (fun g => g.1 != src) }) = s := by
    simp only [State.updHost, hfwd]
  simp only [State.abortGroup, hs, hfind]

/-- A served packet goes to step 12 at once. -/
theorem Served.arrive {p : Packet} {n : Nat} {s : State} {op : Op} (h : Served p n s) (hop : opOf n = some op) (hn : n < 65536) :
    s.arrive (asOp p n) = s.run1 (asOp p n) none := by
  have hgroup : Packet.inGroup (asOp p n) = false := h.plain.1
  have htimed : Packet.isTimed (asOp p n) = false := h.plain.2
  have habort : s.abortGroup (asOp p n).src 0x0001 = s := State.abortGroup_of_none _ h.noGroup h.noForward
  simp [State.arrive, h.serving, asOp_opcode p hn, hop, hgroup, htimed, habort, h.passes]

/-- Step 12 of a served packet: what the opcode answers; the tag of a command that is accepted is in use. -/
theorem Served.step12 {p : Packet} {n : Nat} {s : State} {op : Op} (h : Served p n s) (hop : opOf n = some op) (hn : n < 65536) :
    s.step12 (asOp p n) none =
      let r := op none (asOp p n) s
      if r.st = .accepted ∧ r.later = false then { r with s := r.s.await (asOp p n) } else r := by
  have htag : (s.tagUsed (asOp p n) && !isDue none && (asOp p n).opcode != 0x0001#16) = false := by
    rcases h.tag with rfl | ht
    · simp [asOp]
    · simp [ht]
  have hroom : ¬ 256 ≤ s.awaitCount (asOp p n) := by have := h.room; omega
  simp [State.step12, asOp_opcode p hn, hop, htag, hroom]

/-- A row with a served packet sends the outcome of its step 12. -/
theorem IsRow.sends {c : Instr} {p : Packet} {n : Nat} {op : Op} {s : State} {P : State → Prop} (hc : IsRow c p n op) (h : Served p n s)
    (hP : P (s.replyWith (asOp p n) (s.step12 (asOp p n) none) false).noteDevstat) : Sends c p s P := by
  intro s₀ hs₀
  refine acts_of_main (hc.arrives s₀) ?_
  have hsrc : s₀.keepAlive (asOp p n).src = s := hs₀
  have hblocked : s.blocked (asOp p n).src = false := h.unblocked
  have : s₀.arriveAs p n = (s.arrive (asOp p n)).noteDevstat := by
    show s₀.accept (asOp p n) = _
    simp [State.accept, hsrc, hblocked]
  rw [this, h.arrive hc.op hc.opcode]
  exact hP

/-- A row that is answered at once. -/
theorem IsRow.sends_replied {c : Instr} {p : Packet} {n : Nat} {op : Op} {s u : State} {st : Status} {det : Nat} {body : List Byte}
    (hc : IsRow c p n op) (h : Served p n s) (hop : op none (asOp p n) s = { st := st, det := det, body := body, s := u })
    (hst : st ≠ .accepted) : Sends c p s (Replied p n s st det body u) := by
  refine hc.sends h ?_
  simp only [h.step12 hc.op hc.opcode, hop, hst, false_and, if_false]
  rfl

/-- A row that is refused and changes nothing. -/
theorem IsRow.sends_refused {c : Instr} {p : Packet} {n : Nat} {op : Op} {s : State} {st : Status} {det : Nat} (hc : IsRow c p n op)
    (h : Served p n s) (hop : op none (asOp p n) s = .fail s st det) (hst : st ≠ .accepted) : Sends c p s (Refused p n s st det) :=
  hc.sends_replied h hop hst

/-- A row that is accepted. -/
theorem IsRow.sends_accepted {c : Instr} {p : Packet} {n : Nat} {op : Op} {s u : State} (hc : IsRow c p n op) (h : Served p n s)
    (hop : op none (asOp p n) s = .accepted u) : Sends c p s (Accepted p n s u) := by
  refine hc.sends h ?_
  rw [h.step12 hc.op hc.opcode, hop]
  rfl

end Sys2Proof.Machine
end

/-! ## Firmware update (R60, R68 to R72, R129, R130) -/
section
namespace Sys2Proof.Machine

/-! ### Checks of step 12 -/

@[simp] theorem need_true_bind {α : Type} (st : Status) (det : Nat) (k : Unit → Check α) : (need true st det >>= k) = k () := rfl

@[simp] theorem need_false_bind {α : Type} (st : Status) (det : Nat) (k : Unit → Check α) :
    (need false st det >>= k) = .error (st, det) := rfl

@[simp] theorem need_true_map {α : Type} (st : Status) (det : Nat) (f : Unit → α) : (f <$> need true st det) = .ok (f ()) := rfl

@[simp] theorem need_false_map {α : Type} (st : Status) (det : Nat) (f : Unit → α) :
    (f <$> need false st det) = .error (st, det) := rfl

@[simp] theorem HRes.ofCheck_pure (s : State) (r : HRes) : HRes.ofCheck s (pure r) = r := rfl

@[simp] theorem HRes.ofCheck_ok (s : State) (r : HRes) : HRes.ofCheck s (.ok r) = r := rfl

@[simp] theorem HRes.ofCheck_error (s : State) (st : Status) (det : Nat) : HRes.ofCheck s (.error (st, det)) = .fail s st det := rfl

/-! ### The boot directory -/

@[simp] theorem State.updBoot_now (s : State) (f : Boot → Boot) : (s.updBoot f).now = s.now := rfl

/-- The copy in use (R60), its two conditions as equations. -/
theorem Boot.dirIdx_eq (b : Boot) : b.dirIdx = if (b.dirs[0]).valid = false then 1 else if (b.dirs[1]).valid = false then 0
    else if (b.dirs[0]).seq < (b.dirs[1]).seq then 1 else 0 := by
  simp [Boot.dirIdx]

theorem Boot.freeSlot_eq_none {b : Boot} (h : b.onTrial = true ∨ b.dir.trial.isSome = true) : b.freeSlot = none := by
  simp [Boot.freeSlot, h]

theorem Boot.freeSlot_eq_some {b : Boot} (ht : b.onTrial = false) (hd : b.dir.trial = none) :
    b.freeSlot = some (if b.dir.active = 0 then 1 else 0) := by
  simp [Boot.freeSlot, ht, hd]

theorem State.anyEnabled_iff (s : State) : s.anyEnabled = true ↔ ∃ i : Fin 512, (s.axes[i]).st = .enabledIdle ∨ (s.axes[i]).st = .moving
    ∨ (s.axes[i]).st = .homing ∨ (s.axes[i]).st = .stopping := by
  simp only [State.anyEnabled, allAxes, List.any_eq_true, List.mem_finRange, true_and]
  refine exists_congr fun i => ?_
  cases (s.axes[i]).st <;> simp

/-- The directory goes into the copy not in use, with the next `seq` (R60). -/
theorem Boot.writeDir_eq {b : Boot} {k : Fin 2} (hk : b.dirIdx = k) (g : Directory → Directory) :
    b.writeDir g = { b with dirs := upd b.dirs (if k = 0 then 1 else 0) fun _ =>
      { g b.dirs[k] with valid := true, seq := (b.dirs[k]).seq + 1 } } := by
  subst hk
  rfl

/-! ### `FW_BEGIN` -/

theorem fwBegin_row (p : Packet) : IsRow (.fwBegin p) p 0x0A01 opFwBegin := ⟨fun _ => rfl, rfl, by decide⟩

section
variable {t : Instant} {p : Packet} {s : State} {n : Nat} (ha : p.args = leBytes 4 n ++ zeros 4)
include ha

theorem fwBegin_args (hn : n < 2 ^ 32) : p.args.length = 8 ∧ u32 p.args 0 = n ∧ rsvZero p.args 4 4 = true := by
  rw [ha]
  exact ⟨by simp [length_leBytes, zeros], u32_leBytes_append _ hn, rsvZero_append_zeros _ 4 4 (length_leBytes 4 n)⟩

theorem opFwBegin_busy (hfw : s.boot.fw.isSome = true) : opFwBegin t p s = .fail s .busy 0x0003 := by
  have hl : p.args.length = 8 := by simp [ha, length_leBytes, zeros]
  simp [opFwBegin, hl, Option.isNone_eq_false_iff.2 hfw]

variable (hn : n < 2 ^ 32) (hfw : s.boot.fw = none)
include hn hfw

theorem opFwBegin_size (hsize : n < 272 ∨ 15728640 < n ∨ n % 4 ≠ 0) : opFwBegin t p s = .fail s .range 0 := by
  obtain ⟨hl, hu, -⟩ := fwBegin_args ha hn
  have hbad : (decide (272 ≤ n) && decide (n ≤ 15728640) && n % 4 == 0 && rsvZero p.args 4 4) = false := by
    simp; omega
  simp [opFwBegin, hl, hfw, hu, hbad]

variable (hlo : 272 ≤ n) (hhi : n ≤ 15728640) (h4 : n % 4 = 0)
include hlo hhi h4

/-- During a trial no slot is free (R68). -/
theorem opFwBegin_noSlot (hfree : s.boot.freeSlot = none) : opFwBegin t p s = .fail s .state 0x0102 := by
  obtain ⟨hl, hu, hr⟩ := fwBegin_args ha hn
  simp [opFwBegin, hl, hfw, hu, hr, hlo, hhi, h4, hfree]

theorem opFwBegin_opens {k : Fin 2} (hfree : s.boot.freeSlot = some k) :
    opFwBegin t p s = .accepted (s.updBoot fun b =>
      { b with fw := some { target := k, total := n, ref := s.refOf p }, fwPassed := none }) := by
  obtain ⟨hl, hu, hr⟩ := fwBegin_args ha hn
  simp [opFwBegin, hl, hfw, hu, hr, hlo, hhi, h4, hfree]

end

/-! ### `FW_DATA` -/

theorem fwData_row (p : Packet) : IsRow (.fwData p) p 0x0A02 opFwData := ⟨fun _ => rfl, rfl, by decide⟩

section
variable {t : Instant} {p : Packet} {s : State} {off : Nat} {d : List Byte} {f : FwUpdate} (ha : p.args = leBytes 4 off ++ d)
  (h4 : 4 ≤ d.length) (hd : d.length ≤ 4076)
include ha h4 hd

theorem opFwData_closed (hf : s.boot.fw = none ∨ (s.boot.fw = some f ∧ f.ending = true)) : opFwData t p s = .fail s .state 0x0103 := by
  have hl : 8 ≤ p.args.length ∧ p.args.length ≤ 4080 := by simp [ha, length_leBytes]; omega
  rcases hf with hf | ⟨hf, he⟩
  · simp [opFwData, hl, hf]
  · simp [opFwData, hl, hf, he]

variable (hoff : off < 2 ^ 32) (hf : s.boot.fw = some f) (he : f.ending = false)
include hoff hf he

/-- What is left of the checks of `FW_DATA` while an update is open (Table 3.28). -/
theorem opFwData_open : opFwData t p s = .ofCheck s do
    need (off == f.got.length) .range 0x0101
    need (decide (f.got.length + d.length ≤ f.total)) .range 0x0102
    need (decide (f.staged + d.length ≤ 65536)) .queueFull 0x0003
    return .ok (s.updBoot fun b => { b with fw := some { f with got := f.got ++ d, staged := f.staged + d.length } }) := by
  have hl : 8 ≤ p.args.length ∧ p.args.length ≤ 4080 := by simp [ha, length_leBytes]; omega
  have hu : u32 p.args 0 = off := by rw [ha]; exact u32_leBytes_append _ hoff
  have hdrop : p.args.drop 4 = d := by rw [ha]; exact List.drop_left' (length_leBytes 4 off)
  simp [opFwData, hl, hf, he, hu, hdrop]

theorem opFwData_offset (h : off ≠ f.got.length) : opFwData t p s = .fail s .range 0x0101 := by
  rw [opFwData_open ha h4 hd hoff hf he, beq_false_of_ne h]
  rfl

theorem opFwData_tooLong (h : off = f.got.length) (ht : f.total < off + d.length) : opFwData t p s = .fail s .range 0x0102 := by
  simp [opFwData_open ha h4 hd hoff hf he, ← h, Nat.not_le.2 ht]

theorem opFwData_full (h : off = f.got.length) (ht : off + d.length ≤ f.total) (hst : 65536 < f.staged + d.length) :
    opFwData t p s = .fail s .queueFull 0x0003 := by
  simp [opFwData_open ha h4 hd hoff hf he, ← h, ht, Nat.not_le.2 hst]

theorem opFwData_staged (h : off = f.got.length) (ht : off + d.length ≤ f.total) (hst : f.staged + d.length ≤ 65536) :
    opFwData t p s =
      .ok (s.updBoot fun b => { b with fw := some { f with got := f.got ++ d, staged := f.staged + d.length } }) := by
  simp [opFwData_open ha h4 hd hoff hf he, ← h, ht, hst]

end

/-! ### `FW_END` -/

theorem fwEnd_row (p : Packet) : IsRow (.fwEnd p) p 0x0A03 opFwEnd := ⟨fun _ => rfl, rfl, by decide⟩

section
variable {t : Instant} {p : Packet} {s : State} {n crc : Nat} {f : FwUpdate} (ha : p.args = leBytes 4 n ++ leBytes 4 crc)
include ha

theorem opFwEnd_closed (hf : s.boot.fw = none ∨ (s.boot.fw = some f ∧ f.ending = true)) : opFwEnd t p s = .fail s .state 0x0103 := by
  have hl : p.args.length = 8 := by simp [ha, length_leBytes]
  rcases hf with hf | ⟨hf, he⟩
  · simp [opFwEnd, hl, hf]
  · simp [opFwEnd, hl, hf, he]

variable (hn : n < 2 ^ 32) (hf : s.boot.fw = some f) (he : f.ending = false)
include hn hf he

/-- An image that is not complete closes the update (R129). -/
theorem opFwEnd_incomplete (h : f.got.length < f.total ∨ n ≠ f.total) :
    opFwEnd t p s = .fail (s.updBoot fun b => { b with fw := none }) .range 0x0103 := by
  have hl : p.args.length = 8 := by simp [ha, length_leBytes]
  have hu : u32 p.args 0 = n := by rw [ha]; exact u32_leBytes_append _ hn
  simp [opFwEnd, hl, hf, he, hu, h]

theorem opFwEnd_complete (hcrc : crc < 2 ^ 32) (hlen : f.total ≤ f.got.length) (htot : n = f.total) :
    opFwEnd t p s = .accepted (s.updBoot fun b => { b with fw := some { f with ending := true, ref := s.refOf p, crc := crc } }) := by
  have hl : p.args.length = 8 := by simp [ha, length_leBytes]
  have hu : u32 p.args 0 = n := by rw [ha]; exact u32_leBytes_append _ hn
  have hc : u32 p.args 4 = crc := by rw [ha]; exact u32_leBytes_leBytes hcrc
  simp [opFwEnd, hl, hf, he, hu, hc, htot, Nat.not_lt.2 hlen]

end

/-! ### `FW_ACTIVATE` -/

theorem fwActivate_row (p : Packet) : IsRow (.fwActivate p) p 0x0A04 opFwActivate := ⟨fun _ => rfl, rfl, by decide⟩

section
variable {t : Instant} {p : Packet} {s : State} {act : Nat} (ha : p.args = leBytes 1 act ++ zeros 3)
include ha

theorem fwActivate_args (hact : act < 256) : p.args.length = 4 ∧ rsvZero p.args 1 3 = true ∧ u8 p.args 0 = act := by
  rw [ha]
  exact ⟨by simp [length_leBytes, zeros], rsvZero_append_zeros _ 1 3 (length_leBytes 1 act), u8_leBytes_append _ hact⟩

theorem opFwActivate_unknown (hact : act < 256) (h : act = 0 ∨ 3 < act) : opFwActivate t p s = .fail s .range 0 := by
  obtain ⟨hl, hr, hu⟩ := fwActivate_args ha hact
  simp only [opFwActivate, hl, hr, hu, beq_self_eq_true, need_true_bind]
  split
  case h_1 | h_2 | h_3 => omega
  case h_4 => rfl

/-- `TRIAL` while an axis is enabled (R70). -/
theorem opFwActivate_trial_enabled (h : act = 1) (hen : s.anyEnabled = true) : opFwActivate t p s = .fail s .state 0x0104 := by
  subst h
  obtain ⟨hl, hr, hu⟩ := fwActivate_args ha (by decide)
  simp [opFwActivate, hl, hr, hu, hen]

/-- `TRIAL` without a slot that has passed (R70). -/
theorem opFwActivate_trial_noSlot (h : act = 1) (hen : s.anyEnabled = false) (hp : s.boot.fwPassed = none) :
    opFwActivate t p s = .fail s .state 0x0105 := by
  subst h
  obtain ⟨hl, hr, hu⟩ := fwActivate_args ha (by decide)
  simp [opFwActivate, hl, hr, hu, hen, hp]

/-- `TRIAL` of a slot that has passed (R70). -/
theorem opFwActivate_trial {k : Fin 2} (h : act = 1) (hen : s.anyEnabled = false) (hp : s.boot.fwPassed = some k) :
    opFwActivate t p s = .ok (s.updBoot fun b => { b.writeDir (fun d => { d with trial := some k }) with fwReset := true }) := by
  subst h
  obtain ⟨hl, hr, hu⟩ := fwActivate_args ha (by decide)
  simp [opFwActivate, hl, hr, hu, hen, hp]

/-- `CONFIRM` and `REVERT` without a trial (R72). -/
theorem opFwActivate_noTrial (h : act = 2 ∨ act = 3) (htr : s.boot.onTrial = false) :
    opFwActivate t p s = .fail s .state 0x0106 := by
  obtain ⟨hl, hr, hu⟩ := fwActivate_args ha (by omega)
  rcases h with rfl | rfl <;> simp [opFwActivate, hl, hr, hu, htr]

/-- `CONFIRM` (R72). -/
theorem opFwActivate_confirm (h : act = 2) (htr : s.boot.onTrial = true) :
    opFwActivate t p s = .accepted (s.updBoot fun b =>
      { b.writeDir (fun d => { d with active := b.slot }) with confirm := some (s.refOf p) }) := by
  subst h
  obtain ⟨hl, hr, hu⟩ := fwActivate_args ha (by decide)
  simp [opFwActivate, hl, hr, hu, htr]

/-- `REVERT` (R72). -/
theorem opFwActivate_revert (h : act = 3) (htr : s.boot.onTrial = true) :
    opFwActivate t p s = .ok (s.updBoot fun b => { b with fwReset := true }) := by
  subst h
  obtain ⟨hl, hr, hu⟩ := fwActivate_args ha (by decide)
  simp [opFwActivate, hl, hr, hu, htr]

end

/-! ### The slot is erased, written and checked -/

theorem execSlotEraseComplete_idle {s : State} {f : FwUpdate} (h : s.boot.fw = none ∨ (s.boot.fw = some f ∧ f.erased = true)) :
    execSlotEraseComplete s = s.main s := by
  rcases h with h | ⟨h, he⟩
  · simp [execSlotEraseComplete, h]
  · simp [execSlotEraseComplete, h, he]

theorem execSlotEraseComplete_open {s : State} {f : FwUpdate} (h : s.boot.fw = some f) (he : f.erased = false) :
    execSlotEraseComplete s = s.main
      ((s.updBoot fun b => { b.writeSlot f.target [] with fw := some { f with erased := true } }).complete f.ref .done 0 s.now) := by
  simp [execSlotEraseComplete, h, he]

theorem execStagingBufferWritten_idle {s : State} {f : FwUpdate} (m : BitVec 17)
    (h : s.boot.fw = none ∨ (s.boot.fw = some f ∧ f.erased = false)) : execStagingBufferWritten m s = s.main s := by
  rcases h with h | ⟨h, he⟩
  · simp [execStagingBufferWritten, State.updBoot, h]
  · simp [execStagingBufferWritten, State.updBoot, h, he]

theorem execStagingBufferWritten_open {s : State} {f : FwUpdate} (m : BitVec 17) (h : s.boot.fw = some f) (he : f.erased = true) :
    execStagingBufferWritten m s = s.main (s.updBoot fun b =>
      { b.writeSlot f.target (f.got.take (f.got.length - (f.staged - m.toNat))) with
        fw := some { f with staged := f.staged - m.toNat } }) := by
  simp [execStagingBufferWritten, State.updBoot, h, he, FwUpdate.programmed]

/-- The header of an image is in its ranges (R61, Table 2.8). -/
def ImageHeader (byway : Bool) (im : List Byte) : Prop := 272 ≤ im.length ∧ u32 im 0 = 0x4D495853 ∧ u16 im 4 = 1
  ∧ u16 im 6 = (if byway then 2 else 1) ∧ u32 im 8 ≤ 64 ∧ u32 im 12 ≤ (if byway then 0x800000 else 0x18000)
  ∧ 272 + u32 im 12 ≤ im.length ∧ u32 im 16 + u32 im 12 ≤ (if byway then 0x800000 else 0x20000) ∧ u32 im 20 < u32 im 12
  ∧ u8 im 24 ≤ 3 ∧ rsvZero im 25 7 = true

theorem imageHeaderOk_iff (byway : Bool) (im : List Byte) : imageHeaderOk byway im = true ↔ ImageHeader byway im := by
  simp only [imageHeaderOk, ImageHeader, Bool.and_eq_true, decide_eq_true_eq, beq_iff_eq, and_assoc]

/-- The checks of R61 in their order. -/
theorem State.imageCheck_eq (s : State) (byway : Bool) (im : List Byte) (x : ImageFacts) {_ : Decidable (ImageHeader byway im)} :
    s.imageCheck byway im x = if ¬ ImageHeader byway im then 2
      else if x.key = false ∨ s.dbg.revoked.getLsbD (u8 im 24) = true then 3
      else if x.sig = false then 4
      else if x.hash = false then 5
      else if u32 im 8 < (if byway then s.boot.rollBw else s.boot.rollTp) then 6 else 0 := by
  simp only [State.imageCheck, ← imageHeaderOk_iff, Bool.not_eq_true]

theorem bywayOffset_eq (im : List Byte) : bywayOffset im = (272 + u32 im 12 + 4095) / 4096 * 4096 := by
  simp only [bywayOffset, ceilDiv]; omega

/-- The outcome of `FW_END` as its checks stand in order (R69). -/
theorem State.slotCheck_eq (s : State) (f : FwUpdate) (tp bw : ImageFacts) :
    s.slotCheck f tp bw = if (crc32c f.got).toNat ≠ f.crc then 1
      else if s.imageCheck false f.got tp ≠ 0 then s.imageCheck false f.got tp
      else s.imageCheck true (f.got.drop (bywayOffset f.got)) bw := rfl

theorem execSlotProgramComplete_idle {s : State} {f : FwUpdate} (tp bw : ImageFacts)
    (h : s.boot.fw = none ∨ (s.boot.fw = some f ∧ (f.ending = false ∨ f.erased = false))) : execSlotProgramComplete tp bw s = s.main s := by
  rcases h with h | ⟨h, he⟩
  · simp [execSlotProgramComplete, h]
  · simp [execSlotProgramComplete, h, he]

section
variable {s : State} {f : FwUpdate} {tp bw : ImageFacts} (hf : s.boot.fw = some f) (hend : f.ending = true) (her : f.erased = true)
include hf hend her

theorem execSlotProgramComplete_passed (hdet : s.slotCheck f tp bw = 0) : execSlotProgramComplete tp bw s = s.main
    ((s.updBoot fun b => { (b.writeDir fun d => { d with failed := d.failed &&& (3 - 2 ^ f.target.val) }).writeSlot f.target f.got with
      fw := none, fwPassed := some f.target }).complete f.ref .done 0 s.now) := by
  simp [execSlotProgramComplete, hf, hend, her, hdet]

/-- A slot that fails is not activated: `FW_ACTIVATE` finds no slot that has passed (R69, R129). -/
theorem execSlotProgramComplete_failed (hdet : s.slotCheck f tp bw ≠ 0) : execSlotProgramComplete tp bw s = s.main
    ((s.updBoot fun b => { b.writeSlot f.target f.got with fw := none, fwPassed := none }).complete f.ref .denied
      (0x0100 + s.slotCheck f tp bw) s.now) := by
  simp [execSlotProgramComplete, hf, hend, her, hdet]

end

/-! ### The rollback counters -/

theorem execRollbackFuseComplete_idle {s : State} (h : s.boot.confirm = none) : execRollbackFuseComplete s = s.main s := by
  simp [execRollbackFuseComplete, h]

theorem execRollbackFuseComplete_confirm {s : State} {r : CmdRef} (h : s.boot.confirm = some r) : execRollbackFuseComplete s = s.main
    ((s.updBoot fun b => { b with
      confirm := none, onTrial := false, rollTp := max b.rollTp b.secTp, rollBw := max b.rollBw b.secBw }).complete r .done 0 s.now) := by
  simp [execRollbackFuseComplete, h]

/-! ### The statement -/

/-- Settles O56: each command by what its step 12 answers, each event by what it does to the open update. -/
theorem firmwareUpdate : Obligations.FirmwareUpdate := by
  intro s p n crc off act d f r slot m tp bw b inUse dir other written open_ hold enabled ref
  have hin : s.boot.dirIdx = inUse := Boot.dirIdx_eq b
  have hdir : s.boot.dir = dir := congrArg (fun k : Fin 2 => s.boot.dirs[k]) hin
  have hwritten (g : Directory → Directory) : s.boot.writeDir g = written g s.boot := Boot.writeDir_eq hin g
  refine ⟨fun hs hn ha => ⟨fun hfw => ?_, fun hfw hsize => ?_, fun hfw hlo hhi h4 => ⟨fun htr => ?_, fun htr hd => ?_⟩⟩,
    fun hf => acts_eq (execSlotEraseComplete_idle hf), fun hf he => acts_eq (execSlotEraseComplete_open hf he),
    fun hs hoff h4 hd ha => ⟨fun hf => ?_, fun hf he => ⟨fun ho => ?_, fun ho ht => ?_, fun ho ht hst => ?_, fun ho ht hst => ?_⟩⟩,
    fun hf => acts_eq (execStagingBufferWritten_idle m hf), fun hf he => acts_eq (execStagingBufferWritten_open m hf he),
    fun hs hn hcrc ha => ⟨fun hf => ?_, fun hf he => ⟨fun hinc => ?_, fun hlen htot => ?_⟩⟩,
    fun hf => acts_eq (execSlotProgramComplete_idle tp bw hf), fun hf hend her hgot => ?_,
    fun hs hact ha => ⟨fun hbad => ?_, fun h1 hen => ?_, fun h1 hen hp => ?_, fun h1 hen hp => ?_, fun h hnt => ?_,
      fun h2 htr => ?_, fun h3 htr => ?_⟩,
    fun hc => acts_eq (execRollbackFuseComplete_idle hc), fun hc => acts_eq (execRollbackFuseComplete_confirm hc)⟩
  -- `FW_BEGIN`
  · exact (fwBegin_row p).sends_refused hs (opFwBegin_busy ha hfw) (by decide)
  · exact (fwBegin_row p).sends_refused hs (opFwBegin_size ha hn hfw hsize) (by decide)
  · exact (fwBegin_row p).sends_refused hs (opFwBegin_noSlot ha hn hfw hlo hhi h4 (Boot.freeSlot_eq_none (hdir ▸ htr))) (by decide)
  · have hfree : s.boot.freeSlot = some (other dir.active) := hdir ▸ Boot.freeSlot_eq_some htr (hdir ▸ hd)
    exact (fwBegin_row p).sends_accepted hs (opFwBegin_opens (p := asOp p 0x0A01) ha hn hfw hlo hhi h4 hfree)
  -- `FW_DATA`
  · exact (fwData_row p).sends_refused hs (opFwData_closed ha h4 hd hf) (by decide)
  · exact (fwData_row p).sends_refused hs (opFwData_offset ha h4 hd hoff hf he ho) (by decide)
  · exact (fwData_row p).sends_refused hs (opFwData_tooLong ha h4 hd hoff hf he ho ht) (by decide)
  · exact (fwData_row p).sends_refused hs (opFwData_full ha h4 hd hoff hf he ho ht hst) (by decide)
  · exact (fwData_row p).sends_replied hs (opFwData_staged ha h4 hd hoff hf he ho ht hst) (by decide)
  -- `FW_END`
  · exact (fwEnd_row p).sends_refused hs (opFwEnd_closed ha hf) (by decide)
  · exact (fwEnd_row p).sends_replied hs (opFwEnd_incomplete ha hn hf he hinc) (by decide)
  · exact (fwEnd_row p).sends_accepted hs (opFwEnd_complete (p := asOp p 0x0A03) ha hn hf he hcrc hlen htot)
  -- the slot is programmed and checked
  · subst hgot
    intro head verdict second det
    have hverdict (byway : Bool) (im : List Byte) (x : ImageFacts) : s.imageCheck byway im x = verdict byway im x :=
      State.imageCheck_eq s byway im x
    have hdet : s.slotCheck f tp bw = det := by
      simp only [State.slotCheck_eq, hverdict, bywayOffset_eq]
      rfl
    rw [← hdet]
    refine ⟨fun h0 => acts_eq ((execSlotProgramComplete_passed hf hend her h0).trans ?_),
      fun h0 => acts_eq (execSlotProgramComplete_failed hf hend her h0)⟩
    simp only [State.updBoot, hwritten]
    rfl
  -- `FW_ACTIVATE`
  · exact (fwActivate_row p).sends_refused hs (opFwActivate_unknown ha hact hbad) (by decide)
  · exact (fwActivate_row p).sends_refused hs (opFwActivate_trial_enabled ha h1 (s.anyEnabled_iff.2 hen)) (by decide)
  · have hen : s.anyEnabled = false := Bool.eq_false_iff.2 (mt s.anyEnabled_iff.1 hen)
    exact (fwActivate_row p).sends_refused hs (opFwActivate_trial_noSlot ha h1 hen hp) (by decide)
  · have hen : s.anyEnabled = false := Bool.eq_false_iff.2 (mt s.anyEnabled_iff.1 hen)
    refine (fwActivate_row p).sends_replied hs ((opFwActivate_trial (p := asOp p 0x0A04) ha h1 hen hp).trans ?_) (by decide)
    simp only [State.updBoot, hwritten]
    rfl
  · exact (fwActivate_row p).sends_refused hs (opFwActivate_noTrial ha h hnt) (by decide)
  · refine (fwActivate_row p).sends_accepted hs ((opFwActivate_confirm (p := asOp p 0x0A04) ha h2 htr).trans ?_)
    simp only [State.updBoot, hwritten]
    rfl
  · exact (fwActivate_row p).sends_replied hs (opFwActivate_revert ha h3 htr) (by decide)

end Sys2Proof.Machine
end


/-! ## Interrupts (R110, R117) -/
section
namespace Sys2Proof.Machine

/-- A bit of `INTSTAT` that sets sends its vector: it was clear, MSI-X is enabled, and its bit of `INTMASK` is set. -/
def HostIf.signals (h : HostIf) (b : Fin 32) : Prop :=
  h.intstat &&& 1#32 <<< b.val = 0 ∧ h.msixEnabled = true ∧ h.intmask &&& 1#32 <<< b.val ≠ 0

theorem State.setInt_quiet {s : State} {b : Fin 32} (h : ¬ s.host.signals b) (v : Fin 32) :
    s.setInt b v = s.updHost fun h => { h with intstat := h.intstat ||| 1#32 <<< b.val } := by
  simp only [State.setInt, State.updHost]
  rw [if_neg]
  simpa [HostIf.signals, and_assoc] using h

theorem State.setInt_signals {s : State} {b : Fin 32} (h : s.host.signals b) (v : Fin 32) :
    s.setInt b v = s.updHost fun h => { h with intstat := h.intstat ||| 1#32 <<< b.val }.sendVector v := by
  simp only [State.setInt, State.updHost]
  rw [if_pos]
  simpa [HostIf.signals, and_assoc] using h

/-- The bit is set, and nothing but interrupts is touched. -/
theorem State.setInt_frame (s : State) (b v : Fin 32) :
    (s.setInt b v).host.intstat = s.host.intstat ||| 1#32 <<< b.val
      ∧ s.setInt b v = { s with host := { s.host with
          intstat := (s.setInt b v).host.intstat, msix := (s.setInt b v).host.msix, msixPba := (s.setInt b v).host.msixPba } } := by
  by_cases h : s.host.signals b
  · simp only [State.setInt_signals h v, State.updHost]
    unfold HostIf.sendVector
    split <;> exact ⟨rfl, rfl⟩
  · rw [State.setInt_quiet h v]
    exact ⟨rfl, rfl⟩

/-- The vector is sent once. -/
theorem State.setInt_sent {s : State} {b v : Fin 32} (h : s.host.signals b) (hm : s.host.vecMasked v = false) :
    (s.setInt b v).host.msix = s.host.msix.set v (s.host.msix[v] + 1) ∧ (s.setInt b v).host.msixPba = s.host.msixPba := by
  simp only [State.setInt_signals h v, State.updHost_host, HostIf.sendVector]
  rw [if_neg]
  · exact ⟨rfl, rfl⟩
  · exact Bool.eq_false_iff.1 hm

/-- A masked vector is pending. -/
theorem State.setInt_pending {s : State} {b v : Fin 32} (h : s.host.signals b) (hm : s.host.vecMasked v = true) :
    (s.setInt b v).host.msix = s.host.msix ∧ (s.setInt b v).host.msixPba = s.host.msixPba ||| 1#32 <<< v.val := by
  simp only [State.setInt_signals h v, State.updHost_host, HostIf.sendVector]
  rw [if_pos]
  · exact ⟨rfl, rfl⟩
  · exact hm

/-- Nothing is sent. -/
theorem State.setInt_silent {s : State} {b : Fin 32} (h : ¬ s.host.signals b) (v : Fin 32) :
    (s.setInt b v).host.msix = s.host.msix ∧ (s.setInt b v).host.msixPba = s.host.msixPba := by
  rw [State.setInt_quiet h v]
  exact ⟨rfl, rfl⟩

end Sys2Proof.Machine
end

/-! ## The end of a session (R104, R106): no effect of a fault opens one -/
section
namespace Sys2Proof.Machine

/-- `t` has no session that `s` does not have. -/
def OpensNone (s t : State) : Prop := ∀ src, s.session src = none → t.session src = none

theorem OpensNone.refl (s : State) : OpensNone s s := fun _ h => h

theorem OpensNone.trans {s t u : State} (h : OpensNone s t) (g : OpensNone t u) : OpensNone s u := fun src hs => g src (h src hs)

theorem OpensNone.foldl {α : Type} (l : List α) (f : State → α → State) (h : ∀ s x, OpensNone s (f s x)) (s : State) :
    OpensNone s (l.foldl f s) := by
  induction l generalizing s with
  | nil => exact .refl s
  | cons x l ih => exact (h s x).trans (ih _)

/-- An effect that leaves the host interface alone. -/
theorem OpensNone.of_host {s t : State} (h : t.host = s.host) : OpensNone s t := by
  intro src hs
  cases src <;> simpa only [State.session, h] using hs

theorem OpensNone.updAxis (s : State) (i : Fin 512) (f : Axis → Axis) : OpensNone s (s.updAxis i f) := .of_host rfl
theorem OpensNone.updPort (s : State) (p : Fin 64) (f : Port → Port) : OpensNone s (s.updPort p f) := .of_host rfl
theorem OpensNone.updBus (s : State) (b : Fin 8) (f : Bus → Bus) : OpensNone s (s.updBus b f) := .of_host rfl
theorem OpensNone.updFaults (s : State) (f : Faults → Faults) : OpensNone s (s.updFaults f) := .of_host rfl

/-! ### Packets to the host -/

theorem State.setInt_opensNone (s : State) (b v : Fin 32) : OpensNone s (s.setInt b v) := by
  intro src hs
  rw [(s.setInt_frame b v).2]
  exact hs

theorem State.updQueue_opensNone (s : State) (q : Fin 16) (f : Queue → Queue) : OpensNone s (s.updQueue q f) := fun _ h => h

theorem State.coalesce_opensNone (s : State) (q : Fin 16) : OpensNone s (s.coalesce q) := by
  unfold State.coalesce
  dsimp only
  split
  · exact (State.updQueue_opensNone s q _).trans (State.setInt_opensNone _ _ _)
  · exact .refl s

theorem State.toQueue_opensNone (s : State) (q : Fin 16) (o : OutPkt) : OpensNone s (s.toQueue q o) := by
  unfold State.toQueue
  dsimp only
  split
  · split
    · exact State.updQueue_opensNone s q _
    · exact .refl s
  · split
    · exact (State.updQueue_opensNone s q _).trans (State.coalesce_opensNone _ _)
    · exact State.updQueue_opensNone s q _

theorem State.emit_opensNone (s : State) (src : Src) (o : OutPkt) : OpensNone s (s.emit src o) := by
  cases src with
  | pcie q => exact State.toQueue_opensNone s q o
  | qspi => exact fun _ h => h
  | leader => exact fun _ h => h

theorem State.emitTo_opensNone (s : State) (r : CmdRef) (o : OutPkt) : OpensNone s (s.emitTo r o) := by
  unfold State.emitTo
  split
  · exact State.emit_opensNone s _ _
  · exact .refl s

/-- A session that is open is written anew. -/
theorem State.setSession_opensNone {s : State} {src : Src} {x : Session} (hs : s.session src = some x) (y : Option Session) :
    OpensNone s (s.setSession src y) := by
  intro src' h
  cases src with
  | pcie q => cases src' with
    | pcie _ => exact absurd (hs.symm.trans h) (by simp)
    | qspi | leader => exact h
  | qspi => cases src' with
    | qspi => exact absurd (hs.symm.trans h) (by simp)
    | pcie _ | leader => exact h
  | leader => cases src' with
    | leader => exact absurd (hs.symm.trans h) (by simp)
    | pcie _ | qspi => exact h

theorem State.complete_opensNone (s : State) (r : CmdRef) (st : Status) (det t : Nat) (x : List Byte) :
    OpensNone s (s.complete r st det t x) := by
  unfold State.complete
  split
  · exact .refl s
  · next hs =>
    split
    · exact .refl s
    · exact (State.setSession_opensNone hs _).trans (State.emitTo_opensNone _ _ _)

theorem State.complete?_opensNone (s : State) (r : Option CmdRef) (st : Status) (det t : Nat) :
    OpensNone s (s.complete? r st det t) := by
  cases r with
  | none => exact .refl s
  | some r => exact State.complete_opensNone s r st det t []

theorem State.completeAll_opensNone (s : State) (l : List CmdRef) (st : Status) (det : Nat) :
    OpensNone s (s.completeAll l st det) :=
  OpensNone.foldl l _ (fun s r => State.complete_opensNone s r st det s.now []) s

theorem State.eventTo_opensNone (s : State) (src : Src) (op ax : Nat) (b : List Byte) (path : BitVec 32) :
    OpensNone s (s.eventTo src op ax b path) := by
  unfold State.eventTo
  split
  · exact .refl s
  · next hs =>
    split
    · exact .refl s
    · dsimp only
      split
      · exact State.setSession_opensNone hs _
      · exact (State.setSession_opensNone hs _).trans (State.emit_opensNone _ _ _)

theorem State.event_opensNone (s : State) (op ax : Nat) (b : List Byte) : OpensNone s (s.event op ax b) := by
  unfold State.event
  split
  · exact .refl s
  · exact ((State.eventTo_opensNone s _ _ _ _ _).trans (State.eventTo_opensNone _ _ _ _ _ _)).trans
      (State.eventTo_opensNone _ _ _ _ _ _)

/-! ### Ends of commands -/

theorem State.finishMotion?_opensNone (s : State) (i : Fin 512) (m : Option MotionCmd) (st : Status) (det : Nat) :
    OpensNone s (s.finishMotion? i m st det) := by
  cases m with
  | none => exact .refl s
  | some m =>
    show OpensNone s (s.finishMotion i m st det)
    unfold State.finishMotion
    split
    · exact .refl s
    · exact (State.complete?_opensNone s _ _ _ _).trans (State.event_opensNone _ _ _ _)

theorem State.endMotion_opensNone (s : State) (i : Fin 512) (st : Status) (det : Nat) : OpensNone s (s.endMotion i st det) :=
  ((State.finishMotion?_opensNone s i _ st det).trans (State.finishMotion?_opensNone _ i _ st det)).trans (OpensNone.updAxis _ _ _)

theorem State.endStop_opensNone (s : State) (i : Fin 512) (st : Status) (det : Nat) : OpensNone s (s.endStop i st det) :=
  (State.finishMotion?_opensNone s i _ st det).trans (OpensNone.updAxis _ _ _)

theorem State.endEnable_opensNone (s : State) (i : Fin 512) (st : Status) (det : Nat) : OpensNone s (s.endEnable i st det) := by
  unfold State.endEnable
  split
  · exact .refl s
  · exact (State.completeAll_opensNone s _ _ _).trans (OpensNone.updAxis _ _ _)

theorem State.endDisable_opensNone (s : State) (i : Fin 512) (st : Status) (det : Nat) : OpensNone s (s.endDisable i st det) :=
  (State.completeAll_opensNone s _ _ _).trans (OpensNone.updAxis _ _ _)

theorem State.clearHold_opensNone (s : State) (i : Fin 512) : OpensNone s (s.clearHold i) := .of_host rfl

theorem State.enterFault_opensNone (s : State) (i : Fin 512) : OpensNone s (s.enterFault i) :=
  ((((State.endMotion_opensNone s i _ _).trans (State.endStop_opensNone _ i _ _)).trans (State.endEnable_opensNone _ i _ _)).trans
    (State.endDisable_opensNone _ i _ _)).trans ((State.clearHold_opensNone _ i).trans (OpensNone.updAxis _ _ _))

theorem State.startStop_opensNone (s : State) (i : Fin 512) (k : StopKind) (det : Nat) : OpensNone s (s.startStop i k det) := by
  unfold State.startStop
  dsimp only
  refine OpensNone.trans ?_ (OpensNone.updAxis _ _ _)
  split
  · exact .refl s
  · exact State.endMotion_opensNone s i _ _

theorem State.energiseStart_opensNone (s : State) (i : Fin 512) : OpensNone s (s.energiseStart i) := by
  unfold State.energiseStart
  split
  · exact OpensNone.updPort _ _ _
  · exact .refl s

theorem State.prereqChange_opensNone (s : State) (i : Fin 512) : OpensNone s (s.prereqChange i) := by
  unfold State.prereqChange
  dsimp only
  split
  · exact .refl s
  · split
    · refine OpensNone.trans ?_ (OpensNone.updAxis _ _ _)
      split
      · exact State.energiseStart_opensNone s i
      · exact .refl s
    · refine OpensNone.trans ?_ (OpensNone.updAxis _ _ _)
      split
      · split
        · exact .refl s
        · exact State.endEnable_opensNone s i _ _
      · exact State.endEnable_opensNone s i _ _
    · exact .refl s

/-! ### Faults -/

theorem State.logRec_opensNone (s : State) (r : FaultRec) : OpensNone s (s.logRec r) :=
  (OpensNone.updFaults s _).trans (State.event_opensNone _ _ _ _)

theorem State.makeRoom_opensNone (s : State) (c : Nat) : OpensNone s (s.makeRoom c) := by
  unfold State.makeRoom
  split
  · exact .refl s
  · split
    · exact (OpensNone.updFaults s _).trans (State.logRec_opensNone _ _)
    · exact .refl s

theorem State.enterActive_opensNone (s : State) (r : FaultRec) : OpensNone s (s.enterActive r).1 := by
  unfold State.enterActive
  dsimp only
  split
  · exact (State.makeRoom_opensNone s _).trans (OpensNone.updFaults _ _)
  · exact State.makeRoom_opensNone s _

theorem State.record_opensNone (s : State) (a : FaultArg) (m : Bool) : OpensNone s (s.record a m) :=
  (State.enterActive_opensNone s _).trans (State.logRec_opensNone _ _)

theorem State.reactAxis_opensNone (s : State) (cls : Nat) (i : Fin 512) : OpensNone s (s.reactAxis cls i) := by
  unfold State.reactAxis
  dsimp only
  split
  · exact .refl s
  · split
    · exact .refl s
    · exact .refl s
    · exact State.enterFault_opensNone s i
    · exact State.enterFault_opensNone s i
    · exact State.enterFault_opensNone s i
    · split
      · exact State.enterFault_opensNone s i
      · exact (State.startStop_opensNone s i _ _).trans (OpensNone.updAxis _ _ _)
    · split
      · exact State.enterFault_opensNone s i
      · exact (State.startStop_opensNone s i _ _).trans (OpensNone.updAxis _ _ _)
    · split
      · exact State.enterFault_opensNone s i
      · refine OpensNone.trans ?_ ((State.startStop_opensNone _ i _ _).trans (OpensNone.updAxis _ _ _))
        split
        · exact .refl s
        · exact State.endStop_opensNone s i _ _

theorem State.requestOff_opensNone (s : State) (r : FaultRec) : OpensNone s (s.requestOff r) := by
  unfold State.requestOff
  split
  · exact .refl s
  · refine OpensNone.foldl _ _ (fun s p => ?_) s
    split
    · exact OpensNone.updPort _ _ _
    · exact .refl _

theorem State.c5Port_opensNone (s : State) (p : Fin 64) : OpensNone s (s.c5Port p) := by
  unfold State.c5Port
  split
  · split
    · exact OpensNone.updPort _ _ _
    · dsimp only
      split
      · exact OpensNone.updFaults _ _
      · exact State.record_opensNone _ _ _
  · exact .refl s

theorem State.c5Group_opensNone (s : State) (b : Fin 8) : OpensNone s (s.c5Group b) :=
  (OpensNone.foldl _ _ State.c5Port_opensNone s).trans (OpensNone.updBus _ _ _)

theorem State.react_opensNone (s : State) (r : FaultRec) : OpensNone s (s.react r) := by
  refine ((State.requestOff_opensNone s r).trans (OpensNone.foldl _ _ State.c5Group_opensNone _)).trans
    (OpensNone.foldl _ _ (fun s i => ?_) _)
  split
  · exact State.reactAxis_opensNone _ _ _
  · exact .refl _

theorem State.afterClear_opensNone (s : State) : OpensNone s s.afterClear := by
  refine ((OpensNone.trans (OpensNone.foldl _ _ (fun s p => OpensNone.updPort _ _ _) s) (OpensNone.foldl _ _ (fun s i => ?_) _)).trans
    (OpensNone.foldl _ _ (fun s b => ?_) _)).trans (OpensNone.foldl _ _ State.prereqChange_opensNone _)
  · split
    · exact OpensNone.updAxis _ _ _
    · exact .refl _
  · split
    · exact OpensNone.updBus _ _ _
    · exact .refl _

theorem State.raiseOne_opensNone (s : State) (a : FaultArg) : OpensNone s (s.raiseOne a) := by
  unfold State.raiseOne
  split
  · dsimp only
    split
    · exact (OpensNone.updFaults s _).trans (State.react_opensNone _ _)
    · exact OpensNone.updFaults s _
  · have hu := (State.record_opensNone s a (allAxes.any fun i => s.reachesAxis (a.probe s.now) i && s.merges i a.cls)).trans
      (State.react_opensNone _ (a.probe s.now))
    dsimp only
    split
    · exact hu.trans (State.afterClear_opensNone _)
    · exact hu

/-- Raising a fault opens no session. -/
theorem State.raise_opensNone (s : State) (a : FaultArg) : OpensNone s (s.raise a) := by
  unfold State.raise
  split
  · exact OpensNone.updFaults s _
  · exact (State.raiseOne_opensNone s a).trans (OpensNone.foldl _ _ (fun s v => State.raiseOne_opensNone s _) _)

/-! ### What the end of a session leaves of the boot state -/

theorem Reacts.boot {s t : State} (h : Reacts s t) : t.boot = s.boot := h.same.2.2.1

theorem State.startEnable_reacts (s : State) (i : Fin 512) (op : EnableOp) : Reacts s (s.startEnable i op) := by
  unfold State.startEnable
  dsimp only
  split
  · refine Reacts.trans ?_ (Reacts.updAxis _ _ _)
    split
    · exact .refl s
    · exact State.energiseStart_reacts s i
  · exact Reacts.updAxis _ _ _
  · exact .refl s

theorem State.releaseEnable_reacts (s : State) (i : Fin 512) : Reacts s (s.releaseEnable i) := by
  unfold State.releaseEnable
  split
  · exact .refl s
  · split
    · exact State.endEnable_reacts s i _ _
    · dsimp only
      split
      · exact Reacts.foldl _ _ (fun s j => State.endEnable_reacts s j _ _) s
      · refine Reacts.foldl _ _ (fun s x => ?_) s
        split
        · exact (Reacts.updAxis _ _ _).trans (State.startEnable_reacts _ _ _)
        · exact State.endEnable_reacts _ _ _ _

@[simp] theorem State.setSession_boot (s : State) (src : Src) (x : Option Session) : (s.setSession src x).boot = s.boot := rfl

@[simp] theorem State.tellMembers_boot (s : State) (p : Packet) : (s.tellMembers p).boot = s.boot := rfl

@[simp] theorem State.releaseEnables_boot (s : State) : s.releaseEnables.boot = s.boot :=
  (Reacts.foldl _ _ State.releaseEnable_reacts s).boot

theorem State.dropDraft_boot (s : State) (sid : Nat) : (s.dropDraft sid).boot = s.boot := by
  unfold State.dropDraft
  split
  · rfl
  · split
    · rfl
    · split
      · split
        · rw [State.tellMembers_boot, State.releaseEnables_boot, State.updCfg_boot]
        · rfl
      · rw [State.tellMembers_boot, State.updCfg_boot]

theorem State.foldl_boot {α : Type} (l : List α) (f : State → α → State) (h : ∀ s x, (f s x).boot = s.boot) (s : State) :
    (l.foldl f s).boot = s.boot := by
  induction l generalizing s with
  | nil => rfl
  | cons x l ih => exact (ih _).trans (h s x)

theorem State.dropSession_boot (s : State) (src : Src) (x : Session) : (s.dropSession src x).boot = s.boot := by
  unfold State.dropSession
  rw [State.setSession_boot, State.updNet_boot, State.foldl_boot]
  · dsimp only
    rw [State.updCfg_boot, State.dropDraft_boot, State.updHost_boot]
  · intro s p
    split
    · split <;> rfl
    · rfl

/-- The end of a session leaves the boot state alone. -/
theorem State.endSession_boot (s : State) (src : Src) (lost : Bool) : (s.endSession src lost).boot = s.boot := by
  unfold State.endSession
  split
  · rfl
  · dsimp only
    split
    · rw [State.updNet_boot, (State.raise_reacts _ _).boot, State.dropSession_boot]
    · exact State.dropSession_boot _ _ _

theorem State.session_setSession_none (s : State) (src : Src) : (s.setSession src none).session src = none := by
  cases src <;> rfl

/-- The session of the transport has ended, whatever the fault of its loss brings about (R104, R106). -/
theorem State.session_endSession (s : State) (src : Src) (lost : Bool) : (s.endSession src lost).session src = none := by
  unfold State.endSession
  split
  · assumption
  · next x _ =>
    have hdrop : (s.dropSession src x).session src = none := State.session_setSession_none _ src
    dsimp only
    split
    · exact ((State.raise_opensNone _ _).trans (.of_host (State.updNet_host _ _))) src hdrop
    · exact hdrop

theorem State.endSession_of_none {s : State} {src : Src} (h : s.session src = none) (lost : Bool) : s.endSession src lost = s := by
  simp only [State.endSession, h]

end Sys2Proof.Machine
end


/-! ## The endpoint's registers and the QSPI slave (R10, R11, R109, R110, R117 to R119, R121 to R124) -/
section
namespace Sys2Proof.Machine

/-! ### Registers (R11, R110) -/

section
variable {off : BitVec 16} {v : Word} {s : State}

theorem execRegisterWrite_scratch (h : off = 0x28#16) :
    execRegisterWrite .bar0 off 4 v s = s.main (s.updHost fun h => { h with scratch := v }) := by
  subst h
  rfl

theorem execRegisterWrite_intstat (h : off = 0x2000#16) :
    execRegisterWrite .bar0 off 4 v s = s.main (s.updHost fun h => { h with intstat := h.intstat &&& ~~~v }) := by
  subst h
  rfl

theorem execRegisterWrite_intmask (h : off = 0x2004#16) :
    execRegisterWrite .bar0 off 4 v s = s.main (s.updHost fun h => { h with intmask := v &&& 0xFFFFF#32 }) := by
  subst h
  rfl

/-- `QSTAT` is the last word of a queue pair; its error bits clear where 1 is written (Tables 3.16, 3.18). -/
theorem execRegisterWrite_qstat {q : Fin 16} (h : off.toNat = 0x11C + 32 * q.val) :
    execRegisterWrite .bar0 off 4 v s = s.main (s.updQueue q fun k =>
      { k with frameErr := k.frameErr && !v.getLsbD 1, dmaErr := k.dmaErr && !v.getLsbD 2, cfgErr := k.cfgErr && !v.getLsbD 3 }) := by
  have halign : off.toNat % 4 = 0 := by omega
  have ho : off.toNat / 4 * 4 = 0x11C + 32 * q.val := by omega
  have hq : (0x11C + 32 * q.val - 0x100) / 32 % 16 = q.val := by omega
  have hr : (0x11C + 32 * q.val - 0x100) % 32 / 4 = 7 := by omega
  have h28 : ¬ 0x11C + 32 * q.val = 0x28 := by omega
  have hin : 0x100 ≤ 0x11C + 32 * q.val ∧ 0x11C + 32 * q.val < 0x300 := by omega
  simp only [execRegisterWrite, halign, ho, hq, hr, if_neg h28, if_pos hin]
  rfl

/-- Every access to BAR0 but an aligned one of 32 bits is discarded, and so is one to a word that cannot be written (R110). -/
theorem execRegisterWrite_discarded {size : BitVec 4} (h : 0x3000 ≤ off.toNat ∨ off.toNat < 0x28 ∨ size ≠ 4#4 ∨ off.toNat % 4 ≠ 0) :
    execRegisterWrite .bar0 off size v s = s.main s := by
  by_cases hbad : size ≠ 4 ∨ off.toNat % 4 ≠ 0
  · simp only [execRegisterWrite, if_pos hbad]
  · obtain ⟨hsize, halign⟩ := not_or.1 hbad
    have hrange : 0x3000 ≤ off.toNat ∨ off.toNat < 0x28 := by
      rcases h with h | h | h | h
      · exact .inl h
      · exact .inr h
      · exact absurd h hsize
      · exact absurd h halign
    have h28 : ¬ off.toNat / 4 * 4 = 0x28 := by omega
    have hq : ¬ (0x100 ≤ off.toNat / 4 * 4 ∧ off.toNat / 4 * 4 < 0x300) := by omega
    have h2000 : ¬ off.toNat / 4 * 4 = 0x2000 := by omega
    have h2004 : ¬ off.toNat / 4 * 4 = 0x2004 := by omega
    simp only [execRegisterWrite, if_neg hbad, if_neg h28, if_neg hq, if_neg h2000, if_neg h2004]

theorem execRegisterWrite_msixControl (off : BitVec 16) (size : BitVec 4) (h : 6 ≤ s.boot.stage ∨ s.boot.recovery = true) :
    execRegisterWrite .msixControl off size v s =
      s.main (s.updHost fun h => { h with msixEnabled := v.getLsbD 15, msixMask := v.getLsbD 14 }.sendPending) := by
  have hretry : s.pcieRetry = false := by
    rcases h with h | h
    · simp [State.pcieRetry, Nat.not_lt.2 h]
    · simp [State.pcieRetry, h]
  simp [execRegisterWrite, hretry]

/-- Configuration requests are retried before step 6 (Table 2.9). -/
theorem execRegisterWrite_msixControl_retried (off : BitVec 16) (size : BitVec 4) (hst : s.boot.stage < 6) (hrec : s.boot.recovery = false) :
    execRegisterWrite .msixControl off size v s = s.main s := by
  simp [execRegisterWrite, State.pcieRetry, hst, hrec]

theorem execRegisterWrite_bar2 (size : BitVec 4) {j : Fin 128} (h : off.toNat / 4 = j.val) :
    execRegisterWrite .bar2 off size v s = s.main (s.updHost fun h => { h with msixTable := h.msixTable.set j v }.sendPending) := by
  have hj : off.toNat / 4 * 4 / 4 = j.val := by omega
  simp [execRegisterWrite, hj, fin?, upd]

end

theorem State.bar0Read_unaligned (s : State) {off size : Nat} (h : size ≠ 4 ∨ off % 4 ≠ 0) : s.bar0Read off size = 0xFFFFFFFF := by
  simp only [State.bar0Read, if_pos h]

/-! ### A reset of the link (R118) -/

/-- Noting `DEVSTAT` touches interrupts only (Table 3.20). -/
theorem State.noteDevstat_frame (s : State) : s.noteDevstat.boot = s.boot ∧ s.noteDevstat.host.pcie = s.host.pcie
    ∧ s.noteDevstat.host.qspiSes = s.host.qspiSes := by
  unfold State.noteDevstat
  dsimp only
  split
  · exact ⟨rfl, rfl, rfl⟩
  · rw [((s.updHost fun h => { h with devstatSeen := s.devstat % 32 }).setInt_frame 16 31).2]
    exact ⟨rfl, rfl, rfl⟩

/-- A queue that has been disabled (R113): it is not active, owes no replies, and `EN` is clear. -/
theorem Queue.disable_off (k : Queue) (v : Word) :
    (k.disable v).active = false ∧ (k.disable v).held.all (·.event) = true ∧ (k.disable v).qcfg.getLsbD 15 = false := by
  refine ⟨rfl, ?_, ?_⟩
  · simp [Queue.disable, List.all_eq_true]
  · simp [Queue.disable]

theorem execPcieLinkReset_eq (up : Bool) (s : State) :
    execPcieLinkReset up s = s.main ((s.endSession (.pcie 0) true).noteDevstat.updHost fun h =>
      { h with
        pcieUp := up, queues := h.queues.map (fun k => k.disable k.qcfg), intstat := 0, intmask := 0, msixPba := 0 }) := rfl

theorem State.endSession_noteDevstat_pcie (s : State) (lost : Bool) : (s.endSession (.pcie 0) lost).noteDevstat.host.pcie = none := by
  obtain ⟨-, hp, -⟩ := State.noteDevstat_frame (s.endSession (.pcie 0) lost)
  exact hp.trans (State.session_endSession s (.pcie 0) lost)

/-! ### The QSPI slave (R121 to R124) -/

theorem State.qspiReady_iff (s : State) : s.qspiReady = true ↔ s.boot.ready = true ∨ s.boot.recovery = true := by
  simp [State.qspiReady]

theorem State.rxFree_empty {s : State} (h : s.host.behind = []) : s.rxFree = 16384 := by
  simp [State.rxFree, h]

theorem State.rxFree_le (s : State) : s.rxFree ≤ 16384 := Nat.sub_le _ _

theorem State.receiveOrWait_unblocked {s : State} {src : Src} (h : s.blocked src = false) (b : List Byte) :
    s.receiveOrWait src b = s.receive src b := by
  simp [State.receiveOrWait, h]

/-- What arrives while a synchronous reply is owed waits (R86). -/
theorem State.receiveOrWait_blocked {s : State} {src : Src} (h : s.blocked src = true) (b : List Byte) :
    s.receiveOrWait src b = s.updHost fun h => { h with behind := h.behind ++ [.bytes src b] } := by
  simp [State.receiveOrWait, h]

/-- A packet of the right size that the receive buffer has room for is received (R122). -/
theorem execQspiWrite_taken {b : List Byte} {s : State} (hr : s.qspiReady = true) (h20 : 20 ≤ b.length) (hlen : b.length = 20 + u16 b 8)
    (hfree : b.length ≤ s.rxFree) : execQspiWrite b s = s.main (s.receiveOrWait .qspi b) := by
  have hne : (b.length != 20 + u16 b 8) = false := by simpa using hlen
  simp only [execQspiWrite, hr, hne, Nat.not_lt.2 h20, Nat.not_lt.2 hfree]
  rfl

/-- Any other one is discarded (R122). -/
theorem execQspiWrite_dropped {b : List Byte} {s : State}
    (h : s.qspiReady = false ∨ b.length < 20 ∨ b.length ≠ 20 + u16 b 8 ∨ s.rxFree < b.length) :
    execQspiWrite b s = s.main (s.updQspi fun q => { q with drop := true }) := by
  rw [execQspiWrite, if_pos]
  simpa [or_assoc] using h

/-- The bytes that `n` clocked bytes of a packet show: zeros follow its last byte (R123). -/
def OutPkt.shown (o : OutPkt) (n : Nat) : List Byte := o.bytes.take n ++ List.replicate (n - o.size) 0#8

/-- A packet that has been clocked whole leaves the outgoing packets (R123). -/
theorem execQspiRead_whole {s : State} {o : OutPkt} {rest : List OutPkt} {n : BitVec 16} (htx : s.host.qspi.tx = o :: rest)
    (h : o.size ≤ n.toNat) :
    execQspiRead n s = s.main (s.updQspi fun q => { q with data := o.shown n.toNat, tx := rest, last := some o }) := by
  simp [execQspiRead, State.updQspi, State.updHost, htx, h, OutPkt.shown, zeros]

/-- A shorter read leaves the packet in place (R123). -/
theorem execQspiRead_part {s : State} {o : OutPkt} {rest : List OutPkt} {n : BitVec 16} (htx : s.host.qspi.tx = o :: rest)
    (h : n.toNat < o.size) : execQspiRead n s = s.main (s.updQspi fun q => { q with data := o.shown n.toNat }) := by
  simp [execQspiRead, State.updQspi, State.updHost, htx, Nat.not_le.2 h, OutPkt.shown, zeros]

theorem execQspiRead_empty {s : State} (n : BitVec 16) (htx : s.host.qspi.tx = []) :
    execQspiRead n s = s.main (s.updQspi fun q => { q with data := List.replicate n.toNat 0#8 }) := by
  simp [execQspiRead, State.updQspi, State.updHost, htx, zeros]

theorem execQspiReadAgain_last {s : State} {o : OutPkt} (n : BitVec 16) (h : s.host.qspi.last = some o) :
    execQspiReadAgain n s = s.main (s.updQspi fun q => { q with data := o.shown n.toNat }) := by
  simp [execQspiReadAgain, State.updQspi, State.updHost, h, OutPkt.shown, zeros]

theorem b2n_le_one (b : Bool) : b2n b ≤ 1 := by cases b <;> decide

theorem b2n_eq_one (b : Bool) : b2n b = 1 ↔ b = true := by cases b <;> decide

/-- The fields of the status word, where the next packet's size fits its field (Table 3.24). -/
theorem State.qspiStatus_fields (s : State) (h : (s.host.qspi.tx.head?.map OutPkt.size).getD 0 < 8192) :
    let w := s.qspiStatus
    w < 2 ^ 32 ∧ w % 65536 = s.rxFree ∧ w / 65536 % 8192 = (s.host.qspi.tx.head?.map OutPkt.size).getD 0
      ∧ w / 2 ^ 29 % 2 = b2n s.qspiReady ∧ w / 2 ^ 30 % 2 = b2n s.host.qspi.drop ∧ w / 2 ^ 31 = b2n s.boot.recovery := by
  have hfree := s.rxFree_le
  have hready := b2n_le_one s.qspiReady
  have hdrop := b2n_le_one s.host.qspi.drop
  have hrec := b2n_le_one s.boot.recovery
  have hw : s.qspiStatus = s.rxFree + (s.host.qspi.tx.head?.map OutPkt.size).getD 0 * 2 ^ 16 + b2n s.qspiReady * 2 ^ 29
    + b2n s.host.qspi.drop * 2 ^ 30 + b2n s.boot.recovery * 2 ^ 31 := rfl
  simp only [hw]
  omega

theorem qspiCommand_of_ne {c : Byte} (h1 : c ≠ 0x10) (h2 : c ≠ 0x20) (h3 : c ≠ 0x21) (h4 : c ≠ 0x30) : qspiCommand c = none := by
  simp only [qspiCommand, if_neg h1, if_neg h2, if_neg h3, if_neg h4]

theorem execQspiUnknownCommand_dropped {c : Byte} (s : State) (h : qspiCommand c = none) :
    execQspiUnknownCommand c s = s.main (s.updQspi fun q => { q with drop := true }) := by
  simp [execQspiUnknownCommand, h]

/-! ### The statement -/

/-- Settles O11: each register, interrupt and QSPI transaction by the equation of its row; that a reset of the link leaves no PCIe session
rests on `State.session_endSession`. -/
theorem endpointAndQspi : Obligations.EndpointAndQspi := by
  refine ⟨?registers, ?interrupts, ?qspi⟩
  case registers =>
    intro s up q m k off size v j h put region
    refine ⟨acts_of_main rfl ⟨_, rfl, rfl⟩, acts_eq rfl, acts_of_main (execPcieLinkReset_eq up s) ?reset,
      fun ho => acts_eq (execRegisterWrite_scratch ho), fun ho => acts_eq (execRegisterWrite_intstat ho),
      fun ho => acts_eq (execRegisterWrite_intmask ho), fun ho => acts_of_main (execRegisterWrite_qstat ho) ⟨_, rfl, rfl⟩,
      fun ho => ⟨acts_eq (execRegisterWrite_discarded ho), State.bar0Read_unaligned s⟩,
      fun hst => acts_eq (execRegisterWrite_msixControl off size hst),
      fun hst hrec => acts_eq (execRegisterWrite_msixControl_retried off size hst hrec),
      fun ho => acts_eq (execRegisterWrite_bar2 size ho), acts_eq rfl, acts_eq rfl⟩
    obtain ⟨hboot, -, hqspi⟩ := (s.endSession (.pcie 0) true).noteDevstat_frame
    refine ⟨s.endSession_noteDevstat_pcie true, rfl, rfl, rfl, rfl, fun j => ?_, fun hnone => ?_, hboot.trans (s.endSession_boot _ _)⟩
    · simpa using Queue.disable_off ((s.endSession (.pcie 0) true).noteDevstat.host.queues[j]) _
    · exact hqspi.trans (by rw [State.endSession_of_none (src := .pcie 0) hnone])
  case interrupts =>
    intro s b vec t w masked sends
    obtain ⟨hstat, hframe⟩ := s.setInt_frame b vec
    exact ⟨hstat, hframe, State.setInt_sent, State.setInt_pending, fun h => State.setInt_silent h vec⟩
  case qspi =>
    intro s b n o rest q put shown ready
    refine ⟨fun hr h20 hlen hfree => ?write, State.rxFree_empty, fun hbad => ?drop,
      fun htx => ⟨fun hn => acts_eq (execQspiRead_whole htx hn), fun hn => acts_eq (execQspiRead_part htx hn)⟩,
      fun htx => acts_eq (execQspiRead_empty n htx), fun hlast => acts_eq (execQspiReadAgain_last n hlast), ?status,
      fun c h1 h2 h3 h4 => acts_eq (execQspiUnknownCommand_dropped s (qspiCommand_of_ne h1 h2 h3 h4))⟩
    case write =>
      have hx := execQspiWrite_taken (s.qspiReady_iff.2 hr) h20 hlen hfree
      exact ⟨fun hb => acts_eq (hx.trans (by rw [State.receiveOrWait_unblocked hb])),
        fun hb => acts_eq (hx.trans (by rw [State.receiveOrWait_blocked hb]; rfl))⟩
    case drop => exact acts_eq (execQspiWrite_dropped (hbad.imp_left fun h => Bool.eq_false_iff.2 (mt s.qspiReady_iff.1 h)))
    case status =>
      refine acts_of_main (u := s.updQspi fun q =>
        { q with drop := false, data := leBytes 4 s.qspiStatus ++ leBytes 4 (crc32c (leBytes 4 s.qspiStatus)).toNat }) rfl
        ⟨rfl, ?_, ?_, ?_⟩
      · exact (List.length_append ..).trans (congrArg₂ (· + ·) (length_leBytes 4 _) (length_leBytes 4 _))
      · intro w next hnext
        obtain ⟨hlt, hfree, hsize, hready, hdrop, hrec⟩ := s.qspiStatus_fields hnext
        have hw : w = s.qspiStatus := u32_leBytes_append _ hlt
        rw [hw, hready, hdrop, hrec, b2n_eq_one, b2n_eq_one, b2n_eq_one]
        exact ⟨hfree, hsize, s.qspiReady_iff, .rfl, .rfl⟩
      · show u32 (leBytes 4 s.qspiStatus ++ _) 4 = (crc32c ((leBytes 4 s.qspiStatus ++ _).take 4)).toNat
        rw [List.take_left' (length_leBytes 4 _)]
        exact u32_leBytes_leBytes (BitVec.isLt _)

end Sys2Proof.Machine
end

/-! ## Crossroads when Byway crashes (R64, R73, R76): recovery mode stores nothing there -/
section
namespace Sys2Proof.Machine

/-! ### What leaves Crossroads and recovery mode alone -/

/-- Crossroads and recovery mode are as they were. -/
def KeepsXr (s t : State) : Prop := t.xr = s.xr ∧ t.boot.recovery = s.boot.recovery

theorem KeepsXr.refl (s : State) : KeepsXr s s := ⟨rfl, rfl⟩

theorem KeepsXr.trans {s t u : State} (h : KeepsXr s t) (g : KeepsXr t u) : KeepsXr s u := ⟨g.1.trans h.1, g.2.trans h.2⟩

theorem KeepsXr.foldl {α : Type} (l : List α) (f : State → α → State) (h : ∀ s x, KeepsXr s (f s x)) (s : State) :
    KeepsXr s (l.foldl f s) := by
  induction l generalizing s with
  | nil => exact .refl s
  | cons x l ih => exact (h s x).trans (ih _)

theorem KeepsXr.foldl_xr {α : Type} (l : List α) (f : State → α → State) (h : ∀ s x, KeepsXr s (f s x)) (s : State) :
    (l.foldl f s).xr = s.xr := (KeepsXr.foldl l f h s).1

theorem KeepsXr.updNet (s : State) (f : Net → Net) : KeepsXr s (s.updNet f) := ⟨rfl, rfl⟩

theorem KeepsXr.updCfg (s : State) (f : Cfg → Cfg) : KeepsXr s (s.updCfg f) := ⟨rfl, rfl⟩

theorem Reacts.keepsXr {s t : State} (h : Reacts s t) : KeepsXr s t := ⟨h.xr, congrArg Boot.recovery h.boot⟩

theorem HostOnly.keepsXr {s t : State} (h : HostOnly s t) : KeepsXr s t := h.reacts.keepsXr

theorem State.noteDevstat_keepsXr (s : State) : KeepsXr s s.noteDevstat := by
  unfold State.noteDevstat
  dsimp only
  split
  · exact .refl s
  · exact ((HostOnly.updHost s _).trans (State.setInt_hostOnly _ _ _)).keepsXr

theorem State.writeHeld_hostOnly (s : State) (q : Fin 16) (n : Nat) : HostOnly s (s.writeHeld q n) := by
  induction n generalizing s with
  | zero => exact .refl s
  | succ n ih =>
    unfold State.writeHeld
    dsimp only
    split
    · exact State.updQueue_hostOnly s q _
    · split
      · exact ((State.updQueue_hostOnly s q _).trans (State.coalesce_hostOnly _ _)).trans (ih _)
      · exact State.updQueue_hostOnly s q _

theorem State.sendReply_hostOnly (s : State) (p : Packet) (ver : Nat) (st : Status) (det : Nat) (body : List Byte) :
    HostOnly s (s.sendReply p ver st det body) := State.emit_hostOnly s _ _

theorem State.refuse_hostOnly (s : State) (p : Packet) (st : Status) (det : Nat) : HostOnly s (s.refuse p st det) :=
  State.sendReply_hostOnly s p _ st det []

theorem State.abortGroup_hostOnly (s : State) (src : Src) (det : Nat) : HostOnly s (s.abortGroup src det) := by
  unfold State.abortGroup
  dsimp only
  split
  · exact .updHost s _
  · exact ((HostOnly.updHost s _).trans (.updHost _ _)).trans (HostOnly.foldl _ _ (fun s p => State.refuse_hostOnly s p _ _) _)

theorem State.keepAlive_hostOnly (s : State) (src : Src) : HostOnly s (s.keepAlive src) := by
  unfold State.keepAlive
  split
  · exact .refl s
  · exact State.setSession_hostOnly s src _

theorem State.await_hostOnly (s : State) (p : Packet) : HostOnly s (s.await p) := by
  unfold State.await
  split
  · exact .refl s
  · exact State.setSession_hostOnly s _ _

theorem State.refuseGroup_hostOnly (s : State) (rs : List (Packet × Option (Status × Nat))) : HostOnly s (s.refuseGroup rs) := by
  refine HostOnly.foldl _ _ (fun s r => ?_) s
  split
  · exact State.refuse_hostOnly s _ _ _
  · exact State.refuse_hostOnly s _ _ _

theorem State.queueTimed_hostOnly (s : State) (ps : List Packet) (t : Nat) : HostOnly s (s.queueTimed ps t) := by
  refine (HostOnly.updHost s _).trans (HostOnly.foldl _ _ (fun s p => ?_) _)
  split
  · exact State.sendReply_hostOnly s p _ _ _ _
  · exact .refl s

theorem State.answer_hostOnly (u s : State) (p : Packet) (r : HRes) (due : Bool) : HostOnly u (u.answer s p r due) := by
  unfold State.answer
  dsimp only
  split
  · exact State.sendReply_hostOnly u p _ _ _ _
  · exact .refl u

theorem State.settle_reacts (s : State) : Reacts s s.settle := by
  refine Reacts.foldl _ _ (fun s i => ?_) s
  split
  · dsimp only
    split
    · exact (Reacts.updAxis s i _).trans (State.enterFault_reacts _ i)
    · exact (Reacts.updAxis s i _).trans (State.enterRest_reacts _ i _)
  · exact .refl s

/-! ### Sessions and the loss of Byway (R73, R76, R104) -/

theorem State.dropDraft_keepsXr (s : State) (sid : Nat) : KeepsXr s (s.dropDraft sid) := by
  have htell (s : State) (p : Packet) : KeepsXr s (s.tellMembers p) := .updNet s _
  unfold State.dropDraft
  split
  · exact .refl s
  · split
    · exact .refl s
    · split
      · split
        · have hfree (s : State) : KeepsXr s s.releaseEnables := (Reacts.foldl _ _ State.releaseEnable_reacts s).keepsXr
          exact ((KeepsXr.updCfg s _).trans (hfree _)).trans (htell _ _)
        · exact .refl s
      · exact (KeepsXr.updCfg s _).trans (htell _ _)

theorem State.dropSession_xr (s : State) (src : Src) (x : Session) : (s.dropSession src x).xr = s.xr := by
  unfold State.dropSession
  rw [(State.setSession_hostOnly _ _ _).keepsXr.1, State.updNet_xr, KeepsXr.foldl_xr]
  · exact (State.dropDraft_keepsXr _ x.sid).1
  · intro s p
    split
    · split
      · exact (Reacts.updPort s p _).keepsXr
      · exact .refl s
    · exact .refl s

theorem State.endSession_keepsXr (s : State) (src : Src) (lost : Bool) : KeepsXr s (s.endSession src lost) := by
  unfold State.endSession
  split
  · exact .refl s
  · next x _ =>
    have hdrop : KeepsXr s (s.dropSession src x) := ⟨s.dropSession_xr src x, congrArg Boot.recovery (s.dropSession_boot src x)⟩
    dsimp only
    split
    · exact (hdrop.trans (State.raise_reacts _ _).keepsXr).trans (.updNet _ _)
    · exact hdrop

theorem State.loseHost_keepsXr (s : State) : KeepsXr s s.loseHost := by
  have h := KeepsXr.foldl [Src.pcie 0, .qspi, .leader] _ (fun s src => s.endSession_keepsXr src false) s
  unfold State.loseHost
  constructor
  · dsimp only
    rw [State.updNet_xr, State.updCfg_xr, State.updHost_xr]
    exact h.1
  · dsimp only
    rw [State.updNet_boot, State.updCfg_boot, State.updHost_boot]
    exact h.2

/-! ### The opcodes of recovery mode (R64) -/

/-- A check that fails leaves the state unchanged, so only what follows the checks counts. -/
theorem HRes.ofCheck_need_keepsXr {s : State} {c : Bool} {st : Status} {det : Nat} {k : Unit → Check HRes}
    (h : KeepsXr s (HRes.ofCheck s (k ())).s) : KeepsXr s (HRes.ofCheck s (need c st det >>= k)).s := by
  cases c
  · exact .refl s
  · exact h

theorem State.reportRestart_keepsXr (s : State) : KeepsXr s s.reportRestart :=
  KeepsXr.foldl s.boot.report _ (fun s _ => KeepsXr.trans (t := { s with boot := { s.boot with bwRestarts := s.boot.bwRestarts + 1 } })
    ⟨rfl, rfl⟩ (State.raise_reacts _ _).keepsXr) { s with boot := { s.boot with report := [], quiet := false } }

theorem opHello_keepsXr (t : Instant) (p : Packet) (s : State) : KeepsXr s (opHello t p s).s := by
  unfold opHello
  dsimp only
  refine HRes.ofCheck_need_keepsXr (HRes.ofCheck_need_keepsXr (HRes.ofCheck_need_keepsXr (HRes.ofCheck_need_keepsXr
    (HRes.ofCheck_need_keepsXr (HRes.ofCheck_need_keepsXr ?_)))))
  exact (State.endSession_keepsXr s p.src false).trans (State.reportRestart_keepsXr _)

theorem opDevinfo_keepsXr (t : Instant) (p : Packet) (s : State) : KeepsXr s (opDevinfo t p s).s :=
  HRes.ofCheck_need_keepsXr (.refl s)

theorem opFaultRead_keepsXr (t : Instant) (p : Packet) (s : State) : KeepsXr s (opFaultRead t p s).s := by
  unfold opFaultRead
  dsimp only
  exact HRes.ofCheck_need_keepsXr (HRes.ofCheck_need_keepsXr (HRes.ofCheck_need_keepsXr (HRes.ofCheck_need_keepsXr
    (HRes.ofCheck_need_keepsXr (.refl s)))))

theorem opFwBegin_keepsXr (t : Instant) (p : Packet) (s : State) : KeepsXr s (opFwBegin t p s).s := by
  unfold opFwBegin
  dsimp only
  refine HRes.ofCheck_need_keepsXr (HRes.ofCheck_need_keepsXr (HRes.ofCheck_need_keepsXr ?_))
  split
  · exact .refl s
  · exact ⟨rfl, rfl⟩

theorem opFwData_keepsXr (t : Instant) (p : Packet) (s : State) : KeepsXr s (opFwData t p s).s := by
  unfold opFwData
  dsimp only
  refine HRes.ofCheck_need_keepsXr ?_
  split
  · exact .refl s
  · exact HRes.ofCheck_need_keepsXr (HRes.ofCheck_need_keepsXr (HRes.ofCheck_need_keepsXr (HRes.ofCheck_need_keepsXr ⟨rfl, rfl⟩)))

theorem opFwEnd_keepsXr (t : Instant) (p : Packet) (s : State) : KeepsXr s (opFwEnd t p s).s := by
  unfold opFwEnd
  dsimp only
  split
  · exact .refl s
  · split
    · exact .refl s
    · split
      · exact .refl s
      · split
        · exact ⟨rfl, rfl⟩
        · exact ⟨rfl, rfl⟩

theorem opFwActivate_keepsXr (t : Instant) (p : Packet) (s : State) : KeepsXr s (opFwActivate t p s).s := by
  unfold opFwActivate
  dsimp only
  refine HRes.ofCheck_need_keepsXr (HRes.ofCheck_need_keepsXr ?_)
  split
  · refine HRes.ofCheck_need_keepsXr ?_
    split
    · exact .refl s
    · exact ⟨rfl, rfl⟩
  · exact HRes.ofCheck_need_keepsXr ⟨rfl, rfl⟩
  · exact HRes.ofCheck_need_keepsXr ⟨rfl, rfl⟩
  · exact .refl s

/-- What recovery mode answers: the opcodes of R64, and `FAULT_READ` after `BYWAY_DEAD` (R519). -/
def Packet.recovers (p : Packet) : Prop := p.opcode.toNat ∈ 0x0901 :: recoveryOps

theorem opOf_keepsXr {n : Nat} {op : Op} (hn : n ∈ 0x0901 :: recoveryOps) (hop : opOf n = some op) (t : Instant) (p : Packet) (s : State) :
    KeepsXr s (op t p s).s := by
  simp only [recoveryOps, List.mem_cons, List.not_mem_nil, or_false] at hn
  rcases hn with rfl | rfl | rfl | rfl | rfl | rfl | rfl <;> cases hop
  · exact opFaultRead_keepsXr t p s
  · exact opHello_keepsXr t p s
  · exact opDevinfo_keepsXr t p s
  · exact opFwBegin_keepsXr t p s
  · exact opFwData_keepsXr t p s
  · exact opFwEnd_keepsXr t p s
  · exact opFwActivate_keepsXr t p s

/-! ### Packets in recovery mode -/

theorem State.check10_recovers {s : State} {p : Packet} {u : Unit} (hr : s.boot.recovery = true) (h : s.check10 p = .ok u) :
    Packet.recovers p := by
  by_contra hno
  simp only [Packet.recovers, List.mem_cons, not_or] at hno
  have h901 : (p.opcode.toNat == 0x0901) = false := beq_eq_false_iff_ne.2 hno.1
  simp [State.check10, hr, hno.2, h901] at h

theorem State.step12_keepsXr {p : Packet} (hp : Packet.recovers p) (t : Instant) (s : State) : KeepsXr s (s.step12 p t).s := by
  unfold State.step12
  split
  · exact .refl s
  · next op hop =>
    have hk := opOf_keepsXr hp hop t p s
    split
    · exact .refl s
    · dsimp only
      split
      · split
        · exact .refl s
        · exact hk.trans (State.await_hostOnly _ p).keepsXr
      · exact hk

theorem State.run1_keepsXr {p : Packet} (hp : Packet.recovers p) (t : Instant) (s : State) : KeepsXr s (s.run1 p t) := by
  unfold State.run1 State.replyWith
  exact ((State.step12_keepsXr hp t s).trans (State.answer_hostOnly _ s p _ _).keepsXr).trans (State.settle_reacts _).keepsXr

theorem State.groupSteps_keepsXr {ps : List Packet} (hps : ∀ p ∈ ps, Packet.recovers p) (t : Instant) (s : State) :
    KeepsXr s (s.groupSteps t ps).1 := by
  induction ps generalizing s with
  | nil => exact .refl s
  | cons p ps ih =>
    have hrest := ih (List.forall_mem_cons.1 hps).2
    unfold State.groupSteps
    dsimp only
    split
    · exact (State.step12_keepsXr (hps p List.mem_cons_self) t s).trans (hrest _)
    · exact hrest s

theorem State.runGroup_keepsXr {ps : List Packet} (hps : ∀ p ∈ ps, Packet.recovers p) (t : Instant) (s : State) :
    KeepsXr s (s.runGroup ps t) := by
  unfold State.runGroup
  dsimp only
  split
  · exact (State.refuseGroup_hostOnly s _).keepsXr
  · refine ((State.groupSteps_keepsXr hps t s).trans (HostOnly.keepsXr ?_)).trans (State.settle_reacts _).keepsXr
    exact HostOnly.foldl _ _ (fun v (r : Packet × HRes) => State.answer_hostOnly v s r.1 r.2 (isDue t)) _

/-- The packets of a group of which none fails step 10. -/
theorem State.group_recovers {s : State} (hr : s.boot.recovery = true) {ps : List Packet}
    (h : (ps.map fun p => (p, errOf (s.check10 p))).any (fun r => r.2.isSome) = false) : ∀ p ∈ ps, Packet.recovers p := by
  intro p hp
  have hpass := List.any_eq_false.1 h _ (List.mem_map_of_mem hp)
  cases hc : s.check10 p with
  | ok u => exact State.check10_recovers hr hc
  | error e => simp [errOf, hc] at hpass

theorem State.groupComplete_keepsXr {s : State} (hr : s.boot.recovery = true) (ps : List Packet) : KeepsXr s (s.groupComplete ps) := by
  have hrefuse (rs : List (Packet × Option (Status × Nat))) : KeepsXr s (s.refuseGroup rs) := (State.refuseGroup_hostOnly s rs).keepsXr
  cases ps with
  | nil => exact .refl s
  | cons p rest =>
    unfold State.groupComplete
    show KeepsXr s (if _ then _ else _)
    split
    · exact hrefuse _
    · next hok =>
      show KeepsXr s (if _ then _ else _)
      split
      · generalize s.checkTag (tagOf p) (p :: rest).length = c
        cases c with
        | error e => exact hrefuse _
        | ok u =>
          show KeepsXr s (if _ then _ else _)
          split
          · exact hrefuse _
          · exact (State.queueTimed_hostOnly s _ _).keepsXr
      · exact State.runGroup_keepsXr (State.group_recovers hr (Bool.eq_false_iff.2 hok)) _ s

theorem State.holdPacket_keepsXr {s : State} (hr : s.boot.recovery = true) (p : Packet) : KeepsXr s (s.holdPacket p) := by
  unfold State.holdPacket
  dsimp only
  split
  · exact ((State.abortGroup_hostOnly s _ _).trans (State.refuse_hostOnly _ p _ _)).keepsXr
  · split
    · exact (HostOnly.updHost s _).keepsXr.trans (State.groupComplete_keepsXr (s := s.updHost _) hr _)
    · exact (HostOnly.updHost s _).keepsXr

theorem State.arrive_keepsXr {s : State} (hr : s.boot.recovery = true) (p : Packet) : KeepsXr s (s.arrive p) := by
  unfold State.arrive
  split
  · exact .refl s
  · split
    · exact ((State.abortGroup_hostOnly s _ _).trans (State.refuse_hostOnly _ p _ _)).keepsXr
    · split
      · exact State.holdPacket_keepsXr hr p
      · have habort := (State.abortGroup_hostOnly s p.src 0x0001).keepsXr
        refine habort.trans ?_
        dsimp only
        split
        · exact (State.refuse_hostOnly _ p _ _).keepsXr
        · next hc =>
          split
          · split
            · exact (State.refuse_hostOnly _ p _ _).keepsXr
            · split
              · exact (State.refuse_hostOnly _ p _ _).keepsXr
              · exact (State.queueTimed_hostOnly _ _ _).keepsXr
          · exact State.run1_keepsXr (State.check10_recovers (habort.2.trans hr) hc) none _

theorem State.forward_keepsXr (s : State) (p : Packet) : KeepsXr s (s.forward p) := by
  unfold State.forward
  split
  · exact ((State.abortGroup_hostOnly s _ _).trans (State.refuse_hostOnly _ p _ _)).keepsXr
  · have hopen : KeepsXr s (if Packet.inGroup p then s else s.abortGroup p.src 0x0001) := by
      split
      · exact .refl s
      · exact (State.abortGroup_hostOnly s _ _).keepsXr
    refine hopen.trans ?_
    generalize (if Packet.inGroup p then s else s.abortGroup p.src 0x0001) = u
    dsimp only
    split
    · exact (State.refuse_hostOnly u p _ _).keepsXr
    · exact (HostOnly.updHost u _).keepsXr.trans (.updNet _ _)

theorem State.receive_keepsXr {s : State} (hr : s.boot.recovery = true) (src : Src) (b : List Byte) : KeepsXr s (s.receive src b) := by
  have hrefuse (s : State) (p : Packet) (st : Status) (det : Nat) : KeepsXr s ((s.abortGroup src 0x0004).refuse p st det).noteDevstat :=
    ((State.abortGroup_hostOnly s _ _).trans (State.refuse_hostOnly _ p _ _)).keepsXr.trans (State.noteDevstat_keepsXr _)
  unfold State.receive
  dsimp only
  split
  · exact hrefuse s _ _ _
  · have halive := (s.keepAlive_hostOnly src).keepsXr
    refine halive.trans ?_
    split
    · exact hrefuse _ _ _ _
    · refine KeepsXr.trans ?_ (State.noteDevstat_keepsXr _)
      split
      · exact State.arrive_keepsXr (halive.2.trans hr) _
      · exact State.forward_keepsXr _ _

theorem State.receiveOrWait_keepsXr {s : State} (hr : s.boot.recovery = true) (src : Src) (b : List Byte) :
    KeepsXr s (s.receiveOrWait src b) := by
  unfold State.receiveOrWait
  split
  · exact (HostOnly.updHost s _).keepsXr
  · exact State.receive_keepsXr hr src b

/-! ### Queues that run in recovery mode -/

theorem State.queueError_keepsXr (s : State) (q : Fin 16) (f : Queue → Queue) : KeepsXr s (s.queueError q f) :=
  ((State.updQueue_hostOnly s q _).trans (State.setInt_hostOnly _ _ _)).keepsXr

theorem State.fetchOne_keepsXr {s u : State} (hr : s.boot.recovery = true) (h : s.fetchOne = some u) : KeepsXr s u := by
  have hrot (f : HostIf → HostIf) : KeepsXr s (s.updHost f) := (HostOnly.updHost s f).keepsXr
  unfold State.fetchOne at h
  split at h
  · cases h
  · dsimp only at h
    split at h
    · cases h
    · split at h
      · cases h
      · cases h
        exact (hrot _).trans (State.queueError_keepsXr _ _ _)
      · cases h
        have htake (s : State) (q : Fin 16) (f : Queue → Queue) : KeepsXr s (s.updQueue q f) := (State.updQueue_hostOnly s q f).keepsXr
        exact ((hrot _).trans (htake _ _ _)).trans (State.receiveOrWait_keepsXr ((htake _ _ _).2.trans ((hrot _).2.trans hr)) _ _)

theorem State.fetch_keepsXr {s : State} (hr : s.boot.recovery = true) (n : Nat) : KeepsXr s (s.fetch n) := by
  induction n generalizing s with
  | zero => exact .refl s
  | succ n ih =>
    unfold State.fetch
    split
    · next u hu =>
      have hstep := State.fetchOne_keepsXr hr hu
      exact hstep.trans (ih (hstep.2.trans hr))
    · exact .refl s

theorem State.startQueues_keepsXr {s : State} (hr : s.boot.recovery = true) : KeepsXr s s.startQueues := by
  unfold State.startQueues
  have hflush (f : HostIf → HostIf) : KeepsXr s ((List.finRange 16).foldl State.flushHeld (s.updHost f)) :=
    ((HostOnly.updHost s f).trans (HostOnly.foldl _ _ (fun s q => State.writeHeld_hostOnly s q _) _)).keepsXr
  exact (hflush _).trans (State.fetch_keepsXr ((hflush _).2.trans hr) _)

/-- A crash of Byway stores nothing in Crossroads; after a third one the queues run in recovery mode, whose commands store nothing there
either (R64, R73, R76). -/
theorem State.bywayCrash_xr (s : State) (cause : Nat) : (s.bywayCrash cause).xr = s.xr := by
  unfold State.bywayCrash
  dsimp only
  split
  · rfl
  · split
    · refine (State.noteDevstat_keepsXr _).1.trans ((State.startQueues_keepsXr ?_).1.trans ?_)
      · exact (State.raise_reacts _ _).keepsXr.2
      · exact (State.raise_xr _ _).trans (State.loseHost_keepsXr _).1
    · exact (State.noteDevstat_keepsXr _).1

end Sys2Proof.Machine
end

/-! ## A write refused by the regions (R472, R473, R475, R476) -/
section
namespace Sys2Proof.Machine

/-! ### Regions (Table 15.3) -/

theorem bit_eq_testBit (n i : Nat) : bit n i = n.testBit i := by
  rw [bit, Nat.testBit_eq_decide_div_mod_eq]
  rfl

theorem regionGrants_write_iff (r : BitVec 64) (a : Nat) : regionGrants r a 8 true = true ↔
    r.toNat.testBit 0 = true ∧ r.toNat.testBit 2 = true ∧ r.toNat % 2 ^ 32 / 4096 * 4096 ≤ a
      ∧ a + 8 ≤ (r.toNat / 2 ^ 32 / 4096 + 1) * 4096 := by
  have h2 : (r.toNat % 2 ^ 32).testBit 2 = r.toNat.testBit 2 := by rw [Nat.testBit_mod_two_pow]; rfl
  have h0 : (r.toNat % 2 ^ 32).testBit 0 = r.toNat.testBit 0 := by rw [Nat.testBit_mod_two_pow]; rfl
  simp only [regionGrants, bit_eq_testBit, h0, h2, if_true, Bool.and_eq_true, decide_eq_true_eq, and_assoc]

theorem regions_grant_write_iff (v : Vector (BitVec 64) 16) (a : Nat) : v.toList.any (regionGrants · a 8 true) = true ↔
    ∃ k : Fin 16, let g := (v[k]).toNat
      g.testBit 0 = true ∧ g.testBit 2 = true ∧ g % 2 ^ 32 / 4096 * 4096 ≤ a ∧ a + 8 ≤ (g / 2 ^ 32 / 4096 + 1) * 4096 := by
  simp only [List.any_eq_true, regionGrants_write_iff, Vector.mem_toList_iff, Vector.mem_iff_getElem]
  constructor
  · rintro ⟨r, ⟨k, hk, rfl⟩, h⟩
    exact ⟨⟨k, hk⟩, h⟩
  · rintro ⟨k, h⟩
    exact ⟨_, ⟨k.val, k.isLt, rfl⟩, h⟩

/-- Turnpike, master 40, writes any word below the detour area; of the others' words one of their regions grants the write. -/
theorem Xr.permitted_write_iff (x : Xr) (m a : Nat) : x.permitted m a 8 true = true ↔
    a + 8 ≤ 0x275C000 ∧ (m = 40 ∨ ∃ (h : m < 42) (k : Fin 16), let g := ((x.regions[m])[k]).toNat
      g.testBit 0 = true ∧ g.testBit 2 = true ∧ g % 2 ^ 32 / 4096 * 4096 ≤ a ∧ a + 8 ≤ (g / 2 ^ 32 / 4096 + 1) * 4096) := by
  simp only [Xr.permitted, Bool.and_eq_true, decide_eq_true_eq]
  refine and_congr_right fun _ => ?_
  by_cases h40 : m = 40
  · simp [h40]
  · by_cases hm : m < 42
    · simpa [h40, hm, fin?] using regions_grant_write_iff x.regions[m] a
    · simp [h40, hm, fin?]

/-! ### Bytes of a word -/

theorem leNat_lt (l : List Byte) : leNat l < 256 ^ l.length := by
  induction l with
  | nil => decide
  | cons b l ih => 
    have := b.isLt
    simp only [leNat, List.length_cons, Nat.pow_succ]
    omega

theorem leNat_div_mod (l : List Byte) (k : Nat) (h : k < l.length) : leNat l / 256 ^ k % 256 = l[k].toNat := by
  induction l generalizing k with
  | nil => cases h
  | cons b l ih =>
    have hb := b.isLt
    cases k with
    | zero => simp only [leNat, List.getElem_cons_zero]; omega
    | succ k =>
      have hdiv : (b.toNat + 256 * leNat l) / 256 = leNat l := by omega
      rw [leNat, Nat.pow_succ', ← Nat.div_div_eq_div_mul, hdiv]
      exact ih k (Nat.lt_of_succ_lt_succ h)

theorem extractLsb'_leNat (l : List Byte) (hl : l.length = 8) (k : Nat) (h : k < l.length) :
    (BitVec.ofNat 64 (leNat l)).extractLsb' (8 * k) 8 = l[k] := by
  have hlt := leNat_lt l
  have hk := leNat_div_mod l k h
  rw [hl] at hlt
  apply BitVec.eq_of_toNat_eq
  rw [BitVec.extractLsb'_toNat, BitVec.toNat_ofNat, Nat.mod_eq_of_lt (b := 2 ^ 64) hlt, Nat.shiftRight_eq_div_pow, Nat.pow_mul]
  exact hk

theorem extractLsb'_mergeWord (old new : BitVec 64) (be : BitVec 8) {k : Nat} (hk : k < 8) :
    (mergeWord old new be).extractLsb' (8 * k) 8
      = if be.getLsbD k then new.extractLsb' (8 * k) 8 else old.extractLsb' (8 * k) 8 := by
  rw [mergeWord, extractLsb'_leNat _ (by simp) k (by simpa using hk)]
  simp

/-! ### A write of a word (R470, R476) -/

theorem Xr.read_congr {x y : Xr} (hm : x.mem = y.mem) (hr : x.retired = y.retired) (off n : Nat) : x.read off n = y.read off n := by
  induction n generalizing off with
  | zero => rfl
  | succ n ih => simp only [Xr.read, Xr.phys, hm, hr, ih]

theorem Xr.word_congr {x y : Xr} (hm : x.mem = y.mem) (hr : x.retired = y.retired) (off : Nat) : x.word off = y.word off := by
  rw [Xr.word, Xr.read_congr hm hr, Xr.word]

/-- A word rewritten whole is good again; a part of one leaves the mark of every word. -/
theorem Xr.clearBad_word (x : Xr) {a : Nat} (ha : a / 8 * 8 = a) (c : Prop) [Decidable c] :
    x.clearBad a (if c then 8 else 0) = { x with bad := if c then x.bad.filter (· != a / 8) else x.bad } := by
  by_cases h : c
  · simp only [Xr.clearBad, if_pos h]
    congr 2
    funext w
    rw [← Bool.decide_and, bne, Bool.not_inj_iff, Bool.eq_iff_iff]
    simp only [decide_eq_true_eq, beq_iff_eq]
    omega
  · simp only [Xr.clearBad, if_neg h]
    congr 1
    refine List.filter_eq_self.2 fun w _ => ?_
    simp only [Bool.not_eq_true', Bool.and_eq_false_iff, decide_eq_false_iff_not]
    omega

/-- A write that covers a bad word whole, or any part of a good one, stores the enabled bytes and keeps the others. -/
theorem State.wordWrite_stores (s : State) {a : Nat} (ha : a / 8 * 8 = a) {be : BitVec 8} (d : BitVec 64)
    (h : a / 8 ∉ s.xr.bad ∨ be = 0xFF#8) : ∃ v : BitVec 64,
      (∀ k < 8, v.extractLsb' (8 * k) 8 = if be.getLsbD k then d.extractLsb' (8 * k) 8 else (s.xr.word a).extractLsb' (8 * k) 8)
      ∧ (s.wordWrite a be d).xr = let z := s.xr.write a (leBytes 8 v.toNat)
          { z with bad := if be = 0xFF#8 then s.xr.bad.filter (· != a / 8) else s.xr.bad } := by
  refine ⟨mergeWord (s.xr.word a) d be, fun k hk => extractLsb'_mergeWord _ _ _ hk, ?_⟩
  have hno : ¬ (s.xr.bad.contains (a / 8) = true ∧ be ≠ 0xFF#8) := by
    rintro ⟨hbad, hbe⟩
    exact h.elim (fun h => h (List.contains_iff_mem.1 hbad)) hbe
  have hkeep : (s.xr.write a (leBytes 8 (mergeWord (s.xr.word a) d be).toNat)).bad = s.xr.bad := by rw [Xr.write_frame]
  simp only [State.wordWrite, if_neg hno, ha, State.updXr_xr, Xr.clearBad_word _ ha, hkeep]

/-! ### Collision counters (R472, R476) -/

/-- The collision flag and the collision counters are as they were. -/
def Xr.SameCollisions (x y : Xr) : Prop := y.coll = x.coll ∧ y.collFlag = x.collFlag

theorem State.uncorrectable_sameCollisions (s : State) (off : Nat) : s.xr.SameCollisions (s.uncorrectable off).xr := by
  unfold State.uncorrectable
  extract_lets b w x marked r counted raised taken z
  have hraised : s.xr.SameCollisions raised.xr := by
    have hcounted : s.xr.SameCollisions counted.xr := ⟨rfl, rfl⟩
    dsimp only [raised]
    split
    · rwa [State.raise_xr]
    · rwa [State.raise_xr]
  clear_value taken
  split
  · exact hraised
  · split
    · exact hraised
    · split
      · exact hraised
      · rwa [State.raise_xr]

theorem State.wordWrite_sameCollisions (s : State) (off : Nat) (be : BitVec 8) (d : BitVec 64) :
    s.xr.SameCollisions (s.wordWrite off be d).xr := by
  unfold State.wordWrite
  split
  · exact s.uncorrectable_sameCollisions off
  · rw [State.updXr_xr, Xr.write_frame]
    exact ⟨rfl, rfl⟩

/-! ### A refused write (R475) -/

@[simp] theorem State.xrViolation_xr (s : State) (m off : Nat) (wr : Bool) :
    (s.xrViolation m off wr).xr = { s.xr with viol := (m, wr, off, s.now) } := by
  unfold State.xrViolation
  dsimp only
  split
  · rw [State.raise_xr]
  · rw [State.raise_xr]

@[simp] theorem State.xrViolation_eng (s : State) (m off : Nat) (wr : Bool) : (s.xrViolation m off wr).eng = s.eng := by
  unfold State.xrViolation
  dsimp only
  split
  · rw [State.raise_eng]
  · rw [State.raise_eng]

@[simp] theorem State.xrViolation_now (s : State) (m off : Nat) (wr : Bool) : (s.xrViolation m off wr).now = s.now := by
  have htime : (s.xrViolation m off wr).time = s.time := by
    unfold State.xrViolation
    dsimp only
    split
    · rw [State.raise_time]
    · rw [State.raise_time]
  rw [State.now, htime, State.now]

section
variable {s : State} {e : Fin 24} {off : Nat} {be : BitVec 8} {d : BitVec 64} {ecc : Ecc}

theorem State.portL_refused (hrole : (s.eng[e]).role ≠ .retired) (h : s.xr.permitted e.val (off / 8 * 8) 8 true = false) :
    s.portL e true off be d ecc = s.xrViolation e.val (off / 8 * 8) true := by
  simp only [State.portL, if_neg hrole, h]
  rfl

theorem State.portL_granted (hrole : (s.eng[e]).role ≠ .retired) (h : s.xr.permitted e.val (off / 8 * 8) 8 true = true) :
    s.portL e true off be d ecc = s.wordWrite (off / 8 * 8) be d := by
  simp only [State.portL, if_neg hrole, h]
  rfl

/-- No write on port L collides (R473). -/
theorem State.portL_sameCollisions (s : State) (e : Fin 24) (off : Nat) (be : BitVec 8) (d : BitVec 64) (ecc : Ecc) :
    s.xr.SameCollisions (s.portL e true off be d ecc).xr := by
  by_cases hrole : (s.eng[e]).role = .retired
  · rw [State.portL, if_pos hrole]
    exact ⟨rfl, rfl⟩
  · cases hg : s.xr.permitted e.val (off / 8 * 8) 8 true
    · rw [State.portL_refused hrole hg, State.xrViolation_xr]
      exact ⟨rfl, rfl⟩
    · rw [State.portL_granted hrole hg]
      exact s.wordWrite_sameCollisions _ _ _

end

/-! ### Both ports (R471 to R473) -/

/-- A word's offset is aligned. -/
theorem word_aligned (n : Nat) : n / 8 * 8 / 8 * 8 = n / 8 * 8 := by omega

/-- The state in which a port-S access begins: its response carries no collision yet (R472). -/
def State.quiet (s : State) : State := s.updXr fun x => { x with collFlag := false }

section
variable {s : State} {m : Nat} {off : Nat} {be : BitVec 8} {d : BitVec 64} {ecc : Ecc}

theorem State.portS_refused_alone (h : s.xr.permitted m (off / 8 * 8) 8 true = false) :
    (s.portS m true off be d ecc none).xr = (s.quiet.xrViolation m (off / 8 * 8) true).xr := by
  have hno : (!s.quiet.xr.permitted m (off / 8 * 8) 8 true) = true := congrArg not h
  refine (congrArg State.xr (if_pos hno)).trans ?_
  split
  · exact State.bywayCrash_xr _ 3
  · rfl

variable {f : Fin 24} {b2 : BitVec 8} {d2 : BitVec 64}

/-- Beside a refused write on port S the write on port L acts as it would alone. -/
theorem State.portS_refused (h : s.xr.permitted m (off / 8 * 8) 8 true = false) :
    (s.portS m true off be d ecc (some (f, true, b2, d2))).xr
      = ((s.quiet.xrViolation m (off / 8 * 8) true).portL f true (off / 8 * 8) b2 d2 .ok).xr := by
  have hno : (!s.quiet.xr.permitted m (off / 8 * 8) 8 true) = true := congrArg not h
  refine (congrArg State.xr (if_pos hno)).trans ?_
  split
  · exact State.bywayCrash_xr _ 3
  · rfl

/-- Beside a refused write on port L the write on port S acts as it would alone. -/
theorem State.portS_granted (h : s.xr.permitted m (off / 8 * 8) 8 true = true) (hf : s.xr.permitted f.val (off / 8 * 8) 8 true = false) :
    s.portS m true off be d ecc (some (f, true, b2, d2))
      = (s.quiet.portL f true (off / 8 * 8) b2 d2 .ok).wordWrite (off / 8 * 8) be d := by
  have hyes : ¬ (!s.quiet.xr.permitted m (off / 8 * 8) 8 true) = true := Bool.eq_false_iff.1 (congrArg not h)
  have hmiss : ¬ ((true && s.xr.permitted f.val (off / 8 * 8) 8 true && (s.eng[f]).role != .retired) && clash b2 d2 be d) = true := by
    simp [hf]
  exact (if_neg hyes).trans ((if_pos rfl).trans (if_neg hmiss))

end

@[simp] theorem State.quiet_xr (s : State) : s.quiet.xr = { s.xr with collFlag := false } := rfl

@[simp] theorem State.quiet_eng (s : State) : s.quiet.eng = s.eng := rfl

@[simp] theorem State.quiet_now (s : State) : s.quiet.now = s.now := rfl

theorem State.quiet_xrViolation_xr (s : State) (m off : Nat) :
    (s.quiet.xrViolation m off true).xr = { s.xr with collFlag := false, viol := (m, true, off, s.now) } := by
  rw [State.xrViolation_xr, State.quiet_xr, State.quiet_now]

/-- The write that follows a violation stores what it would store without it. -/
theorem State.wordWrite_stores_after_xrViolation (s : State) (m : Nat) {a : Nat} (ha : a / 8 * 8 = a) {be : BitVec 8} (d : BitVec 64)
    (h : a / 8 ∉ s.xr.bad ∨ be = 0xFF#8) : ∃ v : BitVec 64,
      (∀ k < 8, v.extractLsb' (8 * k) 8 = if be.getLsbD k then d.extractLsb' (8 * k) 8 else (s.xr.word a).extractLsb' (8 * k) 8)
      ∧ ((s.quiet.xrViolation m a true).wordWrite a be d).xr =
          let x : Xr := { s.xr with collFlag := false, viol := (m, true, a, s.now) }
          let z := x.write a (leBytes 8 v.toNat)
          { z with bad := if be = 0xFF#8 then x.bad.filter (· != a / 8) else x.bad } := by
  have hx := s.quiet_xrViolation_xr m a
  have hword : (s.quiet.xrViolation m a true).xr.word a = s.xr.word a := Xr.word_congr (by rw [hx]) (by rw [hx]) a
  obtain ⟨v, hv, hw⟩ := (s.quiet.xrViolation m a true).wordWrite_stores ha d (by rw [hx]; exact h)
  rw [hword] at hv
  rw [hx] at hw
  exact ⟨v, hv, hw⟩

/-! ### The statement -/

/-- Settles O49: a refused write is its violation (`State.portL_refused`, `State.portS_refused`), after which the other port's write
finds the words, the regions and the collision counters as they were; not even the crash of Byway that a route core's violation brings
about stores anything (`State.bywayCrash_xr`). -/
theorem refusedWrites : Obligations.RefusedWrites := by
  intro s f m off be b2 d d2 ecc a w grants whole violated quiet wrote
  have ha : a / 8 * 8 = a := word_aligned off.toNat
  have hgrants {n : Nat} (h : grants n) : s.xr.permitted n a 8 true = true := (s.xr.permitted_write_iff n a).2 h
  have hrefused {n : Nat} (h : ¬ grants n) : s.xr.permitted n a 8 true = false :=
    Bool.eq_false_iff.2 (mt (s.xr.permitted_write_iff n a).1 h)
  -- the violation of the port-S master leaves the engines and the regions to the port-L access
  have heng : (s.quiet.xrViolation (32 + m.val) a true).eng = s.eng := by rw [State.xrViolation_eng, State.quiet_eng]
  have hkept (n : Nat) : (s.quiet.xrViolation (32 + m.val) a true).xr.permitted n (a / 8 * 8) 8 true = s.xr.permitted n a 8 true := by
    rw [ha, State.quiet_xrViolation_xr]
    rfl
  refine ⟨fun hrole hf => ⟨?lAlone, fun hm hwhole => ?lBesideGranted, fun hm => ?lBesideRefused⟩,
    fun hm => ⟨?sAlone, fun hf hrole hwhole => ?sBesideGranted, fun hf => ?sNoCollision⟩⟩
  case lAlone =>
    refine acts_of_main (u := s.portL f true off.toNat be d ecc) rfl ?_
    rw [State.portL_refused hrole (hrefused hf), State.xrViolation_xr]
  case lBesideGranted =>
    refine acts_of_main (u := s.portS (32 + m.val) true off.toNat be d ecc (some (f, true, b2, d2))) rfl ?_
    rw [State.portS_granted (hgrants hm) (hrefused hf), State.portL_refused (s := s.quiet) hrole (by rw [ha]; exact hrefused hf), ha]
    exact s.wordWrite_stores_after_xrViolation f.val ha d hwhole
  case lBesideRefused =>
    refine acts_of_main (u := s.portS (32 + m.val) true off.toNat be d ecc (some (f, true, b2, d2))) rfl ?_
    rw [State.portS_refused (hrefused hm), State.portL_refused (by rw [heng]; exact hrole) ((hkept _).trans (hrefused hf)),
      ha, State.xrViolation_xr, State.quiet_xrViolation_xr, State.xrViolation_now, State.quiet_now]
  case sAlone =>
    refine acts_of_main (u := s.portS (32 + m.val) true off.toNat be d ecc none) rfl ?_
    rw [State.portS_refused_alone (hrefused hm), State.quiet_xrViolation_xr]
  case sBesideGranted =>
    refine acts_of_main (u := s.portS (32 + m.val) true off.toNat be d ecc (some (f, true, b2, d2))) rfl ?_
    rw [State.portS_refused (hrefused hm), State.portL_granted (by rw [heng]; exact hrole) ((hkept _).trans (hgrants hf)), ha]
    exact s.wordWrite_stores_after_xrViolation (32 + m.val) ha d2 hwhole
  case sNoCollision =>
    refine acts_of_main (u := s.portS (32 + m.val) true off.toNat be d ecc (some (f, true, b2, d2))) rfl ?_
    obtain ⟨hcoll, hflag⟩ := (s.quiet.xrViolation (32 + m.val) a true).portL_sameCollisions f a b2 d2 .ok
    rw [State.portS_refused (hrefused hm)]
    rw [State.quiet_xrViolation_xr] at hcoll hflag
    exact ⟨hcoll, hflag⟩

end Sys2Proof.Machine
end

/-! ## A fault that finds no place in the active table (R508) -/
section
namespace Sys2Proof.Machine

/-! ### Folds over the units -/

/-- A fold after one entry of which `P` holds, where every step keeps `P` and, before that entry, the fact `I` that the entry needs. -/
theorem foldl_establishes {σ α : Type} {I P : σ → Prop} {f : σ → α → σ} {l : List α} {x : α} {s : σ} (hx : x ∈ l) (hs : I s)
    (keepsI : ∀ t y, I t → I (f t y)) (atEntry : ∀ t, I t → P (f t x)) (keepsP : ∀ t y, P t → P (f t y)) : P (l.foldl f s) := by
  obtain ⟨before, after, rfl⟩ := List.append_of_mem hx
  rw [List.foldl_append, List.foldl_cons]
  have hI : I (before.foldl f s) := List.foldlRecOn before f hs fun t h y _ => keepsI t y h
  exact List.foldlRecOn after f (atEntry _ hI) fun t h y _ => keepsP t y h

/-! ### The record that finds no place -/

/-- No record of a lower class than `c` gives its place. -/
theorem displaced_eq_none {t : List FaultRec} {c : Nat} (h : ∀ x ∈ t, c ≤ x.cls) : displaced t c = none := by
  have hlow : t.foldl (fun m r => if r.cls < m then r.cls else m) c = c :=
    List.foldlRecOn (motive := (· = c)) t _ rfl fun m hm x hx => by rw [hm, if_neg (Nat.not_lt.2 (h x hx))]
  simp only [displaced, hlow, Nat.lt_irrefl, if_false]

/-- The log record of a fault that finds no place in the active table (R508). -/
def FaultArg.untracked (a : FaultArg) (now : Nat) (merged : Bool) : FaultRec :=
  { a.probe now with hostId := a.hostId, merged := merged, retried := a.retried, permanent := a.permanent
                     consequential := a.consequential, untracked := true, active := false }

/-- The log once it holds that record, which is marked as merged where an axis merges the fault (R503). -/
def State.logUntracked (s : State) (a : FaultArg) : State :=
  s.logRec (a.untracked s.now (allAxes.any fun i => s.reachesAxis (a.probe s.now) i && s.merges i a.cls))

section

variable {s : State} {a : FaultArg} (hfull : s.faults.table.length = 2048) (hcls : ∀ x ∈ s.faults.table, a.cls ≤ x.cls)
include hfull hcls

theorem State.record_of_noPlace (merged : Bool) : s.record a merged = s.logRec (a.untracked s.now merged) := by
  have hroom : s.makeRoom a.cls = s := by simp [State.makeRoom, hfull, displaced_eq_none hcls]
  simp only [State.record, State.enterActive, hroom, hfull, Nat.lt_irrefl, if_false]
  rfl

theorem State.displacesReaction_of_noPlace : s.displacesReaction a.cls = true := by
  simp [State.displacesReaction, hfull, displaced_eq_none hcls]

/-- R508: a fault that finds no place acts, its log record carries `UNTRACKED`, and it counts as cleared: what follows a clear follows
at once. -/
theorem State.raiseOne_of_noPlace (hnew : ∀ x ∈ s.faults.table, x.same a = false) :
    s.raiseOne a = ((s.logUntracked a).react (a.probe s.now)).afterClear := by
  have hfind : s.faults.table.find? (·.same a) = none := List.find?_eq_none.2 fun x hx => by simp [hnew x hx]
  simp only [State.raiseOne, hfind, State.displacesReaction_of_noPlace hfull hcls, if_true, State.record_of_noPlace hfull hcls,
    State.logUntracked]

end

/-! ### What logging a record leaves alone -/

theorem State.logRec_table (s : State) (r : FaultRec) : (s.logRec r).faults.table = s.faults.table := by
  have h : HostOnly _ (s.logRec r) := State.event_hostOnly _ _ _ _
  rw [h]
  rfl

theorem State.logRec_cfg (s : State) (r : FaultRec) : (s.logRec r).cfg = s.cfg := by
  have h : HostOnly _ (s.logRec r) := State.event_hostOnly _ _ _ _
  rw [h]
  rfl

/-! ### Torque-off requests -/

theorem mem_allPorts (q : Fin 64) : q ∈ allPorts := by
  unfold allPorts
  exact List.mem_finRange q

theorem State.updPort_offFault (s : State) (p q : Fin 64) (f : Port → Port) :
    ((s.updPort p f).ports[q]).offFault = if p = q then (f s.ports[q]).offFault else (s.ports[q]).offFault := by
  simp only [State.updPort_ports, upd_apply, apply_ite Port.offFault]

theorem State.param_congr {s t : State} (h : t.cfg = s.cfg) (d : PDef) (inst n : Nat) : t.param d inst n = s.param d inst n := by
  simp only [State.param, h]

/-- Which ports a fault reaches is a matter of the configuration. -/
theorem State.reachesPort_congr {s t : State} (h : t.cfg = s.cfg) (r : FaultRec) (q : Fin 64) : t.reachesPort r q = s.reachesPort r q := by
  have hport : t.portOf = s.portOf := by
    funext i
    have hlocal : t.isLocal i = s.isLocal i := by
      simp only [State.isLocal, State.isServo, State.isStep, State.kind, State.ax, State.param_congr h]
    simp only [State.portOf, hlocal, State.ax, State.param_congr h]
  have hbus : t.busOf = s.busOf := by
    funext p
    simp only [State.busOf, State.dv, State.param_congr h]
  have haxisBus : t.axisBus = s.axisBus := by
    funext i
    simp only [State.axisBus, hport, hbus]
  simp only [State.reachesPort, State.axisOf, hport, hbus, haxisBus]

/-- A reaction of class C4 asserts the torque-off request of a port that it reaches. -/
theorem State.requestOff_asserts {s : State} {r : FaultRec} {q : Fin 64} (h : s.reachesPort r q = true) :
    ((s.requestOff r).ports[q]).offFault = true := by
  have hcls : ¬ r.cls < 4 := fun hlt => by simp [State.reachesPort, Nat.not_le.2 hlt] at h
  rw [State.requestOff, if_neg hcls]
  refine foldl_establishes (I := fun t : State => t.reachesPort r q = true) (P := fun t : State => (t.ports[q]).offFault = true)
    (mem_allPorts q) h ?keepsI ?atEntry ?keepsP
  case keepsI =>
    intro t p ht
    split
    · rw [State.reachesPort_congr (State.updPort_cfg t p _)]
      exact ht
    · exact ht
  case atEntry =>
    intro t ht
    rw [if_pos ht, State.updPort_offFault, if_pos rfl]
    rfl
  case keepsP =>
    intro t p ht
    split
    · rw [State.updPort_offFault]
      split
      · rfl
      · exact ht
    · exact ht

/-- Torque-off requests leave the fault records and the configuration as they were. -/
theorem State.requestOff_frame (s : State) (r : FaultRec) : (s.requestOff r).faults = s.faults ∧ (s.requestOff r).cfg = s.cfg := by
  unfold State.requestOff
  split
  · exact ⟨rfl, rfl⟩
  · refine List.foldlRecOn (motive := fun t : State => t.faults = s.faults ∧ t.cfg = s.cfg) _ _ ⟨rfl, rfl⟩ fun t ht p _ => ?_
    split
    · exact ht
    · exact ht

/-- A request that no active fault asserts is withdrawn (R18, R506). -/
theorem State.withdrawOff_withdraws {s : State} {q : Fin 64} (h : ∀ r ∈ s.faults.table, s.reachesPort r q = false) :
    (s.withdrawOff.ports[q]).offFault = false := by
  unfold State.withdrawOff
  refine foldl_establishes (I := fun t : State => ∀ r ∈ t.faults.table, t.reachesPort r q = false)
    (P := fun t : State => (t.ports[q]).offFault = false) (mem_allPorts q) h ?keepsI ?atEntry ?keepsP
  case keepsI =>
    intro t p ht r hr
    rw [State.reachesPort_congr (State.updPort_cfg t p _)]
    exact ht r hr
  case atEntry =>
    intro t ht
    have hoff : (t.faults.table.any fun r => t.reachesPort r q) = false := List.any_eq_false.2 fun r hr => by simp [ht r hr]
    rw [State.updPort_offFault, if_pos rfl, hoff]
    exact Bool.and_false _
  case keepsP =>
    intro t p ht
    rw [State.updPort_offFault]
    split
    · simp only [ht, Bool.false_and]
    · exact ht

/-! ### What asserts and withdraws no request -/

/-- `t` has the torque-off requests of `s`. -/
def SameRequests (s t : State) : Prop := ∀ q : Fin 64, (t.ports[q]).offFault = (s.ports[q]).offFault

theorem SameRequests.of_ports {s t : State} (h : t.ports = s.ports) : SameRequests s t := fun q => by simp only [h]

theorem SameRequests.refl (s : State) : SameRequests s s := .of_ports rfl

theorem SameRequests.trans {s t u : State} (h : SameRequests s t) (g : SameRequests t u) : SameRequests s u := fun q => (g q).trans (h q)

theorem SameRequests.foldl {α : Type} (l : List α) (f : State → α → State) (h : ∀ s x, SameRequests s (f s x)) (s : State) :
    SameRequests s (l.foldl f s) :=
  List.foldlRecOn (motive := SameRequests s) l f (.refl s) fun t ht x _ => ht.trans (h t x)

theorem SameRequests.updAxis (s : State) (i : Fin 512) (f : Axis → Axis) : SameRequests s (s.updAxis i f) := .of_ports rfl

theorem State.energiseStart_sameRequests (s : State) (i : Fin 512) : SameRequests s (s.energiseStart i) := by
  unfold State.energiseStart
  split
  · intro q
    rw [State.updPort_offFault]
    exact ite_self _
  · exact .refl s

theorem State.endEnable_sameRequests (s : State) (i : Fin 512) (st : Status) (det : Nat) :
    SameRequests s (s.endEnable i st det) := by
  unfold State.endEnable
  split
  · exact .refl s
  · refine .of_ports ?_
    rw [State.updAxis_ports, State.completeAll_hostOnly]

theorem State.prereqChange_sameRequests (s : State) (i : Fin 512) : SameRequests s (s.prereqChange i) := by
  unfold State.prereqChange
  dsimp only
  split
  · exact .refl s
  · split
    · refine SameRequests.trans ?_ (.updAxis _ _ _)
      split
      · exact State.energiseStart_sameRequests s i
      · exact .refl s
    · refine SameRequests.trans ?_ (.updAxis _ _ _)
      split
      · split
        · exact .refl s
        · exact State.endEnable_sameRequests s i _ _
      · exact State.endEnable_sameRequests s i _ _
    · exact .refl s

/-- Of what follows a clear only the withdrawal of requests changes them. -/
theorem State.afterClear_sameRequests (s : State) : SameRequests s.withdrawOff s.afterClear := by
  refine (SameRequests.trans (.foldl _ _ (fun t i => ?axis) _) (.foldl _ _ (fun t b => ?bus) _)).trans
    (.foldl _ _ State.prereqChange_sameRequests _)
  case axis =>
    split
    · exact .updAxis _ _ _
    · exact .refl t
  case bus =>
    split
    · exact .of_ports rfl
    · exact .refl t

/-- After a clear a port has no torque-off request that no active fault asserts (R18, R506). -/
theorem State.afterClear_withdraws {s : State} {q : Fin 64} (h : ∀ r ∈ s.faults.table, s.reachesPort r q = false) :
    (s.afterClear.ports[q]).offFault = false :=
  (s.afterClear_sameRequests q).trans (State.withdrawOff_withdraws h)

/-! ### A device without axes -/

theorem State.bound_congr {s t : State} (h : t.cfg = s.cfg) (i : Fin 512) : t.bound i = s.bound i := by
  simp only [State.bound, State.kind, State.ax, State.param_congr h]

theorem State.reachesAxis_of_unbound {s : State} {i : Fin 512} (h : s.bound i = false) (r : FaultRec) : s.reachesAxis r i = false := by
  simp [State.reachesAxis, h]

section

variable {s : State} (hnone : ∀ i, s.bound i = false)
include hnone

/-- On a device without axes a fault has no group to follow on. -/
theorem State.groupVictims_of_unbound (a : FaultArg) : s.groupVictims a = [] := by
  simp [State.groupVictims, State.reachesAxis_of_unbound (hnone _)]

/-- On a device without axes a reaction of any class but C5 is its torque-off requests. -/
theorem State.react_of_unbound {r : FaultRec} (h5 : r.cls ≠ 5) : s.react r = s.requestOff r := by
  have hreach (i : Fin 512) : (s.requestOff r).reachesAxis r i = false :=
    State.reachesAxis_of_unbound ((State.bound_congr (s.requestOff_frame r).2 i).trans (hnone i)) r
  simp only [State.react, State.c5Buses, if_pos h5, List.foldl_nil]
  exact List.foldl_fixed' (fun i => by rw [hreach i]; rfl) _

end

/-! ### The model and the statement -/

section

variable {s : State} {a : FaultArg} (hnone : ∀ i, s.bound i = false) (hcycle : s.faults.cycle = none)
  (hfull : s.faults.table.length = 2048) (hcls : ∀ x ∈ s.faults.table, a.cls ≤ x.cls)
include hnone hcycle hfull hcls

/-- On a device without axes, between cycles, a fault that finds no place is logged, acts and counts as cleared (R508). -/
theorem State.raise_of_noPlace (hnew : ∀ x ∈ s.faults.table, x.same a = false) :
    s.raise a = ((s.logUntracked a).react (a.probe s.now)).afterClear := by
  simp only [State.raise, hcycle, State.raiseNow, State.groupVictims_of_unbound hnone, List.foldl_nil]
  exact State.raiseOne_of_noPlace hfull hcls hnew

/-- The statement has it logged and act, and nothing more. -/
theorem raise_of_faultRecords (h : Obligations.FaultRecords) (hunit : ∀ x ∈ s.faults.table, x.unit ≠ a.unit) :
    ∃ r, s.raise a = (s.logRec r).react (a.probe s.now) := by
  obtain ⟨-, -, hcrowded⟩ := h s a (a.probe 0) [] [] hcycle
  obtain ⟨-, hnoPlace⟩ := hcrowded hfull fun x hx ⟨_, _, hsame, _⟩ => hunit x hx hsame
  have hstated := hnoPlace hcls
  rw [State.groupVictims_of_unbound hnone] at hstated
  exact ⟨_, hstated.trans (List.foldl_nil ..)⟩

end

/-! ### The counterexample -/

/-- An active table that is full: faults of class C4, no two of one code and unit, of the ports 1 to 63. -/
def crowdedTable : List FaultRec := (List.range 2048).map fun n =>
  { code := 0x0100 + n / 63, cls := 4, scope := .port, unit := 1 + n % 63, time := 0, detail := 0 }

/-- A device without axes whose active table is full. -/
def crowded : State := { State.reset with faults := { table := crowdedTable } }

/-- `DRV_FAULT` of port 0, of class C4. -/
def drvFault0 : FaultArg := { code := 0x0103, cls := 4, scope := .port, unit := 0 }

theorem crowded_table : crowded.faults.table = crowdedTable := by
  rw [crowded]

theorem crowded_full : crowded.faults.table.length = 2048 := by
  rw [crowded_table, crowdedTable, List.length_map, List.length_range]

/-- Every record of the table is of class C4, and of a port other than port 0. -/
theorem mem_crowded {x : FaultRec} (hx : x ∈ crowded.faults.table) : x.cls = 4 ∧ x.scope = .port ∧ x.unit ≠ 0 := by
  rw [crowded_table, crowdedTable] at hx
  obtain ⟨n, -, rfl⟩ := List.mem_map.1 hx
  exact ⟨rfl, rfl, Nat.ne_of_gt (Nat.add_pos_left Nat.one_pos _)⟩

theorem crowded_unbound (i : Fin 512) : crowded.bound i = false := rfl

theorem crowded_reacts (r : FaultRec) :
    (crowded.logRec r).react (drvFault0.probe crowded.now) = (crowded.logRec r).requestOff (drvFault0.probe crowded.now) :=
  State.react_of_unbound (fun i => (State.bound_congr (crowded.logRec_cfg r) i).trans (crowded_unbound i)) (by decide)

theorem reachesPort_of_port (s : State) {r : FaultRec} (hcls : r.cls = 4) (hscope : r.scope = .port) (q : Fin 64) :
    s.reachesPort r q = (r.unit == q.val) := by
  simp [State.reachesPort, hcls, hscope]

/-- Once `DRV_FAULT` has acted, port 0 has its torque-off request. -/
theorem crowded_reacts_offFault (r : FaultRec) :
    (((crowded.logRec r).react (drvFault0.probe crowded.now)).ports[(0 : Fin 64)]).offFault = true := by
  rw [crowded_reacts]
  exact State.requestOff_asserts (reachesPort_of_port _ rfl rfl 0)

/-- Once it counts as cleared, port 0 has none. -/
theorem crowded_afterClear_offFault (r : FaultRec) :
    (((crowded.logRec r).react (drvFault0.probe crowded.now)).afterClear.ports[(0 : Fin 64)]).offFault = false := by
  refine State.afterClear_withdraws fun x hx => ?_
  rw [crowded_reacts, (State.requestOff_frame _ _).1, State.logRec_table] at hx
  obtain ⟨hcls, hscope, hunit⟩ := mem_crowded hx
  rw [reachesPort_of_port _ hcls hscope]
  exact beq_false_of_ne hunit

/-- Refutes O54: a fault that finds no place in the full active table counts as cleared (R508), so the model withdraws its torque-off
request at once (`State.raise_of_noPlace`), where the statement leaves the request asserted (`raise_of_faultRecords`). The counterexample
is `DRV_FAULT` of port 0 on a device whose 2,048 active faults are of class C4 and of other ports. -/
theorem not_faultRecords : ¬ Obligations.FaultRecords := by
  intro h
  have hcls : ∀ x ∈ crowded.faults.table, drvFault0.cls ≤ x.cls := fun x hx => (mem_crowded hx).1.ge
  have hunit : ∀ x ∈ crowded.faults.table, x.unit ≠ drvFault0.unit := fun x hx => (mem_crowded hx).2.2
  have hnew : ∀ x ∈ crowded.faults.table, x.same drvFault0 = false := fun x hx => by simp [FaultRec.same, hunit x hx]
  have hwithdrawn : ((crowded.raise drvFault0).ports[(0 : Fin 64)]).offFault = false := by
    rw [State.raise_of_noPlace crowded_unbound rfl crowded_full hcls hnew, State.logUntracked]
    exact crowded_afterClear_offFault _
  have hasserted : ((crowded.raise drvFault0).ports[(0 : Fin 64)]).offFault = true := by
    obtain ⟨r, hstated⟩ := raise_of_faultRecords crowded_unbound rfl crowded_full hcls h hunit
    rw [hstated]
    exact crowded_reacts_offFault r
  rw [hasserted] at hwithdrawn
  exact absurd hwithdrawn (by decide)

end Sys2Proof.Machine
end
